-- ==== Sys2Proof/Word.lean ====
section
/-! DEFINITION. The word types of the CTM-8100: bytes, words and the identifiers of its units (R21, R22). Anything that a
rule computes with them stands in Sys2Proof/Machine/. -/
namespace Sys2Proof

abbrev Byte := BitVec 8
abbrev W16 := BitVec 16
abbrev W32 := BitVec 32
abbrev W64 := BitVec 64

/-- Logical core identifier (Table 01.4). -/
abbrev CoreId := BitVec 20
/-- Cluster identifier, bits [19:6] of its cores' identifiers (R21). -/
abbrev ClusterId := BitVec 14
/-- Sector identifier, bits [19:12] (R21). -/
abbrev SectorId := BitVec 8
/-- Compute die, bits [19:17] (R21). -/
abbrev DieId := BitVec 3
/-- Myeth port 0 to 63 (Table 01.5). -/
abbrev PortId := BitVec 6
/-- Logical application core 0 to 127 (Table 01.5). -/
abbrev AppId := BitVec 7
/-- Ring pair; 0 to 4,111 exist (R481). -/
abbrev RingId := BitVec 13
/-- A memory controller: stack 0 to 15, channel 16 to 31, port 32 to 35 (Table 12.8). -/
abbrev MemUnit := BitVec 6
abbrev TenantId := BitVec 12
abbrev JobId := BitVec 12
abbrev GroupId := BitVec 12
/-- Hall frame number, below 2^51 over the whole HT range (Table 23.2). -/
abbrev FrameNo := BitVec 51
/-- Slot of a frame, 0 to 4,095 (R403). -/
abbrev SlotNo := BitVec 12

/-- A table of units by number: a list of (key, value) pairs with rising keys. -/
abbrev Tbl (β : Type) := List (Nat × β)

end Sys2Proof
end

