-- ==== Sys2Proof/Syntax.lean ====
section
/-! DEFINITION. The commands of the block: one constructor of `Instr` for each row of spec/opcode_table.json, with the row's
operands. An instruction of a core carries the core that issues it and the fields of its word but OP (R142); a firmware
command names a packet of a class queue by ring and index (R484); an event carries the unit it happens at and what reaches
the unit from outside the model (log 1). -/
namespace Sys2Proof

/-- The instruction word of R142 (Table 06.1) without OP, which the constructor says. -/
structure Fields where
  mod : BitVec 8
  f1 : BitVec 4
  f2 : BitVec 4
  d : BitVec 4
  a : BitVec 4
  b : BitVec 4
  c : BitVec 4
  imm : BitVec 24
  deriving DecidableEq, Repr

/-- A packet that firmware has read: its ring and its ring index (Table 20.4). -/
structure PktRef where
  ring : RingId
  index : BitVec 32
  deriving DecidableEq, Repr

/-- Where a parity check fails in the cycle of an array event (R113), if anywhere. -/
inductive ParityHit where
  | clean
  | buffer
  | set
  | latch
  deriving DecidableEq, Repr

/-- What the memory under a descriptor walk shows beside its contents (R138, R139): addresses of words that fail, that scrub
corrects and that it cannot correct, and array test passes whose signature differs. -/
structure WalkFindings where
  failing : List Nat
  corrected : List Nat
  uncorrectable : List Nat
  badPasses : Nat
  deriving DecidableEq, Repr

/-- A master that a drain request of `FENCE.SC` reaches (R364). -/
inductive DrainMaster where
  | cluster (cl : ClusterId)
  | app (a : AppId)
  deriving DecidableEq, Repr

/-- What the protection of a line reports when the line is read (R323). -/
inductive EccResult where
  | clean
  | corrected
  | uncorrectable
  deriving DecidableEq, Repr

/-- Who waits for a walk (R339). -/
inductive Requester where
  | core (c : CoreId)
  | stream (cl : ClusterId) (serial : BitVec 16)
  deriving DecidableEq, Repr

/-- Exact sum record (Table 03.10). -/
structure ExactRec where
  x : BitVec 128
  nan : Bool
  pos : Bool
  neg : Bool
  count : BitVec 32
  deriving DecidableEq, Repr

/-- The other members' part of a layer's reduction lanes (Table 09.6): exact sums of the scores, largest keys, and the
smallest and largest of each check word. -/
structure PeerLanes where
  scores : List ExactRec
  keys : List (BitVec 64)
  checkMin : List (BitVec 64)
  checkMax : List (BitVec 64)
  deriving DecidableEq, Repr

/-- A flit (Table 16.2): header fields and 240 payload bytes. -/
structure Flit where
  kind : BitVec 4
  flags : BitVec 4
  flit : BitVec 4
  count : BitVec 4
  group : BitVec 12
  op : BitVec 4
  chunk : BitVec 32
  tag : BitVec 32
  lcrc : BitVec 32
  payload : List Byte
  deriving DecidableEq, Repr

/-- What a receive slot brings: nothing, a flit whose FEC codewords cannot be corrected (R402), or a flit. -/
inductive Arrival where
  | nothing
  | badFec
  | flit (f : Flit)
  deriving DecidableEq, Repr

/-- The four timestamps of a peer-delay exchange (R384), in 1/64 ns. -/
structure DelayExchange where
  t1 : Nat
  t2 : Nat
  t3 : Nat
  t4 : Nat
  deriving DecidableEq, Repr

/-- A received time flit (R382, Table 15.4). Times are in 1/64 ns; `arrival` is the local HT at which it crossed the port's
reference plane. -/
structure TimeFlit where
  origin : Nat
  arrival : Nat
  bound : BitVec 16
  state : BitVec 3
  root : Bool
  holdover : Bool
  frame : BitVec 48
  sync : Bool
  delay : Option DelayExchange
  announce : Option (BitVec 20 × BitVec 10)
  foreignOption : Bool
  deriving DecidableEq, Repr

/-- What slot 0 of a frame brings to a port (R388, R402). -/
inductive TimeArrival where
  | missing
  | damaged
  | flit (t : TimeFlit)
  deriving DecidableEq, Repr

/-- A master of the device regions (Table 20.12). -/
inductive Master where
  | manager
  | cocoon
  | debug
  | app (a : AppId)
  deriving DecidableEq, Repr

/-- An access of an application core (R354, R370): sizes are powers of two of bytes, `wide` is 64 bits. -/
inductive AppAccess where
  | load (addr : BitVec 52) (log2 : BitVec 2)
  | store (addr : BitVec 52) (log2 : BitVec 2) (value : BitVec 64)
  | amo (op : BitVec 4) (addr : BitVec 52) (wide : Bool) (value : BitVec 64)
  | lr (addr : BitVec 52) (wide : Bool)
  | sc (addr : BitVec 52) (wide : Bool) (value : BitVec 64)
  | exception
  deriving DecidableEq, Repr

/-- How shipping a chrysalis ends (R470, Table 20.6). -/
inductive ShipResult where
  | done
  | absent
  | fault
  deriving DecidableEq, Repr

/-- What a boot stage finds (Table 22.1). -/
inductive BootResult where
  | supplies
  | image (fromB : Bool)
  | imagesBad
  | repairTable (entries : List (BitVec 128))
  | memory (t2Cap : BitVec 8) (t2Absent : BitVec 16)
  | stackFailed
  | ports (capacity : List Nat)
  | links (up : BitVec 64)
  | selfTest (failed : List (BitVec 32))
  | system (ok : Bool)
  deriving DecidableEq, Repr

/-- The commands, in the order of spec/opcode_table.json. Each constructor's comment names its row and the row's rule. -/
inductive Instr where
  /-- NOP (R145). -/
  | nop (c : CoreId) (w : Fields)
  /-- END (R149). -/
  | endItem (c : CoreId) (w : Fields)
  /-- JAL (R148). -/
  | jal (c : CoreId) (w : Fields)
  /-- JR (R148). -/
  | jr (c : CoreId) (w : Fields)
  /-- BEQ (R148). -/
  | beq (c : CoreId) (w : Fields)
  /-- BNE (R148). -/
  | bne (c : CoreId) (w : Fields)
  /-- BLT (R148). -/
  | blt (c : CoreId) (w : Fields)
  /-- BGE (R148). -/
  | bge (c : CoreId) (w : Fields)
  /-- BLTU (R148). -/
  | bltu (c : CoreId) (w : Fields)
  /-- BGEU (R148). -/
  | bgeu (c : CoreId) (w : Fields)
  /-- LOOP (R148). -/
  | loop (c : CoreId) (w : Fields)
  /-- BSEL (R172). -/
  | bsel (c : CoreId) (w : Fields)
  /-- TRAP (R163). -/
  | trap (c : CoreId) (w : Fields)
  /-- ADD (R145). -/
  | add (c : CoreId) (w : Fields)
  /-- SUB (R145). -/
  | sub (c : CoreId) (w : Fields)
  /-- AND (R145). -/
  | and (c : CoreId) (w : Fields)
  /-- OR (R145). -/
  | or (c : CoreId) (w : Fields)
  /-- XOR (R145). -/
  | xor (c : CoreId) (w : Fields)
  /-- SHL (R145). -/
  | shl (c : CoreId) (w : Fields)
  /-- SHR (R145). -/
  | shr (c : CoreId) (w : Fields)
  /-- SRA (R145). -/
  | sra (c : CoreId) (w : Fields)
  /-- MUL (R145). -/
  | mul (c : CoreId) (w : Fields)
  /-- MIN (R145). -/
  | min (c : CoreId) (w : Fields)
  /-- MAX (R145). -/
  | max (c : CoreId) (w : Fields)
  /-- ADDI (R145). -/
  | addi (c : CoreId) (w : Fields)
  /-- LI (R145). -/
  | li (c : CoreId) (w : Fields)
  /-- LIH (R145). -/
  | lih (c : CoreId) (w : Fields)
  /-- LD_S (R145). -/
  | ldS (c : CoreId) (w : Fields)
  /-- ST_S (R145). -/
  | stS (c : CoreId) (w : Fields)
  /-- MMA (R90). -/
  | mma (c : CoreId) (w : Fields)
  /-- MMA_T4 (R95). -/
  | mmaT4 (c : CoreId) (w : Fields)
  /-- MMA_T4T (R98). -/
  | mmaT4t (c : CoreId) (w : Fields)
  /-- MMA_T4S (R99). -/
  | mmaT4s (c : CoreId) (w : Fields)
  /-- MCLOSE (R154). -/
  | mclose (c : CoreId) (w : Fields)
  /-- MWAIT (R146). -/
  | mwait (c : CoreId) (w : Fields)
  /-- VADD (R117). -/
  | vadd (c : CoreId) (w : Fields)
  /-- VSUB (R117). -/
  | vsub (c : CoreId) (w : Fields)
  /-- VMUL (R117). -/
  | vmul (c : CoreId) (w : Fields)
  /-- VFMA (R117). -/
  | vfma (c : CoreId) (w : Fields)
  /-- VMIN (R117). -/
  | vmin (c : CoreId) (w : Fields)
  /-- VMAX (R117). -/
  | vmax (c : CoreId) (w : Fields)
  /-- VABS (R117). -/
  | vabs (c : CoreId) (w : Fields)
  /-- VNEG (R117). -/
  | vneg (c : CoreId) (w : Fields)
  /-- VCMP (R125). -/
  | vcmp (c : CoreId) (w : Fields)
  /-- VSEL (R122). -/
  | vsel (c : CoreId) (w : Fields)
  /-- VRSUM (R119). -/
  | vrsum (c : CoreId) (w : Fields)
  /-- VRMAX (R119). -/
  | vrmax (c : CoreId) (w : Fields)
  /-- VRMAXI (R119). -/
  | vrmaxi (c : CoreId) (w : Fields)
  /-- VCVT (R44). -/
  | vcvt (c : CoreId) (w : Fields)
  /-- VLDQ (R158). -/
  | vldq (c : CoreId) (w : Fields)
  /-- VEXP2 (R126). -/
  | vexp2 (c : CoreId) (w : Fields)
  /-- VEXP (R126). -/
  | vexp (c : CoreId) (w : Fields)
  /-- VLOG2 (R126). -/
  | vlog2 (c : CoreId) (w : Fields)
  /-- VLOG (R126). -/
  | vlog (c : CoreId) (w : Fields)
  /-- VRCP (R126). -/
  | vrcp (c : CoreId) (w : Fields)
  /-- VRSQRT (R126). -/
  | vrsqrt (c : CoreId) (w : Fields)
  /-- VSQRT (R126). -/
  | vsqrt (c : CoreId) (w : Fields)
  /-- VERF (R126). -/
  | verf (c : CoreId) (w : Fields)
  /-- VTANH (R126). -/
  | vtanh (c : CoreId) (w : Fields)
  /-- VSIGM (R126). -/
  | vsigm (c : CoreId) (w : Fields)
  /-- VSILU (R126). -/
  | vsilu (c : CoreId) (w : Fields)
  /-- VGELU (R126). -/
  | vgelu (c : CoreId) (w : Fields)
  /-- VCOMPRESS (R123). -/
  | vcompress (c : CoreId) (w : Fields)
  /-- VEXPAND (R124). -/
  | vexpand (c : CoreId) (w : Fields)
  /-- VMOV (R579). -/
  | vmov (c : CoreId) (w : Fields)
  /-- VBCAST (R117). -/
  | vbcast (c : CoreId) (w : Fields)
  /-- VPOPC (R119). -/
  | vpopc (c : CoreId) (w : Fields)
  /-- VDESC (R136). -/
  | vdesc (c : CoreId) (w : Fields)
  /-- DESCRIPTOR_WALK_END (R139). -/
  | descriptorWalkEnd (c : CoreId) (f : WalkFindings)
  /-- TQPOP (R134). -/
  | tqpop (c : CoreId) (w : Fields)
  /-- VSEED (R131). -/
  | vseed (c : CoreId) (w : Fields)
  /-- VSEED_ST (R131). -/
  | vseedSt (c : CoreId) (w : Fields)
  /-- CSEED (R69). -/
  | cseed (c : CoreId) (w : Fields)
  /-- CSEED_ST (R69). -/
  | cseedSt (c : CoreId) (w : Fields)
  /-- VRAND (R307). -/
  | vrand (c : CoreId) (w : Fields)
  /-- VSAMPLE (R311). -/
  | vsample (c : CoreId) (w : Fields)
  /-- VTOPK (R310). -/
  | vtopk (c : CoreId) (w : Fields)
  /-- VTOPP (R310). -/
  | vtopp (c : CoreId) (w : Fields)
  /-- VDROP (R308). -/
  | vdrop (c : CoreId) (w : Fields)
  /-- VOSM_STAT (R296). -/
  | vosmStat (c : CoreId) (w : Fields)
  /-- VOSM_MERGE (R297). -/
  | vosmMerge (c : CoreId) (w : Fields)
  /-- VOSM_SCALE (R295). -/
  | vosmScale (c : CoreId) (w : Fields)
  /-- VOSM_NORM (R298). -/
  | vosmNorm (c : CoreId) (w : Fields)
  /-- VOSM_PROB (R298). -/
  | vosmProb (c : CoreId) (w : Fields)
  /-- NBIND (R157). -/
  | nbind (c : CoreId) (w : Fields)
  /-- NFLUSH (R157). -/
  | nflush (c : CoreId) (w : Fields)
  /-- NORM_FLUSH_UPDATE (R267). -/
  | normFlushUpdate (c : CoreId)
  /-- VNORM (R157). -/
  | vnorm (c : CoreId) (w : Fields)
  /-- MSCORE (R161). -/
  | mscore (c : CoreId) (w : Fields)
  /-- MSIEVE (R161). -/
  | msieve (c : CoreId) (w : Fields)
  /-- XBEGIN (R159). -/
  | xbegin (c : CoreId) (w : Fields)
  /-- TRANSFER_PHASE_ADMIT (R106). -/
  | transferPhaseAdmit (cl : ClusterId)
  /-- XEND (R159). -/
  | xend (c : CoreId) (w : Fields)
  /-- XFER (R180). -/
  | xfer (c : CoreId) (w : Fields)
  /-- XFER_WIN (R189). -/
  | xferWin (c : CoreId) (w : Fields)
  /-- XFER_FILL (R187). -/
  | xferFill (c : CoreId) (w : Fields)
  /-- XFER_COPY (R188). -/
  | xferCopy (c : CoreId) (w : Fields)
  /-- XFER_MC (R190). -/
  | xferMc (c : CoreId) (w : Fields)
  /-- FENCE (R363). -/
  | fence (c : CoreId) (w : Fields)
  /-- FENCE_SC (R364). -/
  | fenceSc (c : CoreId) (w : Fields)
  /-- DRAIN_REQUEST_ARRIVAL (R364). -/
  | drainRequestArrival (c : CoreId) (m : DrainMaster)
  /-- DRAIN_ACKNOWLEDGE (R364). -/
  | drainAcknowledge (c : CoreId) (m : DrainMaster)
  /-- LD_G (R160). -/
  | ldG (c : CoreId) (w : Fields)
  /-- LOAD_RETURN (R160). -/
  | loadReturn (c : CoreId)
  /-- ST_G (R160). -/
  | stG (c : CoreId) (w : Fields)
  /-- AMO (R370). -/
  | amo (c : CoreId) (w : Fields)
  /-- WAITHT (R396). -/
  | waitht (c : CoreId) (w : Fields)
  /-- WAITHT_RELEASE (R396). -/
  | waithtRelease (c : CoreId)
  /-- BARW (R395). -/
  | barw (c : CoreId) (w : Fields)
  /-- BARW_RELEASE (R396). -/
  | barwRelease (sec : SectorId) (e : BitVec 12)
  /-- HTRD (R376). -/
  | htrd (c : CoreId) (w : Fields)
  /-- HTRD_H (R376). -/
  | htrdH (c : CoreId) (w : Fields)
  /-- STAT_RD (R162). -/
  | statRd (c : CoreId) (w : Fields)
  /-- STAT_CLR (R162). -/
  | statClr (c : CoreId) (w : Fields)
  /-- PASS_START (R91). -/
  | passStart (c : CoreId) (par : ParityHit)
  /-- PRODUCT_ENTRY (R62). -/
  | productEntry (c : CoreId) (dryRows dryCols : BitVec 4) (par : ParityHit)
  /-- OVERFLOW_REPEAT (R66). -/
  | overflowRepeat (c : CoreId)
  /-- DEFERRED_SWAP (R72). -/
  | deferredSwap (c : CoreId)
  /-- DRAIN_READ (R72). -/
  | drainRead (c : CoreId) (held : BitVec 4) (par : ParityHit)
  /-- DRAIN_OUTPUT (R77). -/
  | drainOutput (c : CoreId)
  /-- PARITY_RESTART (R113). -/
  | parityRestart (c : CoreId)
  /-- TILE_RESTORE (R536). -/
  | tileRestore (c : CoreId)
  /-- CORE_OUT_OF_SERVICE (R535). -/
  | coreOutOfService (c : CoreId)
  /-- WORK_ITEM_START (R171). -/
  | workItemStart (c : CoreId) (item : BitVec 32)
  /-- PREEMPT_REQUEST (R110). -/
  | preemptRequest (c : CoreId)
  /-- PREEMPT_BOUNDARY (R110). -/
  | preemptBoundary (c : CoreId)
  /-- PREEMPT_DISCARD (R110). -/
  | preemptDiscard (c : CoreId)
  /-- STREAM_PREEMPT_PARK (R199). -/
  | streamPreemptPark (cl : ClusterId) (serial : BitVec 16)
  /-- CONTEXT_SAVE_DONE (R166). -/
  | contextSaveDone (c : CoreId)
  /-- LINE_DELIVERY (R183). -/
  | lineDelivery (cl : ClusterId) (serial : BitVec 16)
  /-- STREAM_END (R185). -/
  | streamEnd (cl : ClusterId) (serial : BitVec 16)
  /-- PARKED_STREAM_SPILL (R194). -/
  | parkedStreamSpill (cl : ClusterId) (serial : BitVec 16)
  /-- PARK_LIMIT_EXPIRY (R198). -/
  | parkLimitExpiry (cl : ClusterId) (serial : BitVec 16)
  /-- SPILL_ROTATION (R193). -/
  | spillRotation (cl : ClusterId)
  /-- SPILL_PROMOTION (R193). -/
  | spillPromotion (cl : ClusterId)
  /-- MULTICAST_RECEIVE_TIMEOUT (R190). -/
  | multicastReceiveTimeout (cl : ClusterId) (serial : BitVec 16)
  /-- MULTICAST_SEND_TIMEOUT (R190). -/
  | multicastSendTimeout (cl : ClusterId) (serial : BitVec 16)
  /-- DETACHED_COPY_END (R188). -/
  | detachedCopyEnd (cl : ClusterId) (serial : BitVec 16)
  /-- WRITE_BUFFER_SEND (R360). -/
  | writeBufferSend (cl : ClusterId) (line : BitVec 46)
  /-- HOME_WRITE_PERFORM (R359). -/
  | homeWritePerform (cl : ClusterId) (line : BitVec 46)
  /-- HOME_ATOMIC (R372). -/
  | homeAtomic (c : CoreId)
  /-- MEMORY_REQUEST_SERVICE (R322). -/
  | memoryRequestService (u : MemUnit) (ecc : EccResult)
  /-- STARVATION_GUARD (R322). -/
  | starvationGuard (u : MemUnit)
  /-- PATROL_SCRUB (R325). -/
  | patrolScrub (line : BitVec 46) (ecc : EccResult) (newer : Bool)
  /-- HBM_ROW_REPAIR (R326). -/
  | hbmRowRepair (stack : BitVec 4) (pc : BitVec 6) (bank : BitVec 6) (row : BitVec 16)
  /-- PSEUDO_CHANNEL_COPY_END (R327). -/
  | pseudoChannelCopyEnd (stack : BitVec 4)
  /-- WALK_START (R339). -/
  | walkStart (r : Requester)
  /-- WALK_END (R340). -/
  | walkEnd (d : DieId) (tenant : TenantId) (page : BitVec 36)
  /-- ACCESS_PARK_LIMIT (R345). -/
  | accessParkLimit (c : CoreId)
  /-- MOULT_START (R243). -/
  | moultStart (d : DieId) (job : JobId)
  /-- MOULT_SCORE (R245). -/
  | moultScore (d : DieId)
  /-- MOULT_SIEVE (R240). -/
  | moultSieve (d : DieId)
  /-- MOULT_REDUCE (R246). -/
  | moultReduce (job : JobId) (peers : List PeerLanes)
  /-- MOULT_DROP_GROW (R249). -/
  | moultDropGrow (d : DieId)
  /-- MOULT_RECHOOSE (R252). -/
  | moultRechoose (d : DieId)
  /-- MOULT_REBUILD (R253). -/
  | moultRebuild (d : DieId)
  /-- MOULT_CANDIDATES (R257). -/
  | moultCandidates (d : DieId)
  /-- MOULT_VOTE (R258). -/
  | moultVote (job : JobId)
  /-- MOULT_VOTE_RESULT (R258). -/
  | moultVoteResult (job : JobId) (peers : BitVec 64)
  /-- MOULT_COMMIT (R259). -/
  | moultCommit (job : JobId)
  /-- MOULT_TIMEOUT (R260). -/
  | moultTimeout (job : JobId)
  /-- STAGED_REPAIR_APPLY (R532). -/
  | stagedRepairApply (entry : BitVec 14)
  /-- UPSTREAM_SWITCH (R379). -/
  | upstreamSwitch
  /-- HOLDOVER_ENTRY (R379). -/
  | holdoverEntry
  /-- HOLDOVER_EXIT (R379). -/
  | holdoverExit
  /-- TIME_FLIT_SEND (R382). -/
  | timeFlitSend (port : PortId)
  /-- TIME_FLIT_RECEIVE (R388). -/
  | timeFlitReceive (port : PortId) (f : TimeArrival)
  /-- PARTNER_OUT_CLEAR (R388). -/
  | partnerOutClear (port : PortId)
  /-- SLEW_COMPLETE (R390). -/
  | slewComplete
  /-- DELAY_VALID_EXPIRY (R384). -/
  | delayValidExpiry (port : PortId)
  /-- ENTER_OUT (R387). -/
  | enterOut
  /-- ENTER_TRACK (R386). -/
  | enterTrack
  /-- ENTER_LOCKED (R386). -/
  | enterLocked
  /-- PPS_IN_EDGE (R391). -/
  | ppsInEdge (rising : Bool)
  /-- PPS_LOST (R391). -/
  | ppsLost
  /-- PPS_OUT_EDGE (R392). -/
  | ppsOutEdge (rising : Bool)
  /-- HT_CFG_WRITE (R380). -/
  | htCfgWrite (m : Master) (v : BitVec 64)
  /-- HT_NOW_READ (R502). -/
  | htNowRead (m : Master)
  /-- HT_END (R549). -/
  | htEnd
  /-- BARRIER_INSTANT_RELEASE (R394). -/
  | barrierInstantRelease (e : BitVec 12)
  /-- LANE_LOCK_LOSS (R399). -/
  | laneLockLoss (port : PortId) (lane : BitVec 2)
  /-- LANE_SWAP (R399). -/
  | laneSwap (port : PortId) (transmit : Bool)
  /-- SCHEDULED_SEND (R411). -/
  | scheduledSend (port : PortId) (frame : FrameNo) (slot : SlotNo)
  /-- SCHEDULED_RECEIVE (R404). -/
  | scheduledReceive (port : PortId) (frame : FrameNo) (slot : SlotNo) (a : Arrival)
  /-- FORWARD_SEND (R412). -/
  | forwardSend (port : PortId) (frame : FrameNo) (slot : SlotNo)
  /-- REPAIR_REQUEST_SEND (R416). -/
  | repairRequestSend (port : PortId)
  /-- REPAIR_REQUEST_RECEIVE (R417). -/
  | repairRequestReceive (port : PortId) (a : Arrival)
  /-- REPAIR_FLIT_SEND (R417). -/
  | repairFlitSend (port : PortId) (frame : FrameNo) (slot : SlotNo)
  /-- REPAIR_FLIT_RECEIVE (R417). -/
  | repairFlitReceive (port : PortId) (a : Arrival)
  /-- FLIT_LOSS (R418). -/
  | flitLoss (port : PortId) (frame : FrameNo) (slot : SlotNo)
  /-- PARTNER_ABSENT (R419). -/
  | partnerAbsent (port : PortId)
  /-- ABSENT_CLEAR (R419). -/
  | absentClear (port : PortId)
  /-- OPEN_MESSAGE_RECEIVE (R420). -/
  | openMessageReceive (port : PortId) (a : Arrival)
  /-- OPEN_SLOT_GRANT (R421). -/
  | openSlotGrant (port : PortId) (frame : FrameNo) (slot : SlotNo)
  /-- SEALED_ACKNOWLEDGEMENT (R424). -/
  | sealedAcknowledgement (g : GroupId)
  /-- SEALED_RESEND_REQUEST (R424). -/
  | sealedResendRequest (g : GroupId) (chunk : BitVec 32) (resend : Bool)
  /-- SCHEDULE_LOAD_DONE (R408). -/
  | scheduleLoadDone (port : PortId)
  /-- BANK_SWAP (R409). -/
  | bankSwap (port : PortId)
  /-- HOLD_LIMIT (R438). -/
  | holdLimit (g : GroupId)
  /-- LATE_CONTRIBUTION_READY (R439). -/
  | lateContributionReady (g : GroupId) (seg : BitVec 12)
  /-- STEP_DEADLINE (R441). -/
  | stepDeadline (g : GroupId)
  /-- STEP_END (R441). -/
  | stepEnd (g : GroupId)
  /-- EXACT_LIMIT (R442). -/
  | exactLimit (g : GroupId)
  /-- COLLECTIVE_STEP_BOUNDARY (R446). -/
  | collectiveStepBoundary (g : GroupId)
  /-- MODE_VOTE (R454). -/
  | modeVote (g : GroupId)
  /-- MODE_VOTE_RESULT (R454). -/
  | modeVoteResult (g : GroupId) (peers : BitVec 64)
  /-- MODE_COMMIT (R454). -/
  | modeCommit (g : GroupId)
  /-- MODE_TIMEOUT (R454). -/
  | modeTimeout (g : GroupId)
  /-- DIGEST_CLOSE (R462). -/
  | digestClose (job : JobId)
  /-- CHRYSALIS_COPY_END (R468). -/
  | chrysalisCopyEnd (job : JobId)
  /-- EYE_STAMP (R474). -/
  | eyeStamp (d : DieId)
  /-- EYE_FREEZE (R478). -/
  | eyeFreeze (d : DieId)
  /-- EVT_EDGE (R476). -/
  | evtEdge (pin : BitVec 2) (rising : Bool)
  /-- EYE_MARK_WRITE (R480). -/
  | eyeMarkWrite (m : Master) (v : BitVec 64)
  /-- EYE_CTL_WRITE (R475). -/
  | eyeCtlWrite (m : Master) (d : DieId) (v : BitVec 64)
  /-- DOORBELL (R483). -/
  | doorbell (m : Master) (ring : RingId) (v : BitVec 64)
  /-- CMD_RTAIL_WRITE (R484). -/
  | cmdRtailWrite (m : Master) (ring : RingId) (v : BitVec 64)
  /-- CMD_RING_ENABLE (R482). -/
  | cmdRingEnable (m : Master) (ring : RingId) (v : BitVec 64)
  /-- PACKET_READ (R484). -/
  | packetRead (ring : RingId)
  /-- MANAGEMENT_DATAGRAM (R485). -/
  | managementDatagram (mac : BitVec 48) (udp : BitVec 16) (bytes : List Byte)
  /-- QUEUE_AGING (R489). -/
  | queueAging (p : PktRef)
  /-- DEVICE_NOP (R494). -/
  | deviceNop (p : PktRef)
  /-- DEVICE_QUERY (R494). -/
  | deviceQuery (p : PktRef)
  /-- DEVICE_ATTEST (R358). -/
  | deviceAttest (p : PktRef)
  /-- DEVICE_CANCEL (R492). -/
  | deviceCancel (p : PktRef)
  /-- DEVICE_CONFIG (R485). -/
  | deviceConfig (p : PktRef)
  /-- DEVICE_RESET_COLD (R526). -/
  | deviceResetCold (p : PktRef)
  /-- DEVICE_RESET_WARM (R526). -/
  | deviceResetWarm (p : PktRef)
  /-- DEVICE_RESET_COMPUTE (R526). -/
  | deviceResetCompute (p : PktRef)
  /-- DEVICE_HEALTH (R544). -/
  | deviceHealth (p : PktRef)
  /-- TENANT_BIND (R349). -/
  | tenantBind (p : PktRef)
  /-- TENANT_UNBIND (R351). -/
  | tenantUnbind (p : PktRef)
  /-- TENANT_GUARD (R272). -/
  | tenantGuard (p : PktRef)
  /-- TENANT_QUERY (R355). -/
  | tenantQuery (p : PktRef)
  /-- PROGRAM_LOAD (R168). -/
  | programLoad (p : PktRef)
  /-- PROGRAM_LAUNCH (R170). -/
  | programLaunch (p : PktRef)
  /-- PROGRAM_MODE (R454). -/
  | programMode (p : PktRef)
  /-- PROGRAM_PREEMPT (R110). -/
  | programPreempt (p : PktRef)
  /-- PROGRAM_RESUME (R112). -/
  | programResume (p : PktRef)
  /-- PROGRAM_STOP (R232). -/
  | programStop (p : PktRef)
  /-- MEMORY_PLACE (R329). -/
  | memoryPlace (p : PktRef)
  /-- MEMORY_RESUME (R344). -/
  | memoryResume (p : PktRef)
  /-- MEMORY_END (R344). -/
  | memoryEnd (p : PktRef)
  /-- MEMORY_INVAL (R347). -/
  | memoryInval (p : PktRef)
  /-- MEMORY_STREAM_RESUME (R197). -/
  | memoryStreamResume (p : PktRef)
  /-- MEMORY_STREAM_END (R197). -/
  | memoryStreamEnd (p : PktRef)
  /-- MEMORY_TENSOR (R214). -/
  | memoryTensor (p : PktRef)
  /-- MEMORY_RELEASE (R331). -/
  | memoryRelease (p : PktRef)
  /-- HALL_TIME (R391). -/
  | hallTime (p : PktRef)
  /-- HALL_BARRIER_CLAIM (R393). -/
  | hallBarrierClaim (p : PktRef)
  /-- HALL_BARRIER_ARM (R394). -/
  | hallBarrierArm (p : PktRef)
  /-- HALL_BARRIER_DISARM (R393). -/
  | hallBarrierDisarm (p : PktRef)
  /-- HALL_BARRIER_RELEASE (R393). -/
  | hallBarrierRelease (p : PktRef)
  /-- HALL_BARRIER_QUERY (R393). -/
  | hallBarrierQuery (p : PktRef)
  /-- HALL_SCHED (R407). -/
  | hallSched (p : PktRef)
  /-- HALL_CHANNEL_SEAL (R423). -/
  | hallChannelSeal (p : PktRef)
  /-- HALL_CHANNEL_UNSEAL (R423). -/
  | hallChannelUnseal (p : PktRef)
  /-- HALL_ROUTE (R420). -/
  | hallRoute (p : PktRef)
  /-- HALL_SEND (R503). -/
  | hallSend (p : PktRef)
  /-- HALL_CANCEL (R422). -/
  | hallCancel (p : PktRef)
  /-- COLLECTIVE_DEFINE (R426). -/
  | collectiveDefine (p : PktRef)
  /-- COLLECTIVE_FREE (R427). -/
  | collectiveFree (p : PktRef)
  /-- COLLECTIVE_OP (R431). -/
  | collectiveOp (p : PktRef)
  /-- COLLECTIVE_QUERY (R448). -/
  | collectiveQuery (p : PktRef)
  /-- INSTAR_PLAN (R235). -/
  | instarPlan (p : PktRef)
  /-- INSTAR_MOULT (R261). -/
  | instarMoult (p : PktRef)
  /-- INSTAR_QUERY (R264). -/
  | instarQuery (p : PktRef)
  /-- CHRYSALIS_TAKE (R468). -/
  | chrysalisTake (p : PktRef)
  /-- CHRYSALIS_SHIP (R470). -/
  | chrysalisShip (p : PktRef)
  /-- CHRYSALIS_VERIFY (R471). -/
  | chrysalisVerify (p : PktRef)
  /-- CHRYSALIS_LOAD (R471). -/
  | chrysalisLoad (p : PktRef)
  /-- DIGEST_RING (R465). -/
  | digestRing (p : PktRef)
  /-- DIGEST_REGION (R460). -/
  | digestRegion (p : PktRef)
  /-- POWER_QUERY (R522). -/
  | powerQuery (p : PktRef)
  /-- POWER_LIMIT (R522). -/
  | powerLimit (p : PktRef)
  /-- REPAIR_QUERY (R538). -/
  | repairQuery (p : PktRef)
  /-- REPAIR_APPLY (R538). -/
  | repairApply (p : PktRef)
  /-- REPAIR_FUSE_REVOKE (R538). -/
  | repairFuseRevoke (p : PktRef)
  /-- REPAIR_FUSE_ROLLBACK (R538). -/
  | repairFuseRollback (p : PktRef)
  /-- EYESPOT_CONFIG (R475). -/
  | eyespotConfig (p : PktRef)
  /-- EYESPOT_READ (R475). -/
  | eyespotRead (p : PktRef)
  /-- EYESPOT_TRIGGER (R477). -/
  | eyespotTrigger (p : PktRef)
  /-- DEBUG_REG (R501). -/
  | debugReg (p : PktRef)
  /-- DEBUG_SERVICE_HOLD (R136). -/
  | debugServiceHold (p : PktRef)
  /-- DEBUG_SERVICE_RELEASE (R136). -/
  | debugServiceRelease (p : PktRef)
  /-- DEBUG_SCRATCH (R174). -/
  | debugScratch (p : PktRef)
  /-- REGISTER_WRITE (R9). -/
  | registerWrite (m : Master) (offset : BitVec 51) (v : BitVec 64)
  /-- INPUT_LOSS (R504). -/
  | inputLoss (inputB : Bool)
  /-- SUPPLY_SWITCH_OVER (R505). -/
  | supplySwitchOver
  /-- PREF_WRITE (R505). -/
  | prefWrite (m : Master) (v : BitVec 64)
  /-- INPUT_RESTORE (R506). -/
  | inputRestore (inputB : Bool)
  /-- POWER_LOSS_RESET (R506). -/
  | powerLossReset
  /-- POWER_ON_RESET (R524). -/
  | powerOnReset (pos cool : BitVec 2)
  /-- OPERATING_POINT_CHANGE (R509). -/
  | operatingPointChange (sec : SectorId)
  /-- DROOP (R511). -/
  | droop (sec : SectorId)
  /-- DROOP_DECAY (R511). -/
  | droopDecay (sec : SectorId)
  /-- THERMAL_CONTROL (R511). -/
  | thermalControl (sec : SectorId) (tj : BitVec 8)
  /-- POWER_CONTROL (R512). -/
  | powerControl (watts : BitVec 16)
  /-- THERMAL_TRIP (R514). -/
  | thermalTrip (sec : SectorId) (tj : BitVec 8)
  /-- CLUSTER_GATE (R516). -/
  | clusterGate (cl : ClusterId)
  /-- CLUSTER_UNGATE (R516). -/
  | clusterUngate (cl : ClusterId)
  /-- SECTOR_SLEEP (R517). -/
  | sectorSleep (sec : SectorId)
  /-- SECTOR_WAKE (R518). -/
  | sectorWake (sec : SectorId)
  /-- BOOT_STAGE_END (R524). -/
  | bootStageEnd (r : BootResult)
  /-- CORE_RESET (R526). -/
  | coreReset (c : CoreId)
  /-- REGULATOR_PHASE_FAIL (R531). -/
  | regulatorPhaseFail (rail phase : BitVec 8)
  /-- AGEING_SCAN (R539). -/
  | ageingScan (cl : ClusterId) (margin : BitVec 8) (pair : BitVec 6)
  /-- MANAGEMENT_PAIR_FAILURE (R540). -/
  | managementPairFailure (lockstep : Bool)
  /-- SPARE_PAIR_READY (R541). -/
  | sparePairReady
  /-- COCOON_TAKEOVER (R542). -/
  | cocoonTakeover
  /-- SMBUS_READ_BOOT (R543). -/
  | smbusReadBoot
  /-- SMBUS_READ_STATE (R543). -/
  | smbusReadState
  /-- SMBUS_COLD_RESET (R543). -/
  | smbusColdReset (value : Byte)
  /-- JTAG_BYPASS (R570). -/
  | jtagBypass
  /-- JTAG_IDCODE (R570). -/
  | jtagIdcode
  /-- JTAG_SAMPLE_PRELOAD (R570). -/
  | jtagSamplePreload
  /-- JTAG_EXTEST (R570). -/
  | jtagExtest
  /-- THERMAL_TRIP_RECOVERY (R574). -/
  | thermalTripRecovery (tjMax : BitVec 8)
  /-- REFERENCE_CLOCK_LOSS (R563). -/
  | referenceClockLoss
  /-- REFERENCE_CLOCK_RETURN (R563). -/
  | referenceClockReturn
  /-- APPLICATION_CORE_ACCESS (R354). -/
  | applicationCoreAccess (a : AppId) (x : AppAccess)
  /-- REPAIR_TRIGGER (R530). -/
  | repairTrigger (kind : Byte) (location : BitVec 32)
  /-- CHRYSALIS_SHIP_END (R470). -/
  | chrysalisShipEnd (area : BitVec 48) (status : ShipResult)
  deriving DecidableEq, Repr

end Sys2Proof
end

