-- ==== Sys2Proof/Decode.lean ====
section
/-! DEFINITION. The block has no instruction encoding of its own: no row of spec/opcode_table.json gives bits, so no word spells
a command. -/
namespace Sys2Proof

/-- The command that a word spells by the bits of the opcode table: none. -/
def decodeTableWord (_nbits _w : Nat) : Option Instr := none

end Sys2Proof
end

