-- ==== Sys2Proof/Machine/Bits.lean ====
section
/-! DEFINITION. Byte order (R4), bit fields and the keyed tables that hold the units of which a chip has many. A table is a
list of (key, value) pairs with rising keys; a key that is not listed stands for a unit in its reset state. -/
namespace Sys2Proof

/-- The low `n` bytes of `v`, least significant first (R4). -/
def leBytes : Nat → Nat → List Byte
  | 0, _ => []
  | n + 1, v => BitVec.ofNat 8 v :: leBytes n (v / 256)

/-- The value of bytes in increasing address order (R4). -/
def ofLe : List Byte → Nat
  | [] => 0
  | b :: bs => b.toNat + 256 * ofLe bs

/-- The low `n` bytes of `v`, most significant first. -/
def beBytes (n v : Nat) : List Byte := (leBytes n v).reverse

/-- The value of bytes, most significant first. -/
def ofBe (bs : List Byte) : Nat := ofLe bs.reverse

/-- Bits [lo + n - 1 : lo] of `v`. -/
def bits (v lo n : Nat) : Nat := (v >>> lo) % 2 ^ n

/-- Bit `i` of `v`. -/
def bitAt (v i : Nat) : Bool := (v >>> i) % 2 == 1

/-- `x` as a bit. -/
def b2n (x : Bool) : Nat := if x then 1 else 0

/-- Bytes `off` to `off + n - 1` of a record; bytes beyond its end read zero. -/
def slice (bs : List Byte) (off n : Nat) : List Byte :=
  let t := (bs.drop off).take n
  t ++ List.replicate (n - t.length) 0

/-- The little-endian field of `n` bytes at `off` of a record (R4). -/
def fieldLe (bs : List Byte) (off n : Nat) : Nat := ofLe (slice bs off n)

/-- Bytes of a record are all zero. -/
def zeroBytes (bs : List Byte) (off n : Nat) : Bool := (slice bs off n).all (· == 0)

/-- A two's complement reading of the low `n` bits of `v`. -/
def signedOf (n v : Nat) : Int :=
  let m := v % 2 ^ n
  if n ≠ 0 ∧ 2 ^ (n - 1) ≤ m then (m : Int) - (2 ^ n : Nat) else m

/-- The low `n` bits of an integer in two's complement. -/
def ofSigned (n : Nat) (x : Int) : Nat := (x % ((2 ^ n : Nat) : Int)).toNat

/-- Ceiling of a quotient. -/
def ceilDiv (a b : Nat) : Nat := (a + b - 1) / b

/-- Add with saturation at all ones of `n` bits (R547). -/
def satAdd (n a b : Nat) : Nat := min (a + b) (2 ^ n - 1)

/-- A saturating event counter gains `k` (R547). -/
def satInc {n : Nat} (c : BitVec n) (k : Nat) : BitVec n := BitVec.ofNat n (satAdd n c.toNat k)

/-- The value at `i` of a list, or `d` beyond its end. -/
def nth {α : Type} (d : α) (l : List α) (i : Nat) : α := (l[i]?).getD d

/-- Replace position `i` of a list. -/
def setNth {α : Type} (l : List α) (i : Nat) (x : α) : List α := l.set i x

/-- Change position `i` of a list. -/
def modNth {α : Type} (l : List α) (i : Nat) (f : α → α) : List α :=
  match l[i]? with
  | some x => l.set i (f x)
  | none => l

/-- The value a table holds under key `k`. -/
def tblFind {β : Type} : Tbl β → Nat → Option β
  | [], _ => none
  | (j, v) :: t, k => if j = k then some v else tblFind t k

/-- The value under key `k`, with the reset value of an unlisted unit. -/
def tblGet {β : Type} (d : β) (t : Tbl β) (k : Nat) : β := (tblFind t k).getD d

/-- Write the value of key `k`, keeping keys rising. -/
def tblSet {β : Type} : Tbl β → Nat → β → Tbl β
  | [], k, v => [(k, v)]
  | (j, w) :: t, k, v =>
    if j = k then (k, v) :: t else if k < j then (k, v) :: (j, w) :: t else (j, w) :: tblSet t k v

/-- Drop key `k`. -/
def tblErase {β : Type} (t : Tbl β) (k : Nat) : Tbl β := t.filter (fun p => p.1 ≠ k)

/-- Change the value of key `k`, which starts from the reset value `d`. -/
def tblMod {β : Type} (d : β) (t : Tbl β) (k : Nat) (f : β → β) : Tbl β := tblSet t k (f (tblGet d t k))

/-- Change every listed value. -/
def tblMap {β : Type} (t : Tbl β) (f : Nat → β → β) : Tbl β := t.map (fun p => (p.1, f p.1 p.2))

/-- Insert `x` where a list sorted by `le` keeps its order; among equals it goes last. -/
def insertBy {α : Type} (le : α → α → Bool) (x : α) : List α → List α
  | [] => [x]
  | y :: ys => if le y x then y :: insertBy le x ys else x :: y :: ys

/-- A stable sort. -/
def sortBy {α : Type} (le : α → α → Bool) : List α → List α
  | [] => []
  | x :: xs => insertFront le x (sortBy le xs)
where
  insertFront (le : α → α → Bool) (x : α) : List α → List α
    | [] => [x]
    | y :: ys => if le x y then x :: y :: ys else y :: insertFront le x ys

/-- No element stands twice. -/
def distinct {α : Type} [BEq α] : List α → Bool
  | [] => true
  | x :: xs => !(xs.contains x) && distinct xs

/-- Ranges [a, a + n) and [b, b + m) share a position. -/
def overlap (a n b m : Nat) : Bool := n ≠ 0 && m ≠ 0 && a < b + m && b < a + n

/-- A power of two from 2^lo to 2^hi. -/
def powTwoIn (v lo hi : Nat) : Bool := (List.range (hi - lo + 1)).any (fun k => v == 2 ^ (lo + k))

end Sys2Proof
end

