-- ==== Sys2Proof/Machine/StateEye.lean ====
section
/-! DEFINITION. The eyespot units (chapter 19). -/
namespace Sys2Proof

/-- A stamp (Table 19.1): time in 1/64 ns, edge, gap, source, time state, data. -/
structure Stamp where
  time : Nat
  edge : Bool := false
  gap : Bool := false
  source : Byte
  e : BitVec 12
  state : BitVec 2
  data : W32
  deriving DecidableEq, Repr

/-- A unit (R474 to R478, Tables 19.4 and 19.5): registers, queue, buffer, the gap and the trigger that wait, and its spill ring
(Table 20.6). -/
structure Eye where
  ctl : W64 := 0
  src : W64 := 0
  lost : W16 := 0
  frozen : Bool := false
  freeze : W64 := BitVec.allOnes 64
  queue : List Stamp := []
  buf : List Stamp := []
  gap : Bool := false
  fired : Bool := false
  stopped : Bool := false
  spillBase : W64 := 0
  spillRecords : W32 := 0
  deriving DecidableEq, Repr

/-- EYE_PINn (Table 19.5), with the time of the pin's last edge (R476). -/
structure EyePin where
  delay : W16 := 0
  polarity : BitVec 2 := 0
  enable : BitVec 2 := 0
  last : Option Nat := none
  deriving DecidableEq, Repr

/-- The units of the eight dies and the four pins. -/
structure EyeState where
  units : List Eye := List.replicate 8 {}
  pins : List EyePin := List.replicate 4 {}
  deriving DecidableEq, Repr

end Sys2Proof
end

