-- ==== Sys2Proof/Machine/StateFabric.lean ====
section
/-! DEFINITION. The Myeth ports with their schedule banks, buffers and registers (chapter 16), and the collective groups with their
operations, open steps and sealed channels (chapter 17). -/
namespace Sys2Proof

/-! ### Ports -/

/-- A schedule entry (Table 16.4). -/
structure SchedEntry where
  slot : SlotNo
  op : BitVec 4
  group : GroupId
  context : W32
  outSlot : SlotNo
  outPort : PortId
  plog : BitVec 3
  sealed : Bool
  phase : BitVec 7
  deriving DecidableEq, Repr

/-- A schedule bank (R405, R408): both tables, and whether they are fully loaded. -/
structure Bank where
  tx : List SchedEntry := []
  rx : List SchedEntry := []
  ready : Bool := false
  deriving DecidableEq, Repr

/-- A load in progress (R407, R408): the bank that it fills and its two tables. -/
structure SchedLoad where
  bank : Bool
  tx : List SchedEntry
  rx : List SchedEntry
  deriving DecidableEq, Repr

/-- What a forwarder sends out (R412, R414): output frame and slot, and the flit, or kind 2 when there is none whole. -/
structure Forward where
  frame : Nat
  slot : Nat
  flit : Option Flit
  deriving DecidableEq, Repr

/-- A flit that a port sent in a scheduled slot (R417). -/
structure SentFlit where
  frame : Nat
  slot : Nat
  flit : Flit
  deriving DecidableEq, Repr

/-- A scheduled receive slot whose flit is missing (R416, R418): requested or not yet. -/
structure Damage where
  frame : Nat
  slot : Nat
  requested : Bool := false
  deriving DecidableEq, Repr

/-- Flits of a chunk that has not arrived whole, by receive entry. -/
structure Part where
  entry : SchedEntry
  chunk : W32
  count : Nat
  flits : List (Nat × Flit)
  deriving DecidableEq, Repr

/-- Classes of waiting open messages, in the order of R421. -/
inductive OpenClass where
  | transit
  | trigger
  | sealed
  | manager
  | cocoon
  deriving DecidableEq, Repr

/-- A message that waits for an open slot (R421), with the packet of a `hall.send` that it completes (R503). -/
structure OpenMsg where
  cls : OpenClass
  flit : Flit
  since : Nat
  sender : Option (RingId × W32) := none
  deriving DecidableEq, Repr

/-- A lane swap of a direction (R399): its lane and the frame in which it was requested. -/
structure LaneSwap where
  lane : BitVec 2
  frame : Nat
  sent : Bool := false
  deriving DecidableEq, Repr

/-- A Myeth port: FAB_PORTn_STATUS and FAB_ERRn (Tables 16.6 and 16.7), its banks, whether the active one and the one before it are
taken as empty (R409) and the frame of the last swap, the loads and the swap that wait, the buffers of
R412 to R418, its waiting open messages, and the flit that it last drove with its frame and slot. -/
structure Port where
  link : BitVec 2 := 0
  partner : BitVec 20 := 0
  retired : BitVec 3 := 7
  txRetired : BitVec 3 := 7
  swapEmpty : Bool := false
  bank : Bool := false
  empty : Bool := false
  wasEmpty : Bool := false
  swapFrame : Nat := 0
  missed : BitVec 2 := 0
  absent : Bool := false
  bank0 : Bank := {}
  bank1 : Bank := {}
  loads : List SchedLoad := []
  armed : Option W64 := none
  fec : Byte := 0
  lcrc : Byte := 0
  lost : Byte := 0
  unsched : Byte := 0
  collide : Byte := 0
  ptp : Byte := 0
  e2e : Byte := 0
  openDrop : Byte := 0
  forwards : List Forward := []
  replay : List SentFlit := []
  repairs : List Flit := []
  damaged : List Damage := []
  parts : List Part := []
  rxSwap : Option LaneSwap := none
  txSwap : Option LaneSwap := none
  waiting : List OpenMsg := []
  wire : Option (Nat × Nat × Flit) := none
  deriving DecidableEq, Repr

/-- The fabric of the chip: ports, the open route table's address (R420), floods seen in the last 64 frames, and the CHUNK of the next
open message that the chip sends. -/
structure Fabric where
  ports : Tbl Port := []
  routes : Nat := 0
  seen : List (W32 × W32 × Nat) := []
  chunk : W32 := 0
  deriving DecidableEq, Repr

/-! ### Groups -/

/-- A segment (Table 17.5). -/
structure Segment where
  source : Nat
  result : Nat
  staging : Nat
  deferral : Nat
  elems : Nat
  tag : W16
  norm : Bool
  control : Nat
  deriving DecidableEq, Repr

/-- A lane of a reduction (R430): FP32 bits, an exact sum register (R82), or an unsigned integer. -/
inductive Lane where
  | f32 (x : W32)
  | sum (r : ExactRec)
  | int (n : Nat)
  deriving DecidableEq, Repr

/-- Where a chunk stands: leg, segment, shard (or block), first element, elements, and its number within the shard (R433, R437). -/
structure ChunkUnit where
  res : Bool
  seg : Nat
  shard : Nat
  first : Nat
  elems : Nat
  index : Nat
  deriving DecidableEq, Repr

/-- A running sum: its place, contributions summed, those deferred, whether it was restarted (R441), and its lanes; plain bytes for
kinds 3 to 7 and result legs. -/
structure RunSum where
  u : ChunkUnit
  count : Nat
  deferred : Nat
  restarted : Bool
  lanes : List Lane
  deriving DecidableEq, Repr

/-- A formed chunk in a context's queue: number, flits, how many have been sent; a sealed one stays until it is acknowledged
(R424). -/
structure OutChunk where
  number : W32
  engine : Nat
  flits : List Flit
  sent : Nat := 0
  deriving DecidableEq, Repr

/-- A segment in an open step (R432, R438): its contribution's elements once read, the
deferred elements added beside them, whether it is settled (ready, withheld or absent at H),
late, the elements of its result written, its status. -/
structure SegRun where
  vals : Option (List Nat) := none
  extra : Option (List Nat) := none
  settled : Bool := false
  late : Bool := false
  taken : Bool := false
  written : Nat := 0
  done : Bool := false
  status : W16 := 0
  deriving DecidableEq, Repr

/-- An open step (R438): its number, D and, once decided, whether this chip withholds; its segments; chunks received that wait for
the chip's own contribution; units received; the sums of the direct form with the arrivals of each; H, D and X passed; the smallest
count and the largest deferred count of its result chunks. -/
structure OpenStep where
  step : BitVec 48
  deadline : Nat
  withheld : Option Bool := none
  segs : List SegRun
  held : List RunSum := []
  got : List ChunkUnit := []
  sums : List (RunSum × Nat) := []
  passedH : Bool := false
  passedD : Bool := false
  passedX : Bool := false
  ended : Bool := false
  minCount : Option Nat := none
  maxDeferred : Nat := 0
  guarded : Bool := false
  deriving DecidableEq, Repr

/-- A late contribution of a segment (R439): the step that it belongs to, its elements once it is ready, and whether it is dropped. -/
structure Deferred where
  step : BitVec 48
  vals : Option (List Nat) := none
  drop : Bool := false
  deriving DecidableEq, Repr

/-- A registered operation (Table 17.4), its engine contexts, its next step, the step that is open, the chunks that wait to be sent,
what is deferred by segment, contributions of the direct form that came after D (R439), and chunks of the next step. -/
structure CollOp where
  kind : Nat
  operator : Nat
  direct : Bool
  srcFmt : BitVec 4
  resFmt : BitVec 4
  mean : Bool
  sat : Bool
  guarded : Bool
  root : Nat
  contexts : List (BitVec 6 × Byte)
  segs : List Segment
  margin : Nat
  deadlines : Nat
  perm : List (Nat × Nat × Nat × Nat)
  step : BitVec 48
  cur : Option OpenStep := none
  queue : List OutChunk := []
  next : W32 := 0
  deferred : Tbl Deferred := []
  carried : List RunSum := []
  early : List (PortId × List Byte) := []
  deriving DecidableEq, Repr

/-- A guard record as `tenant.guard` names it (R272): address, policy, limit, and a later naming that takes
effect at the next record. -/
structure Guard where
  addr : Nat
  clip : Bool
  limit : W32
  next : Option (Nat × Bool × W32) := none
  deriving DecidableEq, Repr

/-- A group definition (Table 17.1) with its operation and the latched fields of COL_GSTATn (Table 17.11), the mode that its next step
opens in once a mode change has committed (Table 18.2), and whether the chip withheld in the last step in which that was decided
(R241). -/
structure Group where
  tenant : TenantId
  rank : Nat
  members : List (BitVec 20)
  arrival : Bool
  drop : Bool
  sumExp : Byte
  weight : Byte
  ledger : Nat
  ledgerSize : Nat
  limit : Nat
  op : Option CollOp := none
  guard : Option Guard := none
  exact : Bool := false
  desync : Bool := false
  step : W32 := 0
  last : W16 := 0
  withheld : Bool := false
  late : Bool := false
  lost : Bool := false
  staged : Option Bool := none
  lastWithheld : Bool := false
  deriving DecidableEq, Repr

/-- A sealed channel (R423, R424): chunks sent and not acknowledged, chunks accepted since the last
acknowledgement, and the acknowledgements and resend requests that have arrived (the flag marks a resend). -/
structure Channel where
  unacked : List OutChunk := []
  accepted : List W32 := []
  inbox : List (W32 × Bool) := []
  deriving DecidableEq, Repr

/-- The collective engines: groups, sealed channels, and pre-emptions held until step boundaries with the groups they wait for
(R446). -/
structure Coll where
  groups : Tbl Group := []
  channels : Tbl Channel := []
  heldPreempts : List (CoreId × List GroupId) := []
  deriving DecidableEq, Repr

end Sys2Proof
end

