-- ==== Sys2Proof/Machine/Mem.lean ====
section
/-! DEFINITION. Byte memories: a list of (address, byte) pairs with rising addresses and no zero entry. An address that is not
listed reads as zero (log 4). Device memory and scratchpads are both of this kind. -/
namespace Sys2Proof

abbrev Memory := List Host.Cell

/-- The canonical form: addresses strictly rise and no entry is zero. -/
def Memory.wfFrom : Nat → Memory → Bool
  | _, [] => true
  | lo, (a, b) :: m => decide (lo ≤ a) && b != 0 && Memory.wfFrom (a + 1) m

def Memory.wf (m : Memory) : Bool := Memory.wfFrom 0 m

/-- The byte at an address. -/
def Memory.get : Memory → Nat → Byte
  | [], _ => 0
  | (j, b) :: m, a => if j = a then b else Memory.get m a

/-- Put an entry in its place among rising addresses. -/
def Memory.insert : Memory → Nat → Byte → Memory
  | [], a, v => [(a, v)]
  | (j, b) :: m, a, v => if a < j then (a, v) :: (j, b) :: m else (j, b) :: Memory.insert m a v

/-- Write one byte. -/
def Memory.set (m : Memory) (a : Nat) (v : Byte) : Memory :=
  let rest : Memory := m.filter (fun c => c.1 != a)
  if v = 0 then rest else rest.insert a v

/-- `n` bytes from an address. -/
def Memory.read (m : Memory) (a n : Nat) : List Byte := (List.range n).map (fun i => m.get (a + i))

/-- Write bytes from an address on. -/
def Memory.write : Memory → Nat → List Byte → Memory
  | m, _, [] => m
  | m, a, b :: bs => Memory.write (m.set a b) (a + 1) bs

/-- Little-endian value of `n` bytes (R4). -/
def Memory.readLe (m : Memory) (a n : Nat) : Nat := ofLe (m.read a n)

/-- Write the low `n` bytes of a value, least significant first (R4). -/
def Memory.writeLe (m : Memory) (a n v : Nat) : Memory := m.write a (leBytes n v)

/-- Zero `n` bytes. -/
def Memory.zero (m : Memory) (a n : Nat) : Memory := m.filter (fun c => !(decide (a ≤ c.1) && decide (c.1 < a + n)))

/-- Copy `n` bytes from `src` to `dst`, as read before the copy. -/
def Memory.copy (m : Memory) (src dst n : Nat) : Memory := m.write dst (m.read src n)

end Sys2Proof
end

