-- ==== Sys2Proof/Machine/Value.lean ====
section
/-! DEFINITION. The values that the number formats spell (R37, R38): the exact value of an element, and the formats by name. -/
namespace Sys2Proof

/-- The value of an element: a NaN with its sign, signalling or quiet (R40), an infinity, or the finite number
(-1)^neg · m · 2^e. -/
inductive FVal where
  | nan (neg : Bool) (signalling : Bool)
  | inf (neg : Bool)
  | fin (neg : Bool) (m : Nat) (e : Int)
  deriving DecidableEq, Repr

/-- The formats of Table 02.1. -/
inductive Fmt where
  | fp32
  | bf16
  | fp16
  | e4m3
  | e5m2
  | mxfp6
  | mxfp4
  | int8
  | int4
  deriving DecidableEq, Repr

/-- A rounding mode with its draw (R45, R46). -/
inductive Rnd where
  | rn
  | sr (draw : Nat)
  deriving DecidableEq, Repr

/-- Functions of Table 05.3 whose value the spec bounds and does not state (R126, R127). -/
inductive FuncId where
  | exp2
  | exp
  | log2
  | log
  | rcp
  | rsqrt
  | erf
  | tanh
  | sigm
  | silu
  | gelu
  deriving DecidableEq, Repr

end Sys2Proof
end

