-- ==== Sys2Proof/Machine/StateCore.lean ====
section
/-! DEFINITION. The state of one core: scalar registers, array with its two accumulator sets, pass queue and drain path,
vector engine, norm slots, handles, status words (chapters 03 to 07 and 11). -/
namespace Sys2Proof

/-- The 16 scalar registers (R144). -/
abbrev Regs := Vector W32 16

/-- One cell's part of an accumulator set: W (R55), or FP32 bits in the low 32 bits on the FP32 path (R67), the special flags
(R63) and the swap draw handed to the drain (R70). -/
structure CellSet where
  w : BitVec 48 := 0
  nan : Bool := false
  pinf : Bool := false
  ninf : Bool := false
  draw : BitVec 16 := 0
  deriving DecidableEq, Repr

/-- A restart latch (R65, R577): the active set and the generator as the cell began a pass. -/
structure Latch where
  inB : Bool
  set : CellSet
  lfsr : BitVec 64
  deriving DecidableEq, Repr

/-- A cell: its two sets, the active one, its generator, the pass of the pass list it is at, the products it has entered in it,
whether a swap waits (R72), and a latch for each pass it has begun (R577). -/
structure Cell where
  a : CellSet := {}
  b : CellSet := {}
  inB : Bool := false
  lfsr : BitVec 64 := 1
  pos : Nat := 0
  k : Nat := 0
  waits : Bool := false
  latches : List Latch := []
  deriving DecidableEq, Repr

/-- What the 16 cells of a set share: anchor (R56), tile status (Table 03.7), repeat total (R65), shape and kind (R152), the
protective copy it holds (R81), its micro-batch (R111). `bad` marks a tile that an array fault leaves undrained (R163), and
`restored` one that has been restored from its copy (R536). -/
structure TileInfo where
  live : Bool := false
  anchor : BitVec 10 := 0
  fixed : Bool := false
  ovf : Bool := false
  fb : Bool := false
  rep : BitVec 2 := 0
  special : Bool := false
  repTotal : BitVec 16 := 0
  wide : Bool := false
  accThrough : Bool := false
  int : Bool := false
  t4Order : Bool := false
  copy : Option (BitVec 12) := none
  mb : BitVec 32 := 0
  bad : Bool := false
  restored : Bool := false
  deriving DecidableEq, Repr

/-- The tile that is open in program order (R152). -/
structure OpenTile where
  wide : Bool
  accThrough : Bool
  int : Bool
  deriving DecidableEq, Repr

/-- A matrix instruction of the pass list (R91, R154): its word and register values at issue (Table 06.17), its drain record
when it closes the tile, the set of its tile, whether it opened the tile; whether it has reached its first product cycle, the
overflows and the parity error seen in it, and whether its protective copy has been written. `op` 4 is `MCLOSE`. -/
structure Pass where
  op : BitVec 3
  w : Fields
  dv : W32
  av : W32
  bv : W32
  cv : W32
  mv : W32
  drec : List Byte := []
  closes : Bool := false
  opens : Bool := false
  setB : Bool := false
  index : BitVec 11 := 0
  started : Bool := false
  overflows : BitVec 3 := 0
  parity : Bool := false
  copied : Bool := false
  deriving DecidableEq, Repr

/-- Why an attempt is discarded (R65, R113, R110). -/
inductive DiscardKind where
  | overflow
  | parity
  | preempt
  deriving DecidableEq, Repr

/-- A pending restart (R577): the pass of the list that restarts, and whether every cell stands at its restored latch. -/
structure Restart where
  pass : Nat
  kind : DiscardKind
  settled : Bool
  deriving DecidableEq, Repr

/-- A value in the drain pipeline (R77): cell number, raw set contents. -/
structure DrainVal where
  cell : Nat
  set : CellSet
  deriving DecidableEq, Repr

/-- A finished set on its way out (R72): rows read per column, values in the pipeline, values delivered, whether it has reserved
its queue entry (R133), and the values with their draws that step 5 has gathered for an MX tile (R576). -/
structure Drain where
  setB : Bool
  info : TileInfo
  drec : List Byte
  index : BitVec 11
  rows : List Nat := [0, 0, 0, 0]
  pipe : List DrainVal := []
  gather : Tbl (FVal × BitVec 16) := []
  done : Nat := 0
  reserved : Bool := false
  deriving DecidableEq, Repr

/-- A tile queue entry (R132): 16 encodings, scale byte, format code, tile status, shape; visible after its 16th value
(R133). -/
structure TqEntry where
  vals : List W32
  scale : Byte := 0
  fmt : BitVec 4
  status : W16
  wide : Bool
  visible : Bool
  deriving DecidableEq, Repr

/-- A norm slot (Table 03.6) with the tag it is bound to (R157). -/
structure NormSlot where
  sumsq : BitVec 128 := 0
  sat : Bool := false
  nonfinite : W32 := 0
  maxmag : W32 := 0
  repeats : W32 := 0
  fallbacks : W32 := 0
  tag : W16 := 0
  bound : Bool := false
  deriving DecidableEq, Repr

/-- The array of a core (chapters 03 and 04): 16 cells by number 4 × row + column, the tile of each set, the passes that have
not ended with the oldest first, the drains, and the program-order view that issue checks (R152). -/
structure ArrayState where
  cells : List Cell
  infoA : TileInfo := {}
  infoB : TileInfo := {}
  passes : List Pass := []
  restart : Option Restart := none
  drains : List Drain := []
  openTile : Option OpenTile := none
  nextB : Bool := false
  deriving DecidableEq, Repr

/-- The array after core reset: generators at 1 (R69). -/
def ArrayState.init : ArrayState := { cells := List.replicate 16 {} }

/-- What the scheduler latches for a restore (R536): instruction index, registers, lane generators, norm slots. -/
structure RestorePoint where
  index : BitVec 11 := 0
  regs : Regs := Vector.replicate 16 0
  lanes : List W64 := []
  norms : List NormSlot := []
  deriving DecidableEq, Repr

/-- The phase of a core (R105); `requested` carries the order of its request for admission (R106). -/
inductive CorePhase where
  | compute
  | requested (order : Nat)
  | transfer
  deriving DecidableEq, Repr

/-- Where a held global access stands (R160, R196, R361, R372): its translation, the home, or its return. -/
inductive AccessStage where
  | translate
  | walking
  | faulted
  | memory
  | home
  | value (v : W32)
  deriving DecidableEq, Repr

/-- Kinds of global access of a core (Table 06.11). -/
inductive AccessKind where
  | load
  | store
  | amo (op : BitVec 4)
  deriving DecidableEq, Repr

/-- A global access that holds its core (R160): kind, destination register, virtual and physical address, operands, stage, the
instruction index of its exception, whether it allocates in the cluster cache (Table 07.2), the time of its walk's failure
(R345), its bandwidth class (R321), and the order of its fill request (R363). -/
structure Access where
  kind : AccessKind
  d : BitVec 4
  va : BitVec 48
  pa : BitVec 52 := 0
  data : W32
  cmp : W32
  stage : AccessStage
  index : BitVec 11
  noAlloc : Bool := false
  since : Nat := 0
  poisoned : Bool := false
  cls : BitVec 2 := 0
  reqSeq : Nat := 0
  deriving DecidableEq, Repr

/-- What a core waits for after issue: a global access, an instant of HT (R396), a barrier entry and whether it has been
released since (R395), a fence (R363), a
`FENCE.SC` with the masters that its drain requests have reached and those that have acknowledged (R364), a descriptor walk
(R139). -/
inductive Hold where
  | none
  | access (a : Access)
  | waitht (t : W64)
  | barw (e : BitVec 12) (freed : Bool)
  | fence
  | fenceSc (arrived acked : List DrainMaster)
  | walk (descriptor : BitVec 12)
  deriving DecidableEq, Repr

/-- Pre-emption of a core (R110, R166). -/
inductive PreemptState where
  | none
  | requested
  | saved
  deriving DecidableEq, Repr

/-- One core. -/
structure Core where
  regs : Regs := Vector.replicate 16 0
  pc : BitVec 11 := 0
  scratch : Memory := []
  arr : ArrayState := ArrayState.init
  lanes : List W64 := List.replicate 16 1
  tq : List TqEntry := []
  norms : List NormSlot := List.replicate 4 {}
  handles : List (BitVec 512) := List.replicate 16 0
  cvt : BitVec 4 := 0
  excIndex : BitVec 11 := 0
  excCode : Byte := 0
  excCause : Byte := 0
  repeats : W32 := 0
  fallbacks : W32 := 0
  restores : W16 := 0
  restarts : W16 := 0
  cycles : W64 := 0
  cycleHi : W32 := 0
  htHi : W32 := 0
  exact : Bool := false
  service : Bool := false
  halted : Bool := false
  outOfService : Bool := false
  phase : CorePhase := .compute
  job : Option JobId := none
  tenant : Option TenantId := none
  fenceSeq : Nat := 0
  running : Bool := false
  item : BitVec 32 := 0
  hold : Hold := .none
  xferStatus : BitVec 16 := 0
  flushes : List NormSlot := []
  latch : RestorePoint := {}
  restorePoint : Option RestorePoint := none
  restorePend : Bool := false
  failed : Bool := false
  preempt : PreemptState := .none
  deriving DecidableEq, Repr

end Sys2Proof
end

