-- ==== Sys2Proof/Machine/StateMem.lean ====
section
/-! DEFINITION. The state of a cluster outside its cores (chapters 07 and 14), of the memory tiers and their controllers
(chapter 12), of translation (chapter 13), and of tenants. -/
namespace Sys2Proof

/-! ### Clusters -/

/-- The instructions that open a stream (R180). -/
inductive XferKind where
  | plain
  | win
  | fill
  | copy
  | multicast
  deriving DecidableEq, Repr

/-- Where a stream stands (R191, R193): a hardware context, or the spill area. -/
inductive Place where
  | hw (context : BitVec 4)
  | spilled
  deriving DecidableEq, Repr

/-- A stream runs, waits for a walk, walks, is parked by a fault (R196), by pre-emption (R199), or has ended with a status. -/
inductive StreamState where
  | running
  | translate (va : BitVec 48) (write : Bool)
  | walking (va : BitVec 48) (write : Bool)
  | parked
  | preempted
  | ended (status : W16)
  deriving DecidableEq, Repr

/-- A stream (R180 to R200): its core, descriptor and handles as they stood at the opening, the lines delivered, its place, the
order of its opening, the fence it obeys (R366), what it has moved in its turn of context 15 (R193), whether it has met poison
(R324), the pages of its line whose walks were refused, whether markers (R198) and a completion word (R185) wait for the core's transfer phase, and its part in a multicast
(R190): the bytes a sender has read, the receivers that have ended, been matched or been missed. -/
structure Stream where
  serial : BitVec 16
  core : CoreId
  tenant : TenantId
  kind : XferKind
  desc : List Byte
  src : BitVec 512
  dst : BitVec 512
  lines : Nat := 0
  place : Place
  st : StreamState := .running
  order : Nat
  fenceSeq : Nat
  turn : Nat := 0
  poisoned : Bool := false
  badPages : List (BitVec 36) := []
  detached : Bool := false
  since : Nat := 0
  opened : Nat := 0
  wordDue : Bool := false
  markDue : Bool := false
  spilledOpen : Bool := false
  buf : List Byte := []
  sender : Option (Nat × BitVec 16) := none
  matched : List CoreId := []
  endedTargets : List CoreId := []
  missed : Bool := false
  deriving DecidableEq, Repr

/-- An entry of a cluster TLB: one page of any size (R346). -/
structure TlbEntry where
  tenant : TenantId
  va : BitVec 48
  log2 : BitVec 5
  pa : BitVec 52
  r : Bool
  w : Bool
  at' : Bool
  deriving DecidableEq, Repr

/-- A line of the cluster cache (R361), with the order of its fill request (R363). -/
structure CacheLine where
  line : Nat
  data : List Byte
  poisoned : Bool
  seq : Nat
  deriving DecidableEq, Repr

/-- An entry of the write buffer (R360): its line, the bytes written by offset, whose writes it holds, whether it has been sent,
the cores whose `FENCE.SC` marked it (R364), and a hash due of digested chunks. -/
structure WbEntry where
  line : Nat
  bytes : List (Nat × Byte)
  owners : List Requester
  sent : Bool := false
  marks : List CoreId := []
  poison : Bool := false
  deriving DecidableEq, Repr

/-- A cluster: gate (R516), instruction store (R147), streams and serials (R186), order of transfer requests (R106), TLB, cache,
its array as descriptor mode sees it (log 30), write buffer, job, and the contents of REP_CLUSTERn (Table 22.11) with the physical position of each logical core (R23). -/
structure Cluster where
  gated : Bool := false
  store : Memory := []
  streams : List Stream := []
  serial : BitVec 16 := 0
  opened : Nat := 0
  reqOrder : Nat := 0
  tlb : List TlbEntry := []
  cache : List CacheLine := []
  cacheMem : Memory := []
  seq : Nat := 1
  wb : List WbEntry := []
  job : Option JobId := none
  margin : Byte := 0xFF
  worst : BitVec 6 := 0
  working : BitVec 7 := 0x42
  withdrawn : Bool := false
  positions : Tbl (BitVec 7) := []
  failedPos : List (BitVec 7) := []
  deriving DecidableEq, Repr

/-! ### Memory -/

/-- A read that waits at a controller (R322). -/
structure MemReq where
  core : CoreId
  line : Nat
  cls : BitVec 2
  since : Nat
  deriving DecidableEq, Repr

/-- A controller: its queue, oldest first, whether each of its last data cycles served class 0, the class whose turn it is and
the accesses left of the turn (R322); a stack's retired pseudo-channel and its copy (R327). -/
structure MemCtl where
  queue : List MemReq := []
  recent : List Bool := []
  turn : BitVec 2 := 1
  left : BitVec 4 := 0
  deriving DecidableEq, Repr

/-- MEM_ERR_UNIT (Table 12.8). -/
structure MemErr where
  corrected : W32 := 0
  uncorrectable : W16 := 0
  poisonReads : W16 := 0
  deriving DecidableEq, Repr

/-- A stack's spare pseudo-channel (R320, R327): the pseudo-channel that it copies, whether the copy has ended, and whether the
switch has taken effect. -/
structure SparePc where
  pc : BitVec 6
  copied : Bool
  switched : Bool
  deriving DecidableEq, Repr

/-- The memory tiers: bytes, poisoned lines, registers of Tables 07.7, 07.8, 10.1, 12.6 and 12.8 to 12.10, controllers. -/
structure MemState where
  bytes : Memory := []
  poison : List Nat := []
  spillSize : BitVec 5 := 1
  spillBase : BitVec 40 := 0
  spillPeak : BitVec 21 := 0
  spillUse : BitVec 21 := 0
  normBase : BitVec 30 := 0
  normEnable : Bool := false
  qosGuard : Byte := 0x28
  qosCap : BitVec 4 := 8
  qosW3 : BitVec 4 := 1
  qosW2 : BitVec 4 := 4
  qosW1 : BitVec 4 := 8
  unpopulated : W32 := 0
  t3Excess : BitVec 4 := 0
  t2Cap : Byte := 0
  t2Absent : W16 := 0
  t3Cap : List (BitVec 40) := [0, 0, 0, 0]
  errs : Tbl MemErr := []
  ctls : Tbl MemCtl := []
  spares : Tbl SparePc := []
  rowRepairs : Tbl Nat := []
  deriving DecidableEq, Repr

/-! ### Translation -/

/-- A walk in progress (R339): tenant, 4 KiB page, the requests that joined it, the first request's kind, and whether an
invalidation has met it (R347). -/
structure Walk where
  tenant : TenantId
  page : BitVec 36
  reqs : List Requester
  write : Bool
  atomic : Bool
  stale : Bool := false
  deriving DecidableEq, Repr

/-- A die's walker: its walks and its cache of table entries (Table 13.5), most recent first. -/
structure Walker where
  walks : List Walk := []
  cache : List (TenantId × Nat × W64) := []
  deriving DecidableEq, Repr

/-- Ownership map configuration (Table 13.3) and XLT_VIOL (Table 13.11). -/
structure XltState where
  ownBase : BitVec 40 := 0
  ownEnable : Bool := false
  lastTenant : TenantId := 0
  lastKind : BitVec 4 := 0
  violations : W32 := 0
  walkers : Tbl Walker := []
  deriving DecidableEq, Repr

/-- An outstanding fault record (R344): serial, page, cause, what joined it. -/
structure OpenFault where
  serial : W32
  page : BitVec 36
  cause : W16
  reqs : List Requester
  deriving DecidableEq, Repr

/-- A bound tenant (Tables 13.9 and 20.7): its items, quota used per tier in granules, violation count (R355), fault serial and
outstanding records, notifications raised (R343, R538). -/
structure Tenant where
  quads : List Nat
  root : Nat
  ring : Nat
  ringSize : Nat
  quotas : List Nat
  used : List Nat := [0, 0, 0]
  normFirst : W16
  normCount : W16
  class0 : Bool
  parkLimit : Nat
  notifKind : BitVec 2
  notifId : W16
  notifPort : BitVec 2
  notifFn : W16
  apps : List AppId
  onApps : Bool
  peerMac : BitVec 48
  peerUdp : W16
  supers : List Nat := []
  violations : W32 := 0
  serial : W32 := 1
  faults : List OpenFault := []
  notices : Nat := 0
  deriving DecidableEq, Repr

end Sys2Proof
end

