-- ==== Sys2Proof/Machine/StateCmd.lean ====
section
/-! DEFINITION. Rings, class queues and the device's configuration (chapter 20); jobs and their programs (chapter 06). -/
namespace Sys2Proof

/-- A ring pair (Tables 20.1 and 20.2), with the replies that wait for a slot (R484, log 33). -/
structure Ring where
  cbase : BitVec 45 := 0
  clog : BitVec 4 := 0
  enabled : Bool := false
  rbase : BitVec 45 := 0
  rlog : BitVec 4 := 0
  tail : W32 := 0
  head : W32 := 0
  rtail : W32 := 0
  rhead : W32 := 0
  dropped : W32 := 0
  unsent : List (List Byte) := []
  overrun : Bool := false
  deriving DecidableEq, Repr

/-- Queue classes (Table 20.5). -/
inductive QClass where
  | c
  | q0
  | q1
  | q2
  | q3
  deriving DecidableEq, Repr

/-- A packet that firmware has read: ring, index, bytes, class, when it was queued, whether it has aged (R489), whether it is
held back by its ordered flag (R491), and the peer to which its reply returns (R485). -/
structure Pkt where
  ring : RingId
  index : W32
  bytes : List Byte
  cls : QClass
  since : Nat
  aged : Bool := false
  blocked : Bool := false
  peer : Option (BitVec 48 × W16) := none
  deriving DecidableEq, Repr

/-- A packet placed by a datagram, with the peer of its reply (R485). -/
structure NetPkt where
  ring : RingId
  index : W32
  mac : BitVec 48
  udp : W16
  deriving DecidableEq, Repr

/-- A `memory.inval` that waits (R347): its packet, and the accesses and buffered writes that used what it dropped. -/
structure InvalWait where
  ring : RingId
  index : W32
  accesses : List (CoreId × BitVec 48 × Nat)
  writes : List (ClusterId × Nat)
  deriving DecidableEq, Repr

/-- A region that `memory.place` mapped (R329): granules, tier they lie in, virtual base. -/
structure Region where
  granules : List Nat
  tier : Nat
  va : BitVec 48
  deriving DecidableEq, Repr

/-- Rings, packets in class queues and packets that wait for an instant or for hardware (R493), the configuration of
`device.config`, the peer table, the open-message ring (R503), the last reply datagram, the `memory.inval`
commands that wait, and what stopped jobs have placed (R331). -/
structure Cmd where
  rings : Tbl Ring := []
  queue : List Pkt := []
  waiting : List Pkt := []
  net : List NetPkt := []
  chip : BitVec 20 := 0
  ip : W32 := 0
  udp : W16 := 0
  peers : List (BitVec 48 × W16) := []
  openBase : Nat := 0
  openRecords : Nat := 0
  datagram : List Byte := []
  invals : List InvalWait := []
  left : Tbl (TenantId × List Region) := []
  deriving DecidableEq, Repr

/-- A dimension of an image (Table 06.18): bucket sizes, whether it is selected at launch, its size and bucket registers. -/
structure Dimension where
  sizes : List W32
  atLaunch : Bool
  sizeReg : BitVec 4
  bucketReg : BitVec 4
  deriving DecidableEq, Repr

/-- A variant of an image (Table 06.19). -/
structure Variant where
  tuple : List Byte
  code : Nat
  length : Nat
  entry : BitVec 11
  deriving DecidableEq, Repr

/-- A checked image (R167, R168): its bytes' start, whether that is a physical address, and length; dimensions, admission, variants,
assignment entries. -/
structure Image where
  base : Nat
  physical : Bool
  length : Nat
  dims : List Dimension
  admission : Nat
  variants : List Variant
  assign : Option (List W32)
  digest : BitVec 128
  deriving DecidableEq, Repr

end Sys2Proof
end

