-- ==== Sys2Proof/Machine/StateMoult.lean ====
section
/-! DEFINITION. Moult plans and sequencers (chapter 09), and jobs. -/
namespace Sys2Proof

/-- A registered plan (Tables 09.1 and 09.2): its address and the address space of the ring that registered it (log 43), score group,
sum exponent S, instar word, layer entries as bytes. -/
structure Plan where
  addr : W64
  space : Option TenantId
  group : GroupId
  sumExp : Byte
  word : BitVec 48
  layers : List (List Byte)
  deriving DecidableEq, Repr

/-- A score record (Table 06.12). -/
structure ScoreRec where
  score : W32
  pattern : Byte
  deriving DecidableEq, Repr

/-- What phase 3 gives for a layer (Table 09.6): reduced score and key of each lane, the contributor count, and whether the check
words agree. -/
structure Reduced where
  scores : List W32
  keys : List W64
  count : Nat
  agree : Bool
  deriving DecidableEq, Repr

/-- A new live block (R249 to R252): its index, pattern, and the row-order number of the block it continues, with its old pattern
when it is re-chosen. -/
structure NewBlock where
  index : Nat
  pattern : Byte
  old : Option Nat
  rechosen : Bool := false
  deriving DecidableEq, Repr

/-- A layer in a moult (R243 to R257): live scores, sieve records, reduced lanes, the mask that phases 4 and 5 choose, the counts
of its layer record, whether its arrays are rebuilt, and its status. -/
structure LayerRun where
  index : Nat
  live : List ScoreRec := []
  sieve : List ScoreRec := []
  reduced : Option Reduced := none
  mask : List NewBlock := []
  dropped : Nat := 0
  grownGrad : Nat := 0
  grownRand : Nat := 0
  rechosen : Nat := 0
  nonFinite : Nat := 0
  built : Bool := false
  used : Nat := 0
  done : Bool := false
  status : W16 := 0
  deriving DecidableEq, Repr

/-- The sequencer of a die (R243, R244, Table 09.8): status bits, the job it runs, its phase, its layers in plan order and the one in
progress. -/
structure Sequencer where
  last : W16 := 0
  job : JobId := 0
  running : Bool := false
  phase : BitVec 4 := 0
  current : Nat := 0
  layers : List LayerRun := []
  desync : Bool := false
  cancelled : Bool := false
  committed : Bool := false
  deriving DecidableEq, Repr

/-- An armed moult of a job (R258 to R261): instants, the dies that have begun, the reductions, the votes, and the outcome that the
reply waits for. -/
structure Moult where
  start : W64
  deadline : W64
  commit : W64
  begun : List Nat := []
  reduced : Bool := false
  vote : Option Bool := none
  result : Option Bool := none
  withheld : Bool := false
  deriving DecidableEq, Repr

/-- A saved core (R110, R166): what the context area cannot hold stands beside it (log 18). -/
structure SavedCore where
  core : Core
  area : BitVec 48
  deriving DecidableEq, Repr

/-- An armed mode change (R454, Table 20.9). -/
structure ModeChange where
  exact : Bool
  f : BitVec 6
  group : GroupId
  deadline : W64
  commit : W64
  armed : Bool
  failed : List W32 := []
  vote : Option Bool := none
  result : Option Bool := none
  deriving DecidableEq, Repr

/-- A chrysalis that is being copied (R468): its area, whether that is a physical address, the instar at its start, and whether the
job's next launch waits for it (R34). -/
structure TakeRun where
  area : BitVec 48
  physical : Bool
  instar : W32
  next : Bool := false
  deriving DecidableEq, Repr

/-- A loaded job (Table 20.6, R168 to R171): tenant, image, quads, context areas, the launch, its work items, its instar counter and
plan (R232), its placed regions (R329), its digest ring and regions (R465), saved cores, what is armed for
it, the quads that are pre-empted, a chrysalis that is being copied. -/
structure Job where
  tenant : TenantId
  image : Image
  quads : List Nat
  ctx : BitVec 48
  launched : Bool := false
  exact : Bool := false
  f : BitVec 6 := 0
  seed : W64 := 0
  step : BitVec 48 := 0
  sizes : List W32 := []
  items : Nat := 0
  variant : Nat := 0
  regs : Vector W32 16 := Vector.replicate 16 0
  started : List Nat := []
  finished : Nat := 0
  instar : W32 := 0
  plan : Option Plan := none
  regions : List Region := []
  placed : Bool := false
  digestBase : Nat := 0
  digestRecords : Nat := 0
  digestMap : Nat := 0
  digestFlags : Byte := 0
  saved : Tbl SavedCore := []
  moult : Option Moult := none
  mode : Option ModeChange := none
  paused : List Nat := []
  chrysalis : Option TakeRun := none
  deriving DecidableEq, Repr

end Sys2Proof
end

