-- ==== Sys2Proof/Machine/StateSys.lean ====
section
/-! DEFINITION. Power, clocks and sleep (chapter 21), start-up, repair and managers (chapter 22), pins (chapter 24). -/
namespace Sys2Proof

/-- Sector states (Table 21.11). -/
inductive SectorState where
  | asleep
  | waking
  | running
  deriving DecidableEq, Repr

/-- PWR_SECTORn with what stands behind it: the stretches requested by the three controls (R511), when droop and thermal requests last
changed, the voltage in mV and the point the sector moves to (R509), since when all its clusters have been gated (R517). -/
structure Sector where
  wakes : W32 := 0
  clock : BitVec 6 := 0x28
  tj : Byte := 0
  exact : Bool := false
  st : SectorState := .asleep
  droop : BitVec 6 := 0
  thermal : BitVec 6 := 0
  power : BitVec 6 := 0
  droopAt : Nat := 0
  thermalAt : Nat := 0
  mv : BitVec 12 := 720
  target : BitVec 6 := 0x28
  gatedSince : Option Nat := none
  deriving DecidableEq, Repr

/-- The applied stretch: the largest request (R511). -/
def Sector.stretch (s : Sector) : BitVec 6 := BitVec.ofNat 6 (max s.droop.toNat (max s.thermal.toNat s.power.toNat))

/-- PWR_IN, PWR_LIMIT, PWR_NOW, PWR_COOL (Tables 21.7 to 21.10), the times at which the inputs were lost or came back, the application cores'
DVFS point in 25 MHz units (R513). -/
structure Power where
  va : W16 := 0
  vb : W16 := 0
  switches : W16 := 0
  pref : Bool := false
  active : Bool := false
  bOk : Bool := false
  aOk : Bool := false
  lost : Bool := false
  noneSince : Option Nat := none
  limit : W16 := 0x0D48
  clock : Byte := 0x28
  sleepDelay : W16 := 0x000A
  limitEn : Bool := true
  peak : W16 := 0
  avg : W16 := 0
  tjMax : Byte := 0
  tjLimit : Byte := 0x69
  sustained : BitVec 6 := 0x28
  powerAt : Nat := 0
  appClock : Byte := 112
  sectors : Tbl Sector := []
  deriving DecidableEq, Repr

/-- A repair entry (Table 22.7). -/
structure RepairEntry where
  kind : Byte
  state : Byte
  replacement : W16
  location : W32
  time : W64
  deriving DecidableEq, Repr

/-- Reset kinds (Table 22.9, KIND). -/
inductive ResetKind where
  | powerOn
  | thermalTrip
  | cold
  | warm
  | compute
  deriving DecidableEq, Repr

/-- Security fuses (Table 13.12) and the slot that verified the running firmware. -/
structure Fuses where
  roots : List (BitVec 384) := [0, 0, 0, 0]
  revoke : BitVec 4 := 0
  rollback : BitVec 7 := 0
  secret : BitVec 256 := 0
  serial : W64 := 0
  deriving DecidableEq, Repr

/-- Start-up, repair and managers: REP_BOOT, REP_STATE (Tables 22.9, 22.10), stages ended, the repair table, supervision of the
management pairs and cocoon controllers (R540 to R543), fuses, pins and straps (chapter 24). -/
structure Sys where
  time : Nat := 0
  status : W16 := 0
  kind : ResetKind := .powerOn
  failedStage : BitVec 4 := 0
  bootFail : Bool := false
  ended : BitVec 8 := 0
  tripped : Bool := false
  switches : W32 := 0
  failQuiet : Bool := false
  mpLost : Bool := false
  standbyOk : Bool := true
  cocoon : Bool := false
  spareOk : Bool := true
  mp : Bool := false
  imageB : Bool := false
  pairStarting : Option Nat := none
  repairs : List RepairEntry := []
  fuses : Fuses := {}
  rootSlot : BitVec 2 := 0
  refclk : Bool := true
  straps : BitVec 2 := 0
  cool : BitVec 2 := 0
  thermtrip : Bool := false
  tap : BitVec 2 := 1
  appPositions : Tbl (BitVec 5) := []
  smbus : W64 := 0
  tdo : W32 := 0
  boundary : Bool := false
  deriving DecidableEq, Repr

/-- STAGE of REP_BOOT: the lowest stage that has not ended, 8 when READY, 9 in BOOT_FAIL (R524, Table 22.9). -/
def Sys.stage (s : Sys) : Nat :=
  if s.bootFail then 9 else ((List.range 8).find? (fun i => !s.ended.getLsbD i)).getD 8

/-- Every stage has ended (R525). -/
def Sys.ready (s : Sys) : Bool := s.stage == 8

end Sys2Proof
end

