-- ==== Sys2Proof/Machine/StateTime.lean ====
section
/-! DEFINITION. Hall time and barriers (chapter 15). Times and offsets count 1/64 ns, as the counter does (R375). -/
namespace Sys2Proof

/-- Time states (Table 15.6). -/
inductive TimeState where
  | unset
  | out
  | track
  | locked
  deriving DecidableEq, Repr

/-- HT_CFG (Table 15.2). -/
structure HtCfg where
  hold : W16 := 0x00A0
  rootBound : Byte := 0x10
  domain : Byte := 0
  secondary : PortId := 0
  primary : PortId := 0
  secEn : Bool := false
  priEn : Bool := false
  root : Bool := false
  deriving DecidableEq, Repr

/-- HT_PPS (Table 15.8). -/
structure HtPps where
  outOffset : BitVec 30 := 0
  inOffset : BitVec 30 := 0
  inFall : Bool := false
  inEn : Bool := false
  outEn : Bool := false
  deriving DecidableEq, Repr

/-- The registers that software writes, and the fields of HT_CFG that wait for a frame boundary (R380). -/
structure HtRegs where
  cfg : HtCfg := {}
  waiting : Option HtCfg := none
  pps : HtPps := {}
  deriving DecidableEq, Repr

/-- What the last time flit of a port carried (R382). -/
structure SentTime where
  origin : Nat
  bound : W16
  state : TimeState
  root : Bool
  holdover : Bool
  frame : BitVec 48
  sync : Bool
  announce : Bool
  deriving DecidableEq, Repr

/-- HT_LINKn (Table 15.5) and what its port has learned: accepted means, newest first, frames without one (R384), the partner's
advertised bound, state and flags, hops of its Announce, the last measured offset and the frame it was measured in (R388),
whether a measurement below 2 ns has followed PARTNER_OUT, and the last time flit sent. -/
structure HtLink where
  delay : BitVec 20 := 0
  asym : W16 := 0
  uncert : Byte := 0
  partnerOut : Bool := false
  valid : Bool := false
  means : List Nat := []
  missed : Nat := 0
  upBound : W16 := 0xFFFF
  upState : BitVec 3 := 0
  upRoot : Bool := false
  upHold : Bool := false
  upHops : BitVec 10 := 0
  offset : Int := 0
  measured : Option Nat := none
  goodSince : Bool := false
  missing : Nat := 0
  heard : Option Nat := none
  lastSent : Option SentTime := none
  deriving DecidableEq, Repr

/-- Where the bound comes from (R385): nothing yet, PPS lock, an upstream link, or holdover with the bound at the loss and its
time; `interim` is the interval between the loss of a link and the switch to the other (R379). -/
inductive BoundSource where
  | none
  | pps
  | link (port : PortId)
  | holdover (eLoss : Nat) (since : Nat)
  | interim (eLoss : Nat) (since : Nat) (next : PortId)
  deriving DecidableEq, Repr

/-- Hall time (R375 to R392): the counter in 1/64 ns, the latches of HT_FRAC by master (R502), links, the time state, the source of
the bound, the part of the last offset not yet corrected, whether it is being slewed and the fraction of a step slewed (R390), the fields of HT_STATUS, the named second and the edges of
PPS_IN (R391), and the pin PPS_OUT (R392). -/
structure HallTime where
  ht : BitVec 70 := 0
  frac : Tbl (BitVec 6) := []
  links : Tbl HtLink := []
  st : TimeState := .unset
  src : BoundSource := .none
  corr : Int := 0
  slewing : Bool := false
  slewed : Nat := 0
  offset : W16 := 0
  active : PortId := 0
  hops : BitVec 10 := 0
  stepped : Bool := false
  ppsLost : Bool := false
  named : Option Nat := none
  edges : Nat := 0
  lastEdge : Option Nat := none
  ppsOut : Bool := false
  ppsRose : Nat := 0
  deriving DecidableEq, Repr

/-- States of a barrier entry (Table 15.9). -/
inductive BarrierState where
  | idle
  | armed
  | released
  deriving DecidableEq, Repr

/-- A barrier entry (Table 15.9); its waiting cores are those whose hold names it. -/
structure Barrier where
  instant : W64 := 0
  generation : W16 := 0
  tenant : TenantId := 0
  claimed : Bool := false
  st : BarrierState := .idle
  late : Bool := false
  unlocked : Bool := false
  deriving DecidableEq, Repr

/-- The tenant that has claimed an entry; its number stays in bits [11:0] when the claim is dropped. -/
def Barrier.owner (b : Barrier) : Option TenantId := if b.claimed then some b.tenant else none

end Sys2Proof
end

