-- ==== Sys2Proof/Machine/StateChip.lean ====
section
/-! DEFINITION. The chip but for hall time: every unit of the package by its group, and what events read of time. -/
namespace Sys2Proof

/-- What an event reads of time: local HT in 1/64 ns, the model's clock in 1/64 ns (log 3), the bound e, the time state, the word of
HT_STATUS and the counter of free values (log 6). -/
structure Env where
  ht : Nat
  now : Nat
  e : Nat
  st : TimeState
  status : W64
  fresh : Nat
  deriving DecidableEq, Repr

/-- HT in whole nanoseconds. -/
def Env.ns (v : Env) : Nat := v.ht / 64

/-- The chip but for hall time. `returned` holds the value that the last register or memory read gave each master (log 19);
`reservations` the granule that each application core's LR holds (R373). -/
structure Chip where
  cores : Tbl Core := []
  clusters : Tbl Cluster := []
  mem : MemState := {}
  xlt : XltState := {}
  tenants : Tbl Tenant := []
  jobs : Tbl Job := []
  barriers : Tbl Barrier := []
  eye : EyeState := {}
  power : Power := {}
  sys : Sys := {}
  cmd : Cmd := {}
  seqs : List Sequencer := List.replicate 8 {}
  fab : Fabric := {}
  coll : Coll := {}
  reservations : Tbl Nat := []
  returned : Tbl W64 := []
  deriving DecidableEq, Repr

/-! ### Units by number -/

def Chip.core (c : Chip) (id : CoreId) : Core := tblGet {} c.cores id.toNat
def Chip.setCore (c : Chip) (id : CoreId) (k : Core) : Chip := { c with cores := tblSet c.cores id.toNat k }
def Chip.modCore (c : Chip) (id : CoreId) (f : Core → Core) : Chip := c.setCore id (f (c.core id))
def Chip.cluster (c : Chip) (cl : ClusterId) : Cluster := tblGet {} c.clusters cl.toNat
def Chip.setCluster (c : Chip) (cl : ClusterId) (x : Cluster) : Chip := { c with clusters := tblSet c.clusters cl.toNat x }
def Chip.modCluster (c : Chip) (cl : ClusterId) (f : Cluster → Cluster) : Chip := c.setCluster cl (f (c.cluster cl))
def Chip.tenant (c : Chip) (t : TenantId) : Option Tenant := tblFind c.tenants t.toNat
def Chip.setTenant (c : Chip) (t : TenantId) (x : Tenant) : Chip := { c with tenants := tblSet c.tenants t.toNat x }
def Chip.modTenant (c : Chip) (t : TenantId) (f : Tenant → Tenant) : Chip :=
  match c.tenant t with
  | some x => c.setTenant t (f x)
  | none => c
def Chip.job (c : Chip) (j : JobId) : Option Job := tblFind c.jobs j.toNat
def Chip.setJob (c : Chip) (j : JobId) (x : Job) : Chip := { c with jobs := tblSet c.jobs j.toNat x }
def Chip.modJob (c : Chip) (j : JobId) (f : Job → Job) : Chip :=
  match c.job j with
  | some x => c.setJob j (f x)
  | none => c
def Chip.port (c : Chip) (p : PortId) : Port := tblGet {} c.fab.ports p.toNat
def Chip.setPort (c : Chip) (p : PortId) (x : Port) : Chip := { c with fab := { c.fab with ports := tblSet c.fab.ports p.toNat x } }
def Chip.modPort (c : Chip) (p : PortId) (f : Port → Port) : Chip := c.setPort p (f (c.port p))
def Chip.group (c : Chip) (g : GroupId) : Option Group := tblFind c.coll.groups g.toNat
def Chip.setGroup (c : Chip) (g : GroupId) (x : Group) : Chip := { c with coll := { c.coll with groups := tblSet c.coll.groups g.toNat x } }
def Chip.modGroup (c : Chip) (g : GroupId) (f : Group → Group) : Chip :=
  match c.group g with
  | some x => c.setGroup g (f x)
  | none => c
def Chip.barrier (c : Chip) (e : BitVec 12) : Barrier := tblGet {} c.barriers e.toNat
def Chip.setBarrier (c : Chip) (e : BitVec 12) (b : Barrier) : Chip := { c with barriers := tblSet c.barriers e.toNat b }
def Chip.sector (c : Chip) (n : SectorId) : Sector := tblGet {} c.power.sectors n.toNat
def Chip.setSector (c : Chip) (n : SectorId) (x : Sector) : Chip :=
  { c with power := { c.power with sectors := tblSet c.power.sectors n.toNat x } }
def Chip.modSector (c : Chip) (n : SectorId) (f : Sector → Sector) : Chip := c.setSector n (f (c.sector n))

/-- Identifiers of the units that hold a core (R21). -/
def clusterOf (id : CoreId) : ClusterId := id.extractLsb' 6 14
def sectorOf (id : CoreId) : SectorId := id.extractLsb' 12 8
def clusterSector (cl : ClusterId) : SectorId := cl.extractLsb' 6 8
def clusterDie (cl : ClusterId) : DieId := cl.extractLsb' 11 3
def coreAt (cl : ClusterId) (k : Nat) : CoreId := BitVec.ofNat 20 (cl.toNat * 64 + k % 64)
/-- The 64 cores of a cluster. -/
def coresOf (cl : ClusterId) : List CoreId := (List.range 64).map (coreAt cl)
/-- The quad of a cluster (R348). -/
def quadOf (cl : ClusterId) : Nat := cl.toNat / 4
def clustersOfQuad (q : Nat) : List ClusterId := (List.range 4).map (fun i => BitVec.ofNat 14 (4 * q + i))

/-! ### Eyespot stamps (R472 to R474) -/

/-- Qualifiers and enables of a unit for an internal source (R474): codes 0 to 15 take the port qualifier, 16 to 31 the group
qualifier. -/
def Eye.wants (u : Eye) (source data : Nat) : Bool :=
  let ctl := u.ctl.toNat
  u.src.toNat.testBit source &&
  !(source < 16 && bitAt ctl 3 && data % 64 != bits ctl 26 6) &&
  !(16 ≤ source && source < 32 && bitAt ctl 4 && data % 4096 != bits ctl 14 12)

/-- A unit takes a stamp into its queue in the order of R474, or counts it lost when the queue is full. -/
def Eye.take (u : Eye) (s : Stamp) : Eye :=
  if !(bitAt u.ctl.toNat 0) || u.frozen then u
  else if u.stopped || decide (16 ≤ u.queue.length) then { u with lost := satInc u.lost 1, gap := true }
  else
    let le (a b : Stamp) : Bool := a.time < b.time ||
      (a.time == b.time && (a.source.toNat < b.source.toNat || (a.source == b.source && a.data.toNat ≤ b.data.toNat)))
    { u with queue := insertBy le { s with gap := u.gap } u.queue, gap := false }

def timeCode : TimeState → Nat
  | .unset => 0
  | .out => 1
  | .track => 2
  | .locked => 3

/-- The stamp of an event at a time. -/
def Env.stamp (v : Env) (time source data : Nat) : Stamp :=
  { time := time, source := BitVec.ofNat 8 source, e := BitVec.ofNat 12 (min v.e 0xFFF),
    state := BitVec.ofNat 2 (timeCode v.st), data := BitVec.ofNat 32 data }

/-- An internal event: every unit that enables its source stamps it (log 20). -/
def Chip.stampAt (c : Chip) (v : Env) (time source data : Nat) : Chip :=
  { c with eye := { c.eye with
      units := c.eye.units.map (fun (u : Eye) => if u.wants source data then u.take (v.stamp time source data) else u) } }

/-- An internal event at local HT. -/
def Chip.stamp (c : Chip) (v : Env) (source data : Nat) : Chip := c.stampAt v v.ht source data

end Sys2Proof
end

