-- ==== Sys2Proof/Machine/State.lean ====
section
/-! DEFINITION. The state of the block: the chip, hall time and its registers, the model's clock, the counter of free values, and
the queue of commands. -/
namespace Sys2Proof.Machine

/-- The whole state. `now` counts 1/64 ns of the model's clock, which time spans that the spec counts in no HT run on (log 3);
`fresh` counts the free values that have been taken (log 6); `pending` holds the commands that wait, the first one in front. -/
structure State where
  chip : Chip := {}
  time : HallTime := {}
  htRegs : HtRegs := {}
  now : Nat := 0
  fresh : Nat := 0
  pending : List Instr := []
  deriving DecidableEq, Repr

/-- Why a command stops the machine: no command of the block does. -/
inductive Fault where
  deriving DecidableEq, Repr

/-- Why a command has no meaning. -/
inductive Refusal where
  /-- An arm of Dispatch.lean raises it for a command that has no meaning yet, by its mnemonic. Safe: nothing is claimed of it. -/
  | notModelled (mnemonic : String)
  deriving DecidableEq, Repr

/-- The block right after power comes: every unit at its reset values, no boot stage ended, no command waiting. -/
def State.reset : State := {}

end Sys2Proof.Machine
end

