-- ==== Sys2Proof/Machine/Hash.lean ====
section
/-! DEFINITION. SHA-256, CRC-32C and CRC-32, which the spec names (R457, R460, R424, R401). Their tables and steps are the
published ones (FIPS 180-4, IEEE 802.3, Castagnoli), taken from outside the spec (log 10). -/
namespace Sys2Proof

namespace Sha256

/-- Round constants. -/
def consts : List W32 :=
  [0x428a2f98#32, 0x71374491#32, 0xb5c0fbcf#32, 0xe9b5dba5#32, 0x3956c25b#32, 0x59f111f1#32, 0x923f82a4#32, 0xab1c5ed5#32,
   0xd807aa98#32, 0x12835b01#32, 0x243185be#32, 0x550c7dc3#32, 0x72be5d74#32, 0x80deb1fe#32, 0x9bdc06a7#32, 0xc19bf174#32] ++
  [0xe49b69c1#32, 0xefbe4786#32, 0x0fc19dc6#32, 0x240ca1cc#32, 0x2de92c6f#32, 0x4a7484aa#32, 0x5cb0a9dc#32, 0x76f988da#32,
   0x983e5152#32, 0xa831c66d#32, 0xb00327c8#32, 0xbf597fc7#32, 0xc6e00bf3#32, 0xd5a79147#32, 0x06ca6351#32, 0x14292967#32] ++
  [0x27b70a85#32, 0x2e1b2138#32, 0x4d2c6dfc#32, 0x53380d13#32, 0x650a7354#32, 0x766a0abb#32, 0x81c2c92e#32, 0x92722c85#32,
   0xa2bfe8a1#32, 0xa81a664b#32, 0xc24b8b70#32, 0xc76c51a3#32, 0xd192e819#32, 0xd6990624#32, 0xf40e3585#32, 0x106aa070#32] ++
  [0x19a4c116#32, 0x1e376c08#32, 0x2748774c#32, 0x34b0bcb5#32, 0x391c0cb3#32, 0x4ed8aa4a#32, 0x5b9cca4f#32, 0x682e6ff3#32,
   0x748f82ee#32, 0x78a5636f#32, 0x84c87814#32, 0x8cc70208#32, 0x90befffa#32, 0xa4506ceb#32, 0xbef9a3f7#32, 0xc67178f2#32]

/-- Working variables a to h, or the hash value. -/
structure Vars where
  a : W32
  b : W32
  c : W32
  d : W32
  e : W32
  f : W32
  g : W32
  h : W32
  deriving DecidableEq, Repr

def init : Vars :=
  ⟨0x6a09e667#32, 0xbb67ae85#32, 0x3c6ef372#32, 0xa54ff53a#32, 0x510e527f#32, 0x9b05688c#32, 0x1f83d9ab#32, 0x5be0cd19#32⟩

def bigSigma0 (x : W32) : W32 := x.rotateRight 2 ^^^ x.rotateRight 13 ^^^ x.rotateRight 22
def bigSigma1 (x : W32) : W32 := x.rotateRight 6 ^^^ x.rotateRight 11 ^^^ x.rotateRight 25
def smallSigma0 (x : W32) : W32 := x.rotateRight 7 ^^^ x.rotateRight 18 ^^^ (x >>> 3)
def smallSigma1 (x : W32) : W32 := x.rotateRight 17 ^^^ x.rotateRight 19 ^^^ (x >>> 10)

/-- One round with the schedule word `w` and the constant `k`. -/
def round (v : Vars) (w k : W32) : Vars :=
  let t1 := v.h + bigSigma1 v.e + ((v.e &&& v.f) ^^^ (~~~v.e &&& v.g)) + k + w
  let t2 := bigSigma0 v.a + ((v.a &&& v.b) ^^^ (v.a &&& v.c) ^^^ (v.b &&& v.c))
  ⟨t1 + t2, v.a, v.b, v.c, v.d + t1, v.e, v.f, v.g⟩

/-- Rounds over the constants, the 16 schedule words of a sliding window first. -/
def rounds : List W32 → List W32 → Vars → Vars
  | [], _, v => v
  | k :: ks, win, v =>
    let w := nth 0 win 0
    let next := smallSigma1 (nth 0 win 14) + nth 0 win 9 + smallSigma0 (nth 0 win 1) + w
    rounds ks (win.drop 1 ++ [next]) (round v w k)

/-- The 16 big-endian words of a block. -/
def words (blk : List Byte) : List W32 :=
  (List.range 16).map (fun i => BitVec.ofNat 32 (ofBe (slice blk (4 * i) 4)))

def compress (h : Vars) (blk : List Byte) : Vars :=
  let v := rounds consts (words blk) h
  ⟨h.a + v.a, h.b + v.b, h.c + v.c, h.d + v.d, h.e + v.e, h.f + v.f, h.g + v.g, h.h + v.h⟩

/-- The padding of a message of `n` bytes. -/
def padding (n : Nat) : List Byte :=
  0x80#8 :: (List.replicate ((119 - n % 64) % 64) 0#8 ++ beBytes 8 (8 * n))

def blocks : Nat → List Byte → Vars → Vars
  | 0, _, h => h
  | n + 1, bs, h => blocks n (bs.drop 64) (compress h (bs.take 64))

/-- The 32 bytes of the digest. -/
def digest (msg : List Byte) : List Byte :=
  let m := msg ++ padding msg.length
  let h := blocks (m.length / 64) m init
  [h.a, h.b, h.c, h.d, h.e, h.f, h.g, h.h].flatMap (fun w => beBytes 4 w.toNat)

end Sha256

/-- Bytes 0 to 15 of a SHA-256 digest, read little-endian (R460). -/
def sha128 (msg : List Byte) : Nat := ofLe ((Sha256.digest msg).take 16)

/-- Bytes 0 to 7 of a SHA-256 digest, read little-endian (R457). -/
def sha64 (msg : List Byte) : Nat := ofLe ((Sha256.digest msg).take 8)

/-- One bit of a reflected CRC. -/
def crcBit (poly c : W32) : W32 := if c.getLsbD 0 then (c >>> 1) ^^^ poly else c >>> 1

def crcByte (poly c : W32) (b : Byte) : W32 :=
  let x := c ^^^ b.setWidth 32
  crcBit poly (crcBit poly (crcBit poly (crcBit poly (crcBit poly (crcBit poly (crcBit poly (crcBit poly x)))))))

/-- A reflected CRC with complemented start and end; `init` is the value of the bytes before. -/
def crcFrom (poly init : W32) (bs : List Byte) : W32 := ~~~(bs.foldl (crcByte poly) (~~~init))

/-- CRC-32C (R424, Table 05.5). -/
def crc32c (bs : List Byte) : W32 := crcFrom 0x82F63B78#32 0 bs

/-- CRC-32 with the IEEE 802.3 polynomial (R401). -/
def crc32 (bs : List Byte) : W32 := crcFrom 0xEDB88320#32 0 bs

end Sys2Proof
end

