-- ==== Sys2Proof/Machine/Lfsr.lean ====
section
/-! DEFINITION. The 64-bit Galois generators of cells and lanes (R68, R69, R129, R131). -/
namespace Sys2Proof

/-- One step (R68). -/
def lfsrStep (s : BitVec 64) : BitVec 64 :=
  let t := s >>> 1
  if s.getLsbD 0 then t ^^^ 0xD800000000000000 else t

/-- `n` steps. -/
def lfsrSteps : Nat → BitVec 64 → BitVec 64
  | 0, s => s
  | n + 1, s => lfsrSteps n (lfsrStep s)

/-- A draw advances by 16 steps and yields bits [15:0] of the new state (R47, R129). -/
def lfsrDraw (s : BitVec 64) : Nat × BitVec 64 :=
  let t := lfsrSteps 16 s
  (t.toNat % 65536, t)

/-- A loaded state; zero loads 1 (R69, R131). -/
def lfsrLoad (v : Nat) : BitVec 64 :=
  let s := BitVec.ofNat 64 v
  if s = 0 then 1 else s

end Sys2Proof
end

