-- ==== Sys2Proof/Config.lean ====
section
/-! DEFINITION. What the spec leaves open and the model keeps free: constants with no body, so that no proof can rest on a
value of theirs (log 6). -/
namespace Sys2Proof

/-- Sign of the NaN that an arithmetic operation gives on two operands: R117 names none (log 12). -/
opaque Config.nanSign : FVal → FVal → Bool

/-- FP32 result bits of a function of Table 05.3 where the table states no result: R127 says that it is a fixed function of
the input bits and does not state it (log 13). -/
opaque Config.func : FuncId → BitVec 32 → BitVec 32

/-- A fresh free value of 64 bits; the argument is the counter `fresh` of State. -/
opaque Config.freeValue : Nat → BitVec 64

/-- Entries that `VTOPP` keeps when its temperature is negative, NaN or +infinity: R310 states no set there (log 17). -/
opaque Config.paramMask : Nat → Bool

/-- Norm tags that hold a group's local gradients: R277 reads them, and no structure of the spec names them (log 24). -/
opaque Config.localGradTag : GroupId → Nat → Bool

/-- The `MINU64` result of a lane to which no member contributed: R430 states none (log 25). -/
opaque Config.emptyMin : BitVec 64

/-- The other members' part of the guard's shared sums in a reduce-scatter (R276): sum of squares, non-finite count, saturation,
by group and step; no flit format carries them (log 26). -/
opaque Config.peerSums : GroupId → BitVec 48 → BitVec 128 × BitVec 64 × Bool

/-- Chip and rank that the owner's ledger record of a late direct contribution names: no header field carries them (log 27). -/
opaque Config.lateContributor : GroupId → BitVec 48 → Nat → BitVec 20 × BitVec 32

/-- Firmware's estimate in the retry-after hint of a `BUSY`, which is at least 1: R490 and R525 state no value (log 34). -/
opaque Config.busyHint : Nat → BitVec 32

/-- Granules of tier 1 that firmware keeps for itself (R337); the argument is the counter `fresh` of State (log 39). -/
opaque Config.firmwareGranules : Nat → List Nat

/-- Voltage of an input, A or B (true), at a time of the model's clock, in 10 mV units (Table 21.7, log 40). -/
opaque Config.inputVolts : Bool → Nat → BitVec 16

/-- The certificate that comes with an attestation report (R358), as long as it is; the argument is the counter `fresh`. -/
opaque Config.certificate : Nat → List (BitVec 8)

end Sys2Proof
end

