-- ==== Sys2Proof/Machine/Num.lean ====
section
/-! DEFINITION. Number formats and conversion (chapter 02): exact values, decoding, rounding, the conversion flags, packing,
MX blocks, and exact arithmetic that is rounded once (R117). -/
namespace Sys2Proof

/-- Conversion flags in the bit places of CVT (Table 06.14). -/
abbrev Flags := BitVec 4
def flagNX : Flags := 1
def flagUF : Flags := 2
def flagOF : Flags := 4
def flagNV : Flags := 8

/-- The format of a code of Table 02.1; 9 to 15 are reserved (R36). -/
def Fmt.ofCode : Nat → Option Fmt
  | 0 => some .fp32
  | 1 => some .bf16
  | 2 => some .fp16
  | 3 => some .e4m3
  | 4 => some .e5m2
  | 5 => some .mxfp6
  | 6 => some .mxfp4
  | 7 => some .int8
  | 8 => some .int4
  | _ => none

/-- The code of a format (Table 02.1). -/
def Fmt.code : Fmt → Nat
  | .fp32 => 0
  | .bf16 => 1
  | .fp16 => 2
  | .e4m3 => 3
  | .e5m2 => 4
  | .mxfp6 => 5
  | .mxfp4 => 6
  | .int8 => 7
  | .int4 => 8

/-- Element bits (Table 02.1). -/
def Fmt.width : Fmt → Nat
  | .fp32 => 32
  | .bf16 => 16
  | .fp16 => 16
  | .e4m3 => 8
  | .e5m2 => 8
  | .mxfp6 => 6
  | .mxfp4 => 4
  | .int8 => 8
  | .int4 => 4

def Fmt.isInt : Fmt → Bool
  | .int8 => true
  | .int4 => true
  | _ => false

def Fmt.isMx : Fmt → Bool
  | .mxfp6 => true
  | .mxfp4 => true
  | _ => false

/-- Mantissa bits and bias (Table 02.2); the MX formats by their elements E3M2 and E2M1. -/
def Fmt.mant : Fmt → Nat
  | .fp32 => 23
  | .bf16 => 7
  | .fp16 => 10
  | .e4m3 => 3
  | .e5m2 => 2
  | .mxfp6 => 2
  | .mxfp4 => 1
  | _ => 0

def Fmt.bias : Fmt → Nat
  | .fp32 => 127
  | .bf16 => 127
  | .fp16 => 15
  | .e4m3 => 7
  | .e5m2 => 15
  | .mxfp6 => 3
  | .mxfp4 => 1
  | _ => 0

/-- Largest finite magnitude, as an encoding without its sign (Table 02.3). -/
def Fmt.maxCode : Fmt → Nat
  | .fp32 => 0x7F7FFFFF
  | .bf16 => 0x7F7F
  | .fp16 => 0x7BFF
  | .e4m3 => 0x7E
  | .e5m2 => 0x7B
  | .mxfp6 => 0x1F
  | .mxfp4 => 0x7
  | .int8 => 127
  | .int4 => 7

/-- Encoding of +infinity where the format has one (Table 02.3). -/
def Fmt.infCode : Fmt → Option Nat
  | .fp32 => some 0x7F800000
  | .bf16 => some 0x7F80
  | .fp16 => some 0x7C00
  | .e5m2 => some 0x7C
  | _ => none

/-- Canonical quiet NaN without its sign (R40). -/
def Fmt.nanCode : Fmt → Nat
  | .fp32 => 0x7FC00000
  | .bf16 => 0x7FC0
  | .fp16 => 0x7E00
  | .e4m3 => 0x7F
  | .e5m2 => 0x7E
  | _ => 0

/-- Sign bit of a format. -/
def Fmt.signBit (f : Fmt) (neg : Bool) : Nat := if neg then 2 ^ (f.width - 1) else 0

/-- Value of an element of a format, the scale of an MX block left out (R37, R38, R40). -/
def decode (f : Fmt) (x : Nat) : FVal :=
  let v := x % 2 ^ f.width
  if f.isInt then
    let i := signedOf f.width v
    .fin (decide (i < 0)) i.natAbs 0
  else
    let neg := bitAt v (f.width - 1)
    let mag := v % 2 ^ (f.width - 1)
    let e := mag / 2 ^ f.mant
    let m := mag % 2 ^ f.mant
    let top : Nat := 2 ^ (f.width - 1 - f.mant) - 1
    if f.infCode.isSome && e == top then
      if m == 0 then .inf neg
      else .nan neg (f != .e5m2 && m < 2 ^ (f.mant - 1))
    else if f == .e4m3 && mag == 0x7F then .nan neg false
    else if e == 0 then .fin neg m (1 - f.bias - f.mant)
    else .fin neg (m + 2 ^ f.mant) (e - f.bias - f.mant)

/-- Value of an element of an MX block with scale byte `s` (R42). A block whose scale is 0xFF reads as NaN and raises NV in a
conversion (R53). -/
def decodeScaled (f : Fmt) (s x : Nat) : FVal :=
  if f.isMx then
    if s % 256 == 0xFF then .nan false true
    else match decode f x with
      | .fin n m e => .fin n m (e + (s % 256 : Nat) - 127)
      | v => v
  else decode f x

/-- floor(log2) of m · 2^e, for m not zero. -/
def ilog2 (m : Nat) (e : Int) : Int := (Nat.log2 m : Int) + e

/-- m · 2^e on the grid 2^g: the multiple of 2^g it rounds to, and whether it is inexact (R45, R46). -/
def roundGrid (m : Nat) (e g : Int) (rnd : Rnd) : Nat × Bool :=
  if g ≤ e then (m <<< (e - g).toNat, false)
  else
    let sh := (g - e).toNat
    let q := m >>> sh
    let rem := m - (q <<< sh)
    let up := match rnd with
      | .rn =>
        let half := 1 <<< (sh - 1)
        half < rem || (rem == half && q % 2 == 1)
      | .sr r =>
        let t := if 16 ≤ sh then (m >>> (sh - 16)) % 65536 else (m <<< (16 - sh)) % 65536
        65536 ≤ t + r
    (if up then q + 1 else q, rem != 0)

/-- Round a finite magnitude into a floating-point format (an MX element on its own grid): its encoding without sign, and
its flags (R39, R46, Table 02.5, R52). -/
def encodeMag (f : Fmt) (m : Nat) (e : Int) (rnd : Rnd) (sat : Bool) : Nat × Flags :=
  if m == 0 then (0, 0)
  else
    let emin : Int := 1 - (f.bias : Int)
    let l := ilog2 m e
    let ex := max l emin
    let r := roundGrid m e (ex - f.mant) rnd
    let code := if r.1 < 2 ^ f.mant then r.1 else (ex + f.bias - 1).toNat * 2 ^ f.mant + r.1
    if f.maxCode < code then
      ((match f.infCode with
        | some c => if sat then f.maxCode else c
        | none => f.maxCode), flagOF ||| flagNX)
    else (code, if r.2 then (if l < emin then flagUF ||| flagNX else flagNX) else 0)

/-- Saturation bounds of an integer format (Table 02.3). -/
def intHi (f : Fmt) : Int := (f.maxCode : Int)
def intLo (f : Fmt) : Int := -(f.maxCode : Int) - 1

/-- Round a value into an integer format (Table 02.5). -/
def encodeInt (f : Fmt) (v : FVal) (rnd : Rnd) : Nat × Flags :=
  match v with
  | .nan _ _ => (0, flagNV)
  | .inf n => (ofSigned f.width (if n then intLo f else intHi f), flagOF)
  | .fin n m e =>
    let r := roundGrid m e 0 rnd
    let i : Int := if n then -(r.1 : Int) else r.1
    if intHi f < i then (ofSigned f.width (intHi f), flagOF ||| flagNX)
    else if i < intLo f then (ofSigned f.width (intLo f), flagOF ||| flagNX)
    else (ofSigned f.width i, if r.2 then flagNX else 0)

/-- Round a value once into a format that is no MX format (R44 to R49, Table 02.5). -/
def encode (f : Fmt) (v : FVal) (rnd : Rnd) (sat : Bool) : Nat × Flags :=
  if f.isInt then encodeInt f v rnd
  else match v with
    | .nan n s => (f.signBit n + f.nanCode, if s then flagNV else 0)
    | .inf n =>
      match f.infCode with
      | some c => if sat then (f.signBit n + f.maxCode, flagOF) else (f.signBit n + c, 0)
      | none => (f.signBit n + f.maxCode, flagOF)
    | .fin n m e =>
      let r := encodeMag f m e rnd sat
      (f.signBit n + r.1, r.2)

/-- A pair of Table 02.4: the conversion is exact and `.SAT` has no part in it (R48). -/
def widening (src dst : Fmt) : Bool :=
  match dst, src with
  | .fp32, .fp32 => false
  | .fp32, _ => true
  | .fp16, .e4m3 => true
  | .fp16, .e5m2 => true
  | .fp16, .int4 => true
  | .bf16, .e4m3 => true
  | .bf16, .int4 => true
  | .e4m3, .int4 => true
  | .e5m2, .int4 => true
  | .int8, .int4 => true
  | _, _ => false

/-- Conversion of an element (R44 to R53) into a format that is no MX format. -/
def convert (src dst : Fmt) (v : FVal) (rnd : Rnd) (sat : Bool) : Nat × Flags :=
  encode dst v rnd (sat && !widening src dst)

def FVal.isNan : FVal → Bool
  | .nan _ _ => true
  | _ => false

def FVal.isFin : FVal → Bool
  | .fin _ _ _ => true
  | _ => false

/-- A finite value other than zero. -/
def FVal.isLive : FVal → Bool
  | .fin _ m _ => m != 0
  | _ => false

/-- floor(log2) of the largest finite magnitude of a group, where it has one that is not zero (Table 03.1, R50). -/
def maxLog2 : List FVal → Option Int
  | [] => none
  | .fin _ m e :: vs =>
    if m == 0 then maxLog2 vs
    else match maxLog2 vs with
      | none => some (ilog2 m e)
      | some k => some (max k (ilog2 m e))
  | _ :: vs => maxLog2 vs

/-- Exponent of the largest power of two of an MX element format (R50). -/
def emax (f : Fmt) : Int := if f == .mxfp6 then 4 else 2

/-- The shared exponent of a block of finite values that are not all zero (R50 step 3). -/
def mxExp (f : Fmt) (l : Int) : Int := max (-127) (min 127 (l - emax f))

/-- Quantise a block of exact values, each with its rounding: the scale byte, the elements, the flags (R50). -/
def mxQuantise (f : Fmt) (vs : List (FVal × Rnd)) (sat : Bool) : Nat × List Nat × Flags :=
  if vs.any (fun p => !p.1.isFin) then (0xFF, vs.map (fun _ => 0), flagNV)
  else match maxLog2 (vs.map (·.1)) with
    | none => (0, vs.map (fun p => match p.1 with
        | .fin n _ _ => f.signBit n
        | _ => 0), 0)
    | some l =>
      let e := mxExp f l
      let rs := vs.map (fun p => match p.1 with
        | .fin n m x =>
          let r := encodeMag f m (x - e) p.2 sat
          (f.signBit n + r.1, r.2)
        | _ => (0, 0))
      ((e + 127).toNat, rs.map (·.1), rs.foldl (fun a r => a ||| r.2) 0)

/-! ### Exact arithmetic (R117) -/

def FVal.neg : FVal → FVal
  | .nan n s => .nan (!n) s
  | .inf n => .inf (!n)
  | .fin n m e => .fin (!n) m e

def FVal.abs : FVal → FVal
  | .nan _ s => .nan false s
  | .inf _ => .inf false
  | .fin _ m e => .fin false m e

def FVal.sig : FVal → Bool
  | .nan _ s => s
  | _ => false

/-- Exact sum. A sum of zeros is -0 when both are, and an exact cancellation is +0. -/
def FVal.add (a b : FVal) : FVal :=
  match a, b with
  | .nan _ s, y => .nan (Config.nanSign a y) (s || y.sig)
  | x, .nan _ s => .nan (Config.nanSign x b) (s || x.sig)
  | .inf n, .inf k => if n == k then .inf n else .nan (Config.nanSign a b) true
  | .inf n, _ => .inf n
  | _, .inf n => .inf n
  | .fin n m e, .fin k p f =>
    let g := min e f
    let x : Int := (m <<< (e - g).toNat : Nat)
    let y : Int := (p <<< (f - g).toNat : Nat)
    let z := (if n then -x else x) + (if k then -y else y)
    if z == 0 then .fin (n && k) 0 g else .fin (decide (z < 0)) z.natAbs g

/-- Exact product. -/
def FVal.mul (a b : FVal) : FVal :=
  match a, b with
  | .nan _ s, y => .nan (Config.nanSign a y) (s || y.sig)
  | x, .nan _ s => .nan (Config.nanSign x b) (s || x.sig)
  | .inf n, .inf k => .inf (n != k)
  | .inf n, .fin k p _ => if p == 0 then .nan (Config.nanSign a b) true else .inf (n != k)
  | .fin n m _, .inf k => if m == 0 then .nan (Config.nanSign a b) true else .inf (n != k)
  | .fin n m e, .fin k p f => .fin (n != k) (m * p) (e + f)

/-- a · b + c, exact (R117). -/
def FVal.fma (a b c : FVal) : FVal := (a.mul b).add c

/-- Order of two values that are not NaN, the zeros equal. -/
def FVal.lt (a b : FVal) : Bool :=
  match a, b with
  | .nan _ _, _ => false
  | _, .nan _ _ => false
  | .inf n, .inf k => n && !k
  | .inf n, _ => n
  | _, .inf k => !k
  | .fin n m e, .fin k p f =>
    let g := min e f
    let x : Int := (m <<< (e - g).toNat : Nat)
    let y : Int := (p <<< (f - g).toNat : Nat)
    decide ((if n then -x else x) < (if k then -y else y))

def FVal.negative : FVal → Bool
  | .nan n _ => n
  | .inf n => n
  | .fin n _ _ => n

/-- Order with -0 below +0 (Table 03.5, Table 06.9). -/
def FVal.ltZ (a b : FVal) : Bool :=
  a.lt b || (!a.isNan && !b.isNan && !b.lt a && a.negative && !b.negative)

def FVal.eqv (a b : FVal) : Bool := !a.isNan && !b.isNan && !a.lt b && !b.lt a

/-- `VMAX` and `VMIN`: the canonical quiet NaN if either operand is NaN, -0 below +0 (Table 03.5). -/
def FVal.max (a b : FVal) : FVal :=
  if a.isNan || b.isNan then .nan false (a.sig || b.sig) else if a.ltZ b then b else a
def FVal.min (a b : FVal) : FVal :=
  if a.isNan || b.isNan then .nan false (a.sig || b.sig) else if b.ltZ a then b else a

/-- An integer as a value. -/
def FVal.ofInt (i : Int) : FVal := .fin (decide (i < 0)) i.natAbs 0

def FVal.zero : FVal := .fin false 0 0
def FVal.one : FVal := .fin false 1 0

/-- The value of FP32 bits. -/
def f32 (x : Nat) : FVal := decode .fp32 x

/-- FP32 bits of a value rounded to nearest even. -/
def toF32 (v : FVal) : Nat := (encode .fp32 v .rn false).1
def toF32F (v : FVal) : Nat × Flags := encode .fp32 v .rn false

/-- A value rounded to FP32 to nearest even (R74). -/
def roundF32 (v : FVal) : FVal := match v with
  | .fin _ _ _ => f32 (toF32 v)
  | w => w

def f32mul (a b : Nat) : Nat := toF32 ((f32 a).mul (f32 b))
def f32add (a b : Nat) : Nat := toF32 ((f32 a).add (f32 b))

/-- Integer square root of `n`, searching bits `k - 1` to 0. -/
def isqrtBits : Nat → Nat → Nat → Nat
  | 0, _, r => r
  | k + 1, n, r =>
    let t := r + 2 ^ k
    isqrtBits k n (if t * t ≤ n then t else r)

/-- A dyadic value that rounds as the square root of m · 2^e does: 64 bits of root and a sticky bit. -/
def sqrtFin (m : Nat) (e : Int) : FVal :=
  if m == 0 then .fin false 0 0
  else
    let k := 128 - Nat.log2 m
    let k := if (e - (k : Int)) % 2 == 0 then k else k + 1
    let n := m <<< k
    let r := isqrtBits 66 n 0
    .fin false (2 * r + (if r * r == n then 0 else 1)) ((e - (k : Int)) / 2 - 1)

/-- A dyadic value that rounds as (m / n) · 2^e does, n not zero: at least 160 bits of quotient and a sticky bit. -/
def divFin (neg : Bool) (m n : Nat) (e : Int) : FVal :=
  let k := 160 + Nat.log2 n
  let q := (m <<< k) / n
  .fin neg (2 * q + (if q * n == m <<< k then 0 else 1)) (e - k - 1)

/-! ### Packing (R41, R42, R575, R578) -/

/-- Bytes of `n` packed elements, padded to the packing group (R41). -/
def Fmt.elemBytes (f : Fmt) (n : Nat) : Nat :=
  match f with
  | .fp32 => 4 * n
  | .bf16 => 2 * n
  | .fp16 => 2 * n
  | .mxfp6 => 3 * ceilDiv n 4
  | .mxfp4 => ceilDiv n 2
  | .int4 => ceilDiv n 2
  | _ => n

/-- Encoding of element `i` of packed elements (R41). -/
def unpack (f : Fmt) (bs : List Byte) (i : Nat) : Nat :=
  match f with
  | .fp32 => fieldLe bs (4 * i) 4
  | .bf16 => fieldLe bs (2 * i) 2
  | .fp16 => fieldLe bs (2 * i) 2
  | .mxfp6 => bits (fieldLe bs (3 * (i / 4)) 3) (6 * (i % 4)) 6
  | .mxfp4 => bits (fieldLe bs (i / 2) 1) (4 * (i % 2)) 4
  | .int4 => bits (fieldLe bs (i / 2) 1) (4 * (i % 2)) 4
  | _ => fieldLe bs i 1

/-- Pack encodings, least significant first, from the low bits of a little-endian string (R41): for every format element `i`
stands at bits [w·i + w - 1 : w·i]. -/
def packBits (w : Nat) : List Nat → Nat
  | [] => 0
  | x :: xs => x % 2 ^ w + 2 ^ w * packBits w xs

/-- The bytes of packed encodings (R41). -/
def packElems (f : Fmt) (xs : List Nat) : List Byte := leBytes (f.elemBytes xs.length) (packBits f.width xs)

/-- Group exponent of an operand group: encodings of one group and its scale byte (R58, Table 03.1). -/
def groupExp (f : Fmt) (xs : List Nat) (s : Nat) : Option Int :=
  if f.isInt then none
  else if f.isMx then
    if s % 256 == 0xFF || xs.all (fun x => x % 2 ^ (f.width - 1) == 0) then none
    else some ((s % 256 : Nat) - 127 + emax f)
  else maxLog2 (xs.map (decode f))

end Sys2Proof
end

