-- ==== Sys2Proof/Machine/T4.lean ====
section
/-! DEFINITION. The T4 format (R201 to R206): row codes, the 90 transposable patterns and their transposes; block descriptors
(Table 08.5) and the steps of R95. -/
namespace Sys2Proof

/-- Live columns of a row code (Table 08.2). -/
def rowCols : Nat → Nat × Nat
  | 0 => (0, 1)
  | 1 => (0, 2)
  | 2 => (0, 3)
  | 3 => (1, 2)
  | 4 => (1, 3)
  | _ => (2, 3)

/-- A tuple of row codes is valid when each column is live in exactly two rows (R204). -/
def tupleOk (t : List Nat) : Bool :=
  (List.range 4).all (fun col => (t.filter (fun c => (rowCols c).1 == col || (rowCols c).2 == col)).length == 2)

/-- The 90 patterns in the order of their identifiers: valid tuples in increasing lexicographic order (R204). -/
def patterns : List (List Nat) :=
  ((List.range 6).flatMap (fun a => (List.range 6).flatMap (fun b => (List.range 6).flatMap (fun c =>
    (List.range 6).map (fun d => [a, b, c, d]))))).filter tupleOk

/-- Row codes of a 2:4 pattern. -/
def patternCodes (p : Nat) : List Nat := nth [0, 0, 5, 5] patterns p

/-- The row code that names two live columns. -/
def codeOf (a b : Nat) : Nat := ((List.range 6).find? (fun c => rowCols c == (a, b))).getD 0

/-- Rows of a pattern that hold column `col`, the lower first. -/
def rowsOf (codes : List Nat) (col : Nat) : Nat × Nat :=
  let rs := (List.range 4).filter (fun r => let c := rowCols (nth 0 codes r); c.1 == col || c.2 == col)
  (nth 0 rs 0, nth 0 rs 1)

/-- Row codes of the transpose of a pattern (R205). -/
def transposeCodes (codes : List Nat) : List Nat :=
  (List.range 4).map (fun i => let r := rowsOf codes i; codeOf r.1 r.2)

/-- Identifier of the transpose of a pattern; 126 is its own (R205). -/
def transposeId (p : Nat) : Nat :=
  if p == 126 then 126 else (patterns.findIdx? (· == transposeCodes (patternCodes p))).getD p

/-- What a descriptor names (Table 08.1). -/
inductive BlockKind where
  | two (p : Nat)
  | full
  | invalid
  deriving DecidableEq, Repr

/-- Kind of a block from its 4-byte descriptor (R215); pattern 126 needs stride 16. -/
def blockKind (desc : Nat) (stride16 : Bool) : BlockKind :=
  if bits desc 27 5 != 0 then .invalid
  else
    let p := bits desc 20 7
    if p < 90 then .two p
    else if p == 126 && stride16 then .full
    else .invalid

/-- A step of R95: a pair, a lone 2:4 block, a full block or an invalid block, by place in the list of blocks. -/
inductive T4Step where
  | pair (a b : Nat)
  | lone (a : Nat)
  | full (a : Nat)
  | invalid (a : Nat)
  deriving DecidableEq, Repr

def T4Step.first : T4Step → Nat
  | .pair a _ => a
  | .lone a => a
  | .full a => a
  | .invalid a => a

/-- Pair 2:4 blocks in order (R95 step 1). -/
def pairUp : List Nat → List T4Step
  | a :: b :: r => .pair a b :: pairUp r
  | [a] => [.lone a]
  | [] => []

/-- The steps of a list of blocks in the order of their first block (R95). -/
def t4Steps (ks : List (Nat × BlockKind)) : List T4Step :=
  let two := ks.filterMap (fun p => match p.2 with
    | .two _ => some p.1
    | _ => none)
  let alone := ks.filterMap (fun p => match p.2 with
    | .full => some (.full p.1)
    | .invalid => some (.invalid p.1)
    | .two _ => none)
  sortBy (fun x y => x.first ≤ y.first) (pairUp two ++ alone)

end Sys2Proof
end

