-- ==== Sys2Proof/Machine/Operands.lean ====
section
/-! DEFINITION. Operands of matrix passes: footprints (Table 06.6), operand groups (R58, R151), the products of each cell in
pass order (R90 to R99, R216 to R220), and the anchor a reduction position gives (R59). -/
namespace Sys2Proof

/-- Encoding of element `i` of elements packed from `base` (R41). -/
def elemAt (m : Memory) (f : Fmt) (base i : Nat) : Nat :=
  match f with
  | .fp32 => m.readLe (base + 4 * i) 4
  | .bf16 => m.readLe (base + 2 * i) 2
  | .fp16 => m.readLe (base + 2 * i) 2
  | .mxfp6 => bits (m.readLe (base + 3 * (i / 4)) 3) (6 * (i % 4)) 6
  | .mxfp4 => bits (m.get (base + i / 2)).toNat (4 * (i % 2)) 4
  | .int4 => bits (m.get (base + i / 2)).toNat (4 * (i % 2)) 4
  | _ => (m.get (base + i)).toNat

/-- Modifier bits of a matrix word (Table 06.5). -/
def modBit (w : Fields) (i : Nat) : Bool := bitAt w.mod.toNat i
def Pass.wide (p : Pass) : Bool := modBit p.w 1
def Pass.shift (p : Pass) : Bool := modBit p.w 2
def Pass.mb (p : Pass) : Bool := modBit p.w 4
/-- IMM fields of a matrix word (Table 06.2). -/
def immCount (w : Fields) : Nat := bits w.imm.toNat 0 13
def immKw (w : Fields) : Nat := bits w.imm.toNat 13 6 + 1
def immBit19 (w : Fields) : Bool := bitAt w.imm.toNat 19
def immReg (w : Fields) : Nat := bits w.imm.toNat 20 4
/-- Formats of X and Y; reserved codes are refused before a pass is made. -/
def Pass.fx (p : Pass) : Fmt := (Fmt.ofCode p.w.f1.toNat).getD .fp32
def Pass.fy (p : Pass) : Fmt := (Fmt.ofCode p.w.f2.toNat).getD .fp32
def Pass.n (p : Pass) : Nat := immCount p.w
def Pass.isClose (p : Pass) : Bool := p.op == 4
def Pass.isT4 (p : Pass) : Bool := p.op == 1 || p.op == 2
/-- Stride of staged values (R216). -/
def Pass.stride (p : Pass) : Nat := if immBit19 p.w then 16 else 8
def Pass.xBase (p : Pass) : Nat := p.av.toNat
def Pass.yBase (p : Pass) : Nat := p.bv.toNat
def Pass.cBase (p : Pass) : Nat := p.cv.toNat

/-- Two products enter together only when both operand formats run at p = 2 (R88, Table 04.2). -/
def Pass.perCycle (p : Pass) : Nat :=
  let two (f : Fmt) : Bool := f.isMx || f == .int4
  if two p.fx && two p.fy then 2 else 1

/-- Elements of the two operands (Table 06.6). -/
def Pass.xElems (p : Pass) : Nat :=
  if p.isT4 then p.stride * p.n
  else if p.shift then 4 * p.n * immKw p.w
  else if p.wide then 16 * p.n else 4 * p.n
def Pass.yElems (p : Pass) : Nat :=
  if p.isT4 then (if p.wide then 4 * p.n else 16 * p.n)
  else if p.op == 3 then 8 * p.n
  else if p.shift then p.n * (immKw p.w + 3)
  else if p.wide then p.n else 4 * p.n

/-- Scale bytes of the two operands, one for each operand group (R151, R216). -/
def Pass.xScales (p : Pass) : Nat :=
  if !p.fx.isMx then 0
  else if p.isT4 then p.n
  else if p.shift then 4 * ceilDiv (p.n * immKw p.w) 32
  else if p.wide then 16 * ceilDiv p.n 32 else 4 * ceilDiv p.n 32
def Pass.yScales (p : Pass) : Nat :=
  if !p.fy.isMx then 0
  else if p.isT4 then p.n
  else if p.op == 3 then 8 * ceilDiv p.n 32
  else if p.shift then ceilDiv (p.n * (immKw p.w + 3)) 32
  else if p.wide then ceilDiv p.n 32 else 4 * ceilDiv p.n 32

/-- Footprint of a pass as (start, length) ranges (Table 06.6, R151). -/
def Pass.reads (p : Pass) : List (Nat × Nat) :=
  if p.isClose then []
  else
    let cLen := if p.op == 1 then 4 * p.n else if p.op == 2 then 8 * p.n
      else if p.op == 3 then (if immBit19 p.w then 8 else 4) else 0
    [(p.xBase, p.fx.elemBytes p.xElems + p.xScales), (p.yBase, p.fy.elemBytes p.yElems + p.yScales), (p.cBase, cLen)]

/-- A value of the row operand: its element and its scale byte. -/
def Pass.xVal (m : Memory) (p : Pass) (i s : Nat) : FVal :=
  decodeScaled p.fx (m.get (p.xBase + p.fx.elemBytes p.xElems + s)).toNat (elemAt m p.fx p.xBase i)
/-- A value of the column operand. -/
def Pass.yVal (m : Memory) (p : Pass) (i s : Nat) : FVal :=
  decodeScaled p.fy (m.get (p.yBase + p.fy.elemBytes p.yElems + s)).toNat (elemAt m p.fy p.yBase i)

/-- Group exponents of groups given by element and scale numbers (R58). -/
def Pass.xGroup (m : Memory) (p : Pass) (is : List Nat) (s : Nat) : Option Int :=
  groupExp p.fx (is.map (elemAt m p.fx p.xBase)) (m.get (p.xBase + p.fx.elemBytes p.xElems + s)).toNat
def Pass.yGroup (m : Memory) (p : Pass) (is : List Nat) (s : Nat) : Option Int :=
  groupExp p.fy (is.map (elemAt m p.fy p.yBase)) (m.get (p.yBase + p.fy.elemBytes p.yElems + s)).toNat

/-- What a cell takes in one place of its pass order: nothing, a product of an invalid block (R215), or a product. -/
inductive Entry where
  | idle
  | invalid
  | mul (x y : FVal)
  deriving DecidableEq, Repr

/-! ### Blocks of a T4 pass -/

/-- The blocks of a square pass by number with their kinds (R217, R219). -/
def Pass.blocks (m : Memory) (p : Pass) : List (Nat × BlockKind) :=
  (List.range p.n).map (fun k =>
    let bk := blockKind (m.readLe (p.cBase + 4 * k) 4) (immBit19 p.w)
    if p.op == 2 && p.n ≤ m.readLe (p.cBase + 4 * p.n + 4 * k) 4 then (k, .invalid) else (k, bk))

/-- The order key of a wide descriptor's tag: chunk, group, relative column (R218). -/
def wideKey (desc : Nat) : Nat × Nat × Nat := (bits desc 0 18 / 16, bits desc 18 2, bits desc 0 18)

def keyLt (a b : Nat × Nat × Nat) : Bool :=
  a.1 < b.1 || (a.1 == b.1 && (a.2.1 < b.2.1 || (a.2.1 == b.2.1 && a.2.2 < b.2.2)))

/-- The blocks of a wide pass by chunk walked: (group, block, kind). A descriptor that breaks the order is an invalid block of
its tagged group in the chunk that is open (R97, R218). -/
def wideChunks (m : Memory) (p : Pass) : Nat → Nat → Option (Nat × Nat × Nat) → Option Nat →
    List (Nat × Nat × BlockKind) → List (List (Nat × Nat × BlockKind))
  | 0, _, _, _, acc => if acc.isEmpty then [] else [acc]
  | f + 1, k, prev, open?, acc =>
    let desc := m.readLe (p.cBase + 4 * k) 4
    let key := wideKey desc
    let bad := match prev with
      | none => false
      | some q => !keyLt q key
    let bk := if bad then .invalid else (nth (0, .invalid) (p.blocks m) k).2
    match open? with
    | none => wideChunks m p f (k + 1) (some key) (some key.1) [(key.2.1, k, bk)]
    | some o =>
      if o < key.1 then acc :: wideChunks m p f (k + 1) (some key) (some key.1) [(key.2.1, k, bk)]
      else wideChunks m p f (k + 1) (some key) (some o) (acc ++ [(key.2.1, k, bk)])

/-- Steps of each group of each chunk of a wide T4 pass (R97). -/
def Pass.wideSteps (m : Memory) (p : Pass) : List (List (List T4Step)) :=
  (wideChunks m p p.n 0 none none []).map (fun ch =>
    (List.range 4).map (fun g => t4Steps (ch.filterMap (fun b => if b.1 == g then some b.2 else none))))

/-- Steps of a square T4 pass (R95). -/
def Pass.steps (m : Memory) (p : Pass) : List T4Step := t4Steps (p.blocks m)

def chunkLen (c : List (List T4Step)) : Nat := c.foldl (fun a g => max a g.length) 0

/-- Products of each cell in a pass, idle places of a wide T4 pass included (R57, R95, R97). -/
def Pass.len (m : Memory) (p : Pass) : Nat :=
  if p.isClose then 0
  else if p.isT4 then
    (if p.wide then ((p.wideSteps m).map (fun c => 4 * chunkLen c)).foldl (· + ·) 0 else 4 * (p.steps m).length)
  else if p.shift then p.n * immKw p.w
  else p.n

/-- Places of the values that row `i` of block `k` multiplies: (value of the block, feature) pairs (R96, R98). -/
def Pass.rowTerms (m : Memory) (p : Pass) (k i : Nat) (full : Bool) : List (Nat × Nat) :=
  if full then
    (List.range 4).map (fun c => if p.op == 2 then (4 * c + i, c) else (4 * i + c, c))
  else
    let codes := patternCodes (bits (m.readLe (p.cBase + 4 * k) 4) 20 7)
    if p.op == 2 then
      let r := rowsOf codes i
      let h (row : Nat) : Nat := if (rowCols (nth 0 codes row)).1 == i then 0 else 1
      [(2 * r.1 + h r.1, r.1), (2 * r.2 + h r.2, r.2)]
    else
      let c := rowCols (nth 0 codes i)
      [(2 * i, c.1), (2 * i + 1, c.2)]

/-- First value position of block `k` (R216, R219). -/
def Pass.valueBase (m : Memory) (p : Pass) (k : Nat) : Nat :=
  p.stride * (if p.op == 2 then m.readLe (p.cBase + 4 * p.n + 4 * k) 4 else k)

/-- Products of block `k` in row `i` for token `j` (R96, R216). -/
def Pass.blockEntries (m : Memory) (p : Pass) (k i j : Nat) (full : Bool) : List Entry :=
  (p.rowTerms m k i full).map (fun t =>
    .mul (p.xVal m (p.valueBase m k + t.1) k) (p.yVal m (if p.wide then 4 * k + t.2 else 16 * k + 4 * j + t.2) k))

/-- The four products of a step in row `i` for token `j` (R95, R96). -/
def Pass.stepEntries (m : Memory) (p : Pass) (i j : Nat) : T4Step → List Entry
  | .pair a b => p.blockEntries m a i j false ++ p.blockEntries m b i j false
  | .lone a => p.blockEntries m a i j false ++ [.mul .zero .zero, .mul .zero .zero]
  | .full a => p.blockEntries m a i j true
  | .invalid _ => [.invalid, .invalid, .invalid, .invalid]

/-- The chunk that holds place `k` of a wide T4 pass and the place within it. -/
def chunkAt : List (List (List T4Step)) → Nat → Nat → Option (Nat × List (List T4Step) × Nat)
  | [], _, _ => none
  | c :: cs, q, k => if k < 4 * chunkLen c then some (q, c, k) else chunkAt cs (q + 1) (k - 4 * chunkLen c)

/-! ### Sampled passes (R99) -/

/-- Descriptors of a `.T4S` pass and whether its blocks are valid: PAIR needs two 2:4 patterns. -/
def Pass.pairBit (p : Pass) : Bool := immBit19 p.w
def Pass.sampledKinds (m : Memory) (p : Pass) : BlockKind × BlockKind :=
  let a := blockKind (m.readLe p.cBase 4) (!p.pairBit)
  let b := if p.pairBit then blockKind (m.readLe (p.cBase + 4) 4) false else .invalid
  if p.pairBit && (a == .invalid || b == .invalid) then (.invalid, .invalid) else (a, b)

/-- The in-feature, of the 8 of a token, that cell (r, c) of a sampled pass takes; none where the cell is idle; `some none`
where its block is invalid. -/
def Pass.sampledFeature (m : Memory) (p : Pass) (r c : Nat) : Option (Option Nat) :=
  let ks := p.sampledKinds m
  let colOf (desc h : Nat) : Nat :=
    let t := rowCols (nth 0 (patternCodes (bits desc 20 7)) r)
    if h == 0 then t.1 else t.2
  if p.pairBit then
    if ks.1 == .invalid then some none
    else if c < 2 then some (some (colOf (m.readLe p.cBase 4) c))
    else some (some (4 + colOf (m.readLe (p.cBase + 4) 4) (c - 2)))
  else match ks.1 with
    | .full => some (some c)
    | .two _ => if c < 2 then some (some (colOf (m.readLe p.cBase 4) c)) else none
    | .invalid =>
      if bits (m.readLe p.cBase 4) 20 7 < 90 && 2 ≤ c then none else some none

/-- The drain of a sampled tile follows T4 value order (R99, R220). -/
def Pass.t4Order (m : Memory) (p : Pass) : Bool :=
  p.op == 3 && (p.pairBit || bits (m.readLe p.cBase 4) 20 7 < 90)

/-! ### Products and anchors -/

/-- What cell `n` takes in place `k` of the pass order. -/
def Pass.entry (m : Memory) (p : Pass) (n k : Nat) : Entry :=
  let i := n / 4
  let j := n % 4
  if p.isT4 then
    if p.wide then
      match chunkAt (p.wideSteps m) 0 k with
      | none => .idle
      | some (_, c, r) =>
        match (nth [] c i)[r / 4]? with
        | none => .idle
        | some st => nth .idle (p.stepEntries m j 0 st) (r % 4)
    else match (p.steps m)[k / 4]? with
      | none => .idle
      | some st => nth .idle (p.stepEntries m i j st) (k % 4)
  else if p.op == 3 then
    match p.sampledFeature m i j with
    | none => .idle
    | some none => .invalid
    | some (some f) => .mul (p.xVal m (4 * k + i) (k / 32 * 4 + i)) (p.yVal m (8 * k + f) (k / 32 * 8 + f))
  else if p.shift then
    let c := k / immKw p.w
    let t := k % immKw p.w
    let e := c * (immKw p.w + 3) + t + j
    .mul (p.xVal m (4 * k + i) (k / 32 * 4 + i)) (p.yVal m e (e / 32))
  else if p.wide then .mul (p.xVal m (16 * k + n) (k / 32 * 16 + n)) (p.yVal m k (k / 32))
  else .mul (p.xVal m (4 * k + i) (k / 32 * 4 + i)) (p.yVal m (4 * k + j) (k / 32 * 4 + j))

/-- Element numbers k', from the group of 32 that holds `k` of `n`. -/
def groupOf (k n : Nat) : List Nat := (List.range (min n (k / 32 * 32 + 32) - k / 32 * 32)).map (· + k / 32 * 32)

def maxOpt : List (Option Int) → Option Int
  | [] => none
  | none :: l => maxOpt l
  | some x :: l => match maxOpt l with
    | none => some x
    | some y => some (max x y)

/-- Values of block `k` that count for its group: 8 of a 2:4 block, 16 of a full block (R208, R216). -/
def Pass.blockGroup (m : Memory) (p : Pass) (k : Nat) (full : Bool) : Option Int :=
  p.xGroup m ((List.range (if full then 16 else 8)).map (· + p.valueBase m k)) k
def Pass.blockColGroup (m : Memory) (p : Pass) (k : Nat) : Option Int :=
  p.yGroup m (if p.wide then (List.range 4).map (· + 4 * k) else (List.range 16).map (· + 16 * k)) k

/-- Row and column group exponents of the blocks of a step; an invalid block has none (log 14). -/
def Pass.stepGroups (m : Memory) (p : Pass) : T4Step → List (Option Int) × List (Option Int)
  | .pair a b => ([p.blockGroup m a false, p.blockGroup m b false], [p.blockColGroup m a, p.blockColGroup m b])
  | .lone a => ([p.blockGroup m a false], [p.blockColGroup m a])
  | .full a => ([p.blockGroup m a true], [p.blockColGroup m a])
  | .invalid _ => ([], [])

/-- The groups that stand on the two sides of the reduction position of place `k` (R59). -/
def Pass.positionGroups (m : Memory) (p : Pass) (k : Nat) : List (Option Int) × List (Option Int) :=
  let rows4 (len : Nat) := (List.range 4).map (fun i => p.xGroup m ((groupOf k len).map (fun q => 4 * q + i)) (k / 32 * 4 + i))
  if p.isT4 then
    if p.wide then
      match chunkAt (p.wideSteps m) 0 k with
      | none => ([], [])
      | some (_, c, _) =>
        let gs := (c.flatMap id).map (p.stepGroups m)
        (gs.flatMap (·.1), gs.flatMap (·.2))
    else match (p.steps m)[k / 4]? with
      | none => ([], [])
      | some st => p.stepGroups m st
  else if p.op == 3 then
    (rows4 p.n, (List.range (if p.pairBit then 8 else 4)).map (fun f =>
      p.yGroup m ((groupOf k p.n).map (fun q => 8 * q + f)) (k / 32 * 8 + f)))
  else if p.shift then
    let e := k / immKw p.w * (immKw p.w + 3) + k % immKw p.w
    (rows4 (p.xElems / 4), (List.range 4).map (fun j => p.yGroup m (groupOf (e + j) p.yElems) ((e + j) / 32)))
  else if p.wide then
    ([p.yGroup m (groupOf k p.n) (k / 32)], (List.range 16).map (fun n =>
      p.xGroup m ((groupOf k p.n).map (fun q => 16 * q + n)) (k / 32 * 16 + n)))
  else
    (rows4 p.n, (List.range 4).map (fun j => p.yGroup m ((groupOf k p.n).map (fun q => 4 * q + j)) (k / 32 * 4 + j)))

/-- The anchor that the reduction position of place `k` gives, where it gives one (R59). -/
def Pass.anchorAt (m : Memory) (p : Pass) (k : Nat) : Option Int :=
  let g := p.positionGroups m k
  match maxOpt g.1, maxOpt g.2 with
  | some x, some y => some (x + y + 1)
  | _, _ => none

end Sys2Proof
end

