-- ==== Sys2Proof/Machine/CellArray.lean ====
section
/-! DEFINITION. The cell array (chapters 03 and 04): products into the window or the FP32 path, swaps, overflow and parity
restarts under R577, the protective copy. A function here takes a core and gives a core. -/
namespace Sys2Proof

/-! ### Sets and tiles -/

def Cell.cur (c : Cell) : CellSet := if c.inB then c.b else c.a
def Cell.setCur (c : Cell) (x : CellSet) : Cell := if c.inB then { c with b := x } else { c with a := x }
def Cell.part (c : Cell) (setB : Bool) : CellSet := if setB then c.b else c.a
def Cell.setPart (c : Cell) (setB : Bool) (x : CellSet) : Cell := if setB then { c with b := x } else { c with a := x }

def ArrayState.info (a : ArrayState) (setB : Bool) : TileInfo := if setB then a.infoB else a.infoA
def ArrayState.setInfo (a : ArrayState) (setB : Bool) (t : TileInfo) : ArrayState :=
  if setB then { a with infoB := t } else { a with infoA := t }

/-- A set's special flag is set in some cell (Table 03.7). -/
def ArrayState.anySpecial (a : ArrayState) (setB : Bool) : Bool :=
  a.cells.any (fun c => let p := c.part setB; p.nan || p.pinf || p.ninf)

/-- Tile status (Table 03.7). -/
def tileStatus (t : TileInfo) (special : Bool) : BitVec 16 :=
  BitVec.ofNat 16 (t.anchor.toNat * 64 + b2n special * 16 + b2n t.fb * 8 + t.rep.toNat * 2 + b2n t.ovf)

def TileInfo.anchorInt (t : TileInfo) : Int := t.anchor.toInt

/-- A new tile in a set (R59, R60, R152). -/
def TileInfo.opened (o : OpenTile) : TileInfo :=
  { live := true, wide := o.wide, accThrough := o.accThrough, int := o.int, fixed := o.int,
    anchor := if o.int then 34 else 0 }

/-! ### One product -/

/-- The special flags a product sets (R63): NaN, +infinity, -infinity; none for a finite product. -/
def specialOf (x y : FVal) : Option (Bool × Bool × Bool) :=
  match x, y with
  | .nan _ _, _ => some (true, false, false)
  | _, .nan _ _ => some (true, false, false)
  | .inf n, .inf k => some (false, n == k, n != k)
  | .inf n, .fin k m _ => if m == 0 then some (true, false, false) else some (false, n == k, n != k)
  | .fin n m _, .inf k => if m == 0 then some (true, false, false) else some (false, n == k, n != k)
  | .fin _ _ _, .fin _ _ _ => none

def CellSet.flag (c : CellSet) (f : Bool × Bool × Bool) : CellSet :=
  { c with nan := c.nan || f.1, pinf := c.pinf || f.2.1, ninf := c.ninf || f.2.2 }

/-- W on the window of 48 bits (R64). -/
def inWindow (w : Int) : Bool := decide (-(2 ^ 47 : Int) ≤ w) && decide (w < 2 ^ 47)

/-- A finite product on the grid of the window (R62). -/
def windowTerm (x y : FVal) (anchor : Int) (rnd : Rnd) : Int :=
  match x.mul y with
  | .fin n m e => let q := (roundGrid m e (anchor - 34) rnd).1; if n then -(q : Int) else q
  | _ => 0

/-- Enter one product: the set, the generator, and whether the sum leaves the window (R62 to R64, R67, R70). -/
def enterEntry (fast fb : Bool) (anchor : Int) (c : CellSet) (g : BitVec 64) : Entry → CellSet × BitVec 64 × Bool
  | .idle => (c, g, false)
  | .invalid => ({ c with nan := true }, if fast && !fb then (lfsrDraw g).2 else g, false)
  | .mul x y =>
    if fb then
      match specialOf x y with
      | some f => (c.flag f, g, false)
      | none => ({ c with w := BitVec.ofNat 48 (toF32 (FVal.fma x y (f32 c.w.toNat))) }, g, false)
    else
      let d := lfsrDraw g
      let g' := if fast then d.2 else g
      match specialOf x y with
      | some f => (c.flag f, g', false)
      | none =>
        let s := c.w.toInt + windowTerm x y anchor (if fast then .sr d.1 else .rn)
        (if inWindow s then { c with w := BitVec.ofInt 48 s } else c, g', !inWindow s)

/-! ### Swaps -/

/-- The other set can become active: no finished set waits in it and no earlier tile of it is still in the cells (R72). -/
def ArrayState.otherFree (a : ArrayState) (c : Cell) : Bool :=
  let other := !c.inB
  !(a.drains.any (fun d => d.setB == other && d.rows.any (· < 4))) &&
  !((a.passes.take c.pos).any (fun p => p.closes && p.setB == other))

/-- The cell ends its pass: it swaps when the pass closes the tile (R71), with the swap draw of R70, or waits (R72). -/
def ArrayState.endPass (a : ArrayState) (c : Cell) (p : Pass) : Cell :=
  if p.closes then
    if a.otherFree c then
      let d := lfsrDraw c.lfsr
      let c := c.setCur { c.cur with draw := BitVec.ofNat 16 d.1 }
      let c := { c with lfsr := d.2, inB := !c.inB, waits := false, pos := c.pos + 1, k := 0 }
      c.setCur {}
    else { c with waits := true }
  else { c with pos := c.pos + 1, k := 0, waits := false }

/-- A pass that a cell reaches is begun: the cell takes its restart latch (R65, R577). -/
def Cell.takeLatch (c : Cell) : Cell :=
  if c.latches.length ≤ c.pos then { c with latches := c.latches ++ [⟨c.inB, c.cur, c.lfsr⟩] } else c

/-- A cell passes over `MCLOSE` entries that it has reached (R154). -/
def ArrayState.passCloses (a : ArrayState) : Nat → Cell → Cell
  | 0, c => c
  | f + 1, c =>
    match a.passes[c.pos]? with
    | none => c
    | some p =>
      if p.isClose then
        let c' := a.endPass c.takeLatch p
        if c'.waits then c' else a.passCloses f c'
      else c

/-- Zero-product passes that are not `MCLOSE` do not exist; a pass whose places are all done ends for the cell. -/
def ArrayState.settleCell (a : ArrayState) (m : Memory) (c : Cell) : Cell :=
  match a.passes[c.pos]? with
  | none => c
  | some p =>
    if p.isClose then a.passCloses a.passes.length c
    else if p.started && p.len m ≤ c.k && 0 < c.k then
      let c' := a.endPass c p
      if c'.waits then c' else a.passCloses a.passes.length c'
    else c

/-- Enter up to `n` products of the cell's pass (R90); the number of the pass that overflows, if one does. -/
def ArrayState.enterN (a : ArrayState) (m : Memory) (fast : Bool) (cell : Nat) : Nat → Cell → Cell × Option Nat
  | 0, c => (c, none)
  | n + 1, c =>
    match a.passes[c.pos]? with
    | none => (c, none)
    | some p =>
      if !p.started || p.isClose || c.waits || p.len m ≤ c.k then (c, none)
      else
        let c := c.takeLatch
        let t := a.info p.setB
        let r := enterEntry fast t.fb t.anchorInt c.cur c.lfsr (p.entry m cell c.k)
        let c' := { (c.setCur r.1) with lfsr := r.2.1, k := c.k + 1 }
        if r.2.2 then (c', some c.pos) else a.enterN m fast cell n c'

/-! ### Anchors (R59) -/

/-- Fix the anchor of the tile of pass `i` when place `k` is its first reduction position that gives one. -/
def ArrayState.fixAnchor (a : ArrayState) (m : Memory) (i k : Nat) : ArrayState :=
  match a.passes[i]? with
  | none => a
  | some p =>
    let t := a.info p.setB
    if t.fixed || p.isClose || !p.started || p.len m ≤ k then a
    else match p.anchorAt m k with
      | none => a
      | some x => a.setInfo p.setB { t with fixed := true, anchor := BitVec.ofInt 10 x }

/-- Fix anchors for the places that cell `c` enters in a cycle. -/
def ArrayState.fixAnchorsFor (a : ArrayState) (m : Memory) (c : Cell) : ArrayState :=
  match a.passes[c.pos]? with
  | none => a
  | some p => (List.range p.perCycle).foldl (fun a i => a.fixAnchor m c.pos (c.k + i)) a

/-! ### Restart (R65 to R67, R113, R577) -/

/-- Restore the latch of pass `p`: the set of that pass, the generator, and the other set as the first later pass that used it
found it (R577). -/
def Cell.restore (c : Cell) (p : Nat) : Cell :=
  match c.latches[p]? with
  | none => c
  | some l =>
    let c := match (c.latches.drop (p + 1)).find? (fun q => q.inB != l.inB) with
      | some q => c.setPart q.inB q.set
      | none => c
    let c := c.setPart l.inB l.set
    { c with inB := l.inB, lfsr := l.lfsr, pos := p, k := 0, waits := false, latches := c.latches.take (p + 1) }

/-- Realign a restored cell by 8 bits, with one draw in fast mode, and take the latch again (R66, R70). -/
def Cell.realign (fast : Bool) (c : Cell) : Cell :=
  let d := lfsrDraw c.lfsr
  let w := c.cur.w.toInt
  let q := (roundGrid w.natAbs 0 8 (if fast then .sr d.1 else .rn)).1
  let c := c.setCur { c.cur with w := BitVec.ofInt 48 (if w < 0 then -(q : Int) else q) }
  let c := { c with lfsr := if fast then d.2 else c.lfsr }
  { c with latches := c.latches.set c.pos ⟨c.inB, c.cur, c.lfsr⟩ }

/-- A window value as FP32 to nearest even (R67). -/
def windowToF32 (w : BitVec 48) (anchor : Int) : Nat :=
  let i := w.toInt
  if i == 0 then 0 else toF32 (.fin (decide (i < 0)) i.natAbs (anchor - 34))

/-- Move a restored cell to the FP32 path (R67). -/
def Cell.toFp32 (anchor : Int) (c : Cell) : Cell :=
  let c := c.setCur { c.cur with w := BitVec.ofNat 48 (windowToF32 c.cur.w anchor) }
  { c with latches := c.latches.set c.pos ⟨c.inB, c.cur, c.lfsr⟩ }

/-- Every cell has reached pass `p` (R577). -/
def ArrayState.allReached (a : ArrayState) (p : Nat) : Bool := a.cells.all (fun c => p ≤ c.pos)

/-- Carry out a pending restart once every cell has reached its pass: restore, and on an overflow count, raise the anchor and
realign, or move to the FP32 path after three repeats (R65 to R67, R113, R577). -/
def Core.settleRestart (c : Core) : Core :=
  match c.arr.restart with
  | none => c
  | some r =>
    if r.settled || !c.arr.allReached r.pass then c
    else match c.arr.passes[r.pass]? with
      | none => { c with arr := { c.arr with restart := none } }
      | some p =>
        let a := { c.arr with cells := c.arr.cells.map (fun x => (if x.pos == r.pass then x.takeLatch else x).restore r.pass),
                              restart := some { r with settled := true } }
        let t := a.info p.setB
        match r.kind with
        | .overflow =>
          let p' := { p with overflows := p.overflows + 1 }
          let a := { a with passes := a.passes.set r.pass p' }
          let t := { t with ovf := true, repTotal := satInc t.repTotal 1,
                            rep := BitVec.ofNat 2 (min 3 (p.overflows.toNat + 1)) }
          let c := { c with repeats := satInc c.repeats 1 }
          if p.overflows.toNat < 3 then
            { c with arr := ({ a with cells := a.cells.map (Cell.realign (!c.exact)) }).setInfo p.setB
                       { t with anchor := t.anchor + 8 } }
          else
            { c with fallbacks := satInc c.fallbacks 1,
                     arr := ({ a with cells := a.cells.map (Cell.toFp32 t.anchorInt) }).setInfo p.setB { t with fb := true } }
        | _ => { c with arr := a }

/-- Ask for a restart of pass `p`; an earlier pass that restarts stands (R577). -/
def ArrayState.askRestart (a : ArrayState) (p : Nat) (k : DiscardKind) : ArrayState :=
  match a.restart with
  | some r => if r.pass ≤ p then a else { a with restart := some ⟨p, k, false⟩ }
  | none => { a with restart := some ⟨p, k, false⟩ }

/-! ### Protective copy (R81) -/

/-- Bits of 3 special flags per cell (Table 03.9). -/
def specialBits (cells : List CellSet) : Nat :=
  packBits 3 (cells.map (fun c => b2n c.nan + 2 * b2n c.pinf + 4 * b2n c.ninf))

/-- The 256-byte protective copy (Table 03.9). -/
def copyRecord (cells : List CellSet) (gens : List (BitVec 64)) (t : TileInfo) : List Byte :=
  let special := cells.any (fun c => c.nan || c.pinf || c.ninf)
  cells.flatMap (fun c => leBytes 6 c.w.toNat) ++ gens.flatMap (fun g => leBytes 8 g.toNat) ++
  leBytes 2 (tileStatus t special).toNat ++ leBytes 6 (specialBits cells) ++ leBytes 4 t.mb.toNat ++
  leBytes 2 t.repTotal.toNat ++ leBytes 1 (b2n t.fixed + 2 * b2n t.wide) ++ List.replicate 17 0

/-- Copy offset and micro-batch number of a `.MB` pass (R153). -/
def Pass.copyOffset (p : Pass) : Nat := bits p.mv.toNat 0 12
def Pass.microBatch (p : Pass) : Nat := bits p.mv.toNat 16 16

/-- Write the protective copy of pass `i` once every cell has its restart latch (R81). -/
def Core.writeCopy (c : Core) (i : Nat) : Core :=
  match c.arr.passes[i]? with
  | none => c
  | some p =>
    if !p.mb || p.copied || !p.started || !c.arr.cells.all (fun x => i < x.latches.length) then c
    else
      let ls := c.arr.cells.map (fun x => nth ⟨false, {}, 1⟩ x.latches i)
      let t := { c.arr.info p.setB with mb := BitVec.ofNat 32 p.microBatch, copy := some (BitVec.ofNat 12 p.copyOffset) }
      let a := { c.arr with passes := c.arr.passes.set i { p with copied := true } }
      { c with arr := a.setInfo p.setB t,
               scratch := c.scratch.write p.copyOffset (copyRecord (ls.map (·.set)) (ls.map (·.lfsr)) t) }

def Core.writeCopies (c : Core) : Core := (List.range c.arr.passes.length).foldl Core.writeCopy c

/-! ### Ends of passes -/

/-- The oldest pass has ended in all 16 cells: it leaves the list, and a tile that it closes goes to the drain (R72, R79). -/
def Core.retire (c : Core) : Core :=
  match c.arr.passes with
  | [] => c
  | p :: ps =>
    if !c.arr.cells.all (fun x => 0 < x.pos) then c
    else
      let a := c.arr
      let t := a.info p.setB
      let t := if p.isClose || (t.fb && p.overflows == 0) then t
        else { t with rep := BitVec.ofNat 2 (min 3 p.overflows.toNat) }
      let a : ArrayState := { a with
        passes := ps
        cells := a.cells.map (fun (x : Cell) => { x with pos := x.pos - 1, latches := x.latches.drop 1 })
        restart := a.restart.map (fun (r : Restart) => { r with pass := r.pass - 1 }) }
      if p.closes then
        let t := { t with special := a.anySpecial p.setB }
        let a := a.setInfo p.setB {}
        if t.bad then
          { c with arr := { a with cells := a.cells.map (fun x => x.setPart p.setB {}) } }
        else { c with arr := { a with drains := a.drains ++ [{ setB := p.setB, info := t, drec := p.drec, index := p.index }] } }
      else { c with arr := a.setInfo p.setB t }

def Core.retireAll : Nat → Core → Core
  | 0, c => c
  | n + 1, c => Core.retireAll n c.retire

/-! ### Product cycles (R101, R102) -/

/-- Products a cell has entered, counted over the passes of the list (log 11). -/
def ArrayState.progress (a : ArrayState) (m : Memory) (c : Cell) : Nat :=
  ((a.passes.take c.pos).map (fun p => p.len m)).foldl (· + ·) 0 + c.k

def minList : List Nat → Nat
  | [] => 0
  | [x] => x
  | x :: xs => min x (minList xs)

/-- Lines (rows or columns) that run in a cycle: fed, and at most 4 products ahead of the slowest afterwards (R102). -/
def linesRun (prog : List Nat) (dry : BitVec 4) (step : Nat) : List Bool :=
  let after := (List.range 4).map (fun i => nth 0 prog i + (if dry.getLsbD i then 0 else step))
  (List.range 4).map (fun i => !dry.getLsbD i && decide (nth 0 prog i + step ≤ minList after + 4))

/-- Whether cell `n` may enter in this cycle: its row and its column run. While a restart is pending only cells behind the
restarted pass go on (R577); while a swap waits only the cells that still hold the set it needs go on (R72, log 15). -/
def ArrayState.mayEnter (a : ArrayState) (rows cols : List Bool) (n : Nat) (c : Cell) : Bool :=
  nth false rows (n / 4) && nth false cols (n % 4) &&
  (match a.restart with
    | some r => !r.settled && decide (c.pos < r.pass)
    | none => true) &&
  (if a.cells.any (·.waits) then
     a.cells.any (fun w => w.waits && (a.passes.drop c.pos).any (fun p => p.closes && p.setB != w.inB) && decide (c.pos < w.pos))
   else true)

/-- One product cycle (R62, R90, R101): anchors, products, ends of passes, overflow. -/
def Core.productCycle (c : Core) (dryRows dryCols : BitVec 4) : Core :=
  let m := c.scratch
  let a := c.arr
  let progs := a.cells.map (a.progress m)
  let rowProg := (List.range 4).map (fun i => minList ((List.range 4).map (fun j => nth 0 progs (4 * i + j))))
  let colProg := (List.range 4).map (fun j => minList ((List.range 4).map (fun i => nth 0 progs (4 * i + j))))
  let step := match a.passes[minList (a.cells.map (·.pos))]? with
    | some p => if (a.info p.setB).fb then 1 else p.perCycle
    | none => 1
  let rows := linesRun rowProg dryRows step
  let cols := linesRun colProg dryCols step
  let idx := List.range 16
  let runs := idx.map (fun n => a.mayEnter rows cols n (nth {} a.cells n))
  let a := (idx.filter (nth false runs)).foldl (fun a n => a.fixAnchorsFor m (nth {} a.cells n)) a
  let rs := idx.map (fun n =>
    let x := nth {} a.cells n
    if nth false runs n then
      let per := match a.passes[x.pos]? with
        | some p => if (a.info p.setB).fb then 1 else p.perCycle
        | none => 1
      let r := a.enterN m (!c.exact) n per x
      if r.2.isSome then r else (a.settleCell m r.1, none)
    else (x, none))
  let a := { a with cells := rs.map (·.1) }
  let a := match (rs.filterMap (·.2)) with
    | [] => a
    | os => a.askRestart (minList os) .overflow
  let c := { c with arr := a }
  let c := c.writeCopies
  let c := c.settleRestart
  c.retireAll c.arr.passes.length

/-- An attempt of the oldest pass runs: some cell has begun it, and it has not ended everywhere (R113). -/
def ArrayState.attemptRuns (a : ArrayState) : Bool :=
  match a.passes with
  | [] => false
  | p :: _ => p.started && !p.isClose && a.cells.any (fun c => 0 < c.latches.length)

end Sys2Proof
end

