-- ==== Sys2Proof/Machine/Flags.lean ====
section
/-! DEFINITION. The functions of Table 05.3 with their special results and flags (R126 to R128). -/
namespace Sys2Proof

/-- The exact result of a function where it is a dyadic number, for a finite operand (R128). -/
def funcExact (f : FuncId) (neg : Bool) (m : Nat) (e : Int) : Option FVal :=
  let k := Nat.log2 m
  let pow2 := m == 2 ^ k
  let l := (k : Int) + e
  match f with
  | .exp2 =>
    if m == 0 then some .one
    else if 0 ≤ e || m % 2 ^ (-e).toNat == 0 then
      let n : Int := if 0 ≤ e then (m <<< e.toNat : Nat) else (m >>> (-e).toNat : Nat)
      if n ≤ 200 then some (.fin false 1 (if neg then -n else n)) else none
    else none
  | .exp => if m == 0 then some .one else none
  | .log2 => if pow2 && !neg then some (.ofInt l) else none
  | .log => if pow2 && !neg && l == 0 then some .zero else none
  | .rcp => if pow2 then some (.fin neg 1 (-l)) else none
  | .rsqrt => if pow2 && !neg && l % 2 == 0 then some (.fin false 1 (-(l / 2))) else none
  | .sigm => if m == 0 then some (.fin false 1 (-1)) else none
  | _ => if m == 0 then some (.fin neg 0 0) else none

/-- The result that Table 05.3 states for an FP32 operand, with its flags; none where it only bounds the result. -/
def funcSpecial (f : FuncId) (x : FVal) : Option (Nat × Flags) :=
  let pinf := 0x7F800000
  let ninf := 0xFF800000
  let one := 0x3F800000
  let qnan := 0x7FC00000
  match x with
  | .nan _ s => some (qnan, if s then flagNV else 0)
  | .inf n =>
    match f with
    | .exp2 => some (if n then 0 else pinf, 0)
    | .exp => some (if n then 0 else pinf, 0)
    | .log2 => some (if n then (qnan, flagNV) else (pinf, 0))
    | .log => some (if n then (qnan, flagNV) else (pinf, 0))
    | .rcp => some (if n then 0x80000000 else 0, 0)
    | .rsqrt => some (if n then (qnan, flagNV) else (0, 0))
    | .erf => some (if n then 0xBF800000 else one, 0)
    | .tanh => some (if n then 0xBF800000 else one, 0)
    | .sigm => some (if n then 0 else one, 0)
    | .silu => some (if n then 0x80000000 else pinf, 0)
    | .gelu => some (if n then 0x80000000 else pinf, 0)
  | .fin n m e =>
    let ge (k : Nat) : Bool := !(FVal.fin false m e).lt (.fin false k 0)
    match f with
    | .exp2 => if ge 128 && !n then some (pinf, flagOF ||| flagNX) else none
    | .exp => if ge 89 && !n then some (pinf, flagOF ||| flagNX) else none
    | .log2 => if m == 0 then some (ninf, 0) else if n then some (qnan, flagNV) else none
    | .log => if m == 0 then some (ninf, 0) else if n then some (qnan, flagNV) else none
    | .rcp => if m == 0 then some (if n then ninf else pinf, 0) else none
    | .rsqrt => if m == 0 then some (if n then ninf else pinf, 0) else if n then some (qnan, flagNV) else none
    | .tanh => if ge 10 then some (if n then 0xBF800000 else one, flagNX) else none
    | .sigm =>
      if ge 17 && !n then some (one, flagNX)
      else if ge 104 && n then some (0, flagNX ||| flagUF) else none
    | _ => none

/-- FP32 result bits and flags of a function on FP32 bits: the table's special results, else the fixed function of the input
bits that the spec does not state (R127, log 13). NX unless the result is exact, OF and UF by the result (R128). -/
def funcF32 (f : FuncId) (x : Nat) : Nat × Flags :=
  match funcSpecial f (f32 x) with
  | some r => r
  | none =>
    let y := (Config.func f (BitVec.ofNat 32 x)).toNat
    match f32 x with
    | .fin n m e =>
      let exact := match funcExact f n m e with
        | some v => !(f32 y).isNan && !v.lt (f32 y) && !(f32 y).lt v
        | none => false
      let inexact : Flags := if exact then 0 else flagNX
      match f32 y with
      | .inf _ => (y, flagOF ||| flagNX)
      | .fin _ _ _ => (y, inexact ||| (if !exact && y % 2 ^ 31 < 0x00800000 then flagUF else 0))
      | .nan _ _ => (y, inexact)
    | _ => (y, 0)

/-- Square root, correctly rounded to nearest even in FP32 (Table 05.3). -/
def sqrtF32 (x : Nat) : Nat × Flags :=
  match f32 x with
  | .nan _ s => (0x7FC00000, if s then flagNV else 0)
  | .inf n => if n then (0x7FC00000, flagNV) else (0x7F800000, 0)
  | .fin n m e =>
    if m == 0 then (if n then 0x80000000 else 0, 0)
    else if n then (0x7FC00000, flagNV)
    else toF32F (sqrtFin m e)

/-- e^x in FP32 bits, as `VEXP` gives it (R127). -/
def expF32 (x : Nat) : Nat := (funcF32 .exp x).1

end Sys2Proof
end

