-- ==== Sys2Proof/Machine/Drain.lean ====
section
/-! DEFINITION. The drain path (R72 to R79, R132, R133, R153 to R155, R575, R576) and norm slots (R78). -/
namespace Sys2Proof

/-! ### Drain record (Table 06.7) -/

def drScale (r : List Byte) : Nat := fieldLe r 0 4
def drColScales (r : List Byte) : Nat := fieldLe r 4 2
def drBias (r : List Byte) : Nat := fieldLe r 6 2
def drActivation (r : List Byte) : Nat := fieldLe r 8 1
def drChainLen (r : List Byte) : Nat := bits (fieldLe r 9 1) 0 3
def drFmt (r : List Byte) : Fmt := (Fmt.ofCode (bits (fieldLe r 10 1) 0 4)).getD .fp32
def drSr (r : List Byte) : Bool := bitAt (fieldLe r 10 1) 4
def drSat (r : List Byte) : Bool := bitAt (fieldLe r 10 1) 5
def drNormSlot (r : List Byte) : Nat := bits (fieldLe r 11 1) 0 2
def drNormOn (r : List Byte) : Bool := bitAt (fieldLe r 11 1) 2
def drToScratch (r : List Byte) : Bool := fieldLe r 12 1 == 1
def drOutput (r : List Byte) : Nat := fieldLe r 14 2
def drValid (r : List Byte) (k : Nat) : Bool := bitAt (fieldLe r 16 2) k
def drChainOp (r : List Byte) (i : Nat) : Nat := fieldLe r (32 + 8 * i) 1
def drChainFmt (r : List Byte) (i : Nat) : Fmt := (Fmt.ofCode (bits (fieldLe r (33 + 8 * i) 1) 0 4)).getD .fp32
def drChainTile (r : List Byte) (i : Nat) : Nat := fieldLe r (34 + 8 * i) 2
def drChainConst (r : List Byte) (i : Nat) : Nat := fieldLe r (36 + 8 * i) 4

/-- A record with no reserved value in a defined field and zero reserved bytes and bits (R154). -/
def drainRecordOk (r : List Byte) : Bool :=
  drActivation r ≤ 5 && fieldLe r 9 1 ≤ 4 && bits (fieldLe r 10 1) 0 4 ≤ 8 && bits (fieldLe r 10 1) 6 2 == 0 &&
  fieldLe r 11 1 < 8 && fieldLe r 12 1 ≤ 1 && zeroBytes r 13 1 && zeroBytes r 18 14 &&
  (List.range (drChainLen r)).all (fun i =>
    let op := drChainOp r i
    1 ≤ op && op ≤ 6 && (2 < op || bits (fieldLe r (33 + 8 * i) 1) 0 4 ≤ 8))

/-- Bytes of a tile of 16 elements in scratchpad (R575). -/
def tileBytes (f : Fmt) : Nat := f.elemBytes 16 + (if f.isMx then 1 else 0)

/-- Scratchpad ranges that a drain reads and the range it writes (R146). -/
def drainReads (r : List Byte) (wide : Bool) : List (Nat × Nat) :=
  let v := if wide then 64 else 16
  (if drColScales r == 0xFFFF then [] else [(drColScales r, v)]) ++
  (if drBias r == 0xFFFF then [] else [(drBias r, v)]) ++
  ((List.range (min 4 (drChainLen r))).filter (fun i => 1 ≤ drChainOp r i && drChainOp r i ≤ 2)).map (fun i => (drChainTile r i, tileBytes (drChainFmt r i)))
def drainWrites (r : List Byte) : List (Nat × Nat) :=
  if drToScratch r then [(drOutput r, tileBytes (drFmt r))] else []

/-! ### Steps 1 to 4 (R73 to R76) -/

/-- An FP32 value is a power of two (R74, R155). -/
def isPow2F32 (x : Nat) : Bool :=
  match f32 x with
  | .fin n m _ => !n && m != 0 && m == 2 ^ Nat.log2 m
  | _ => false

/-- The scales a tile applies (R155). -/
def tileScales (m : Memory) (r : List Byte) (wide : Bool) : List Nat :=
  if drColScales r == 0xFFFF then [drScale r]
  else (List.range (if wide then 16 else 4)).map (fun j => m.readLe (drColScales r + 4 * j) 4)

/-- Only exact steps are selected: power-of-two scales, no bias, no activation or ReLU, no chain (R74). -/
def onlyExact (m : Memory) (r : List Byte) (wide : Bool) : Bool :=
  (tileScales m r wide).all isPow2F32 && drBias r == 0xFFFF && drActivation r ≤ 1 && drChainLen r == 0

/-- The value of a cell at entry to the drain path (R55, R67, R76). -/
def drainEntry (t : TileInfo) (s : CellSet) : FVal :=
  if s.nan || (s.pinf && s.ninf) then .nan false false
  else if s.pinf then .inf false
  else if s.ninf then .inf true
  else if t.fb then f32 s.w.toNat
  else
    let i := s.w.toInt
    .fin (decide (i < 0)) i.natAbs (t.anchorInt - 34)

/-- ReLU: a negative value becomes +0, NaN stays (R74). -/
def relu (v : FVal) : FVal :=
  match v with
  | .nan n s => .nan n s
  | w => if w.negative then .zero else w

/-- Step 3 on an FP32 value (R75). -/
def activate (code : Nat) (v : FVal) : FVal :=
  match code with
  | 1 => relu v
  | 2 => f32 (funcF32 .gelu (toF32 v)).1
  | 3 => f32 (funcF32 .silu (toF32 v)).1
  | 4 => f32 (funcF32 .tanh (toF32 v)).1
  | 5 => f32 (funcF32 .sigm (toF32 v)).1
  | _ => v

/-- Element `k` of a tile in scratchpad, decoded exactly (R575). -/
def tileElem (m : Memory) (f : Fmt) (base k : Nat) : FVal :=
  decodeScaled f (m.get (base + f.elemBytes 16)).toNat (elemAt m f base k)

/-- One chain operation, rounded to FP32 (Table 03.5). -/
def chainStep (m : Memory) (r : List Byte) (k i : Nat) (v : FVal) : FVal :=
  let t := tileElem m (drChainFmt r i) (drChainTile r i) k
  let c := f32 (drChainConst r i)
  match drChainOp r i with
  | 1 => roundF32 (v.add t)
  | 2 => roundF32 (v.mul t)
  | 3 => roundF32 (v.add c)
  | 4 => roundF32 (v.mul c)
  | 5 => v.max c
  | _ => v.min c

/-- Value number of a cell in the tile (R99, R132). -/
def outIndex (t : TileInfo) (cell : Nat) : Nat :=
  if t.t4Order then
    let r := cell / 4
    let c := cell % 4
    if c < 2 then 2 * r + c else 8 + 2 * r + (c - 2)
  else cell

/-- Steps 1 to 4 for the value of a cell (R73, R74). -/
def drainValue (m : Memory) (d : Drain) (v : DrainVal) : FVal :=
  let r := d.drec
  let t := d.info
  let k := outIndex t v.cell
  let scale := nth 0x3F800000 (tileScales m r t.wide) (if drColScales r == 0xFFFF then 0 else if t.wide then v.cell else v.cell % 4)
  let x := drainEntry t v.set
  if onlyExact m r t.wide && !t.fb then
    let y := match x, f32 scale with
      | .fin n a e, .fin _ b f => .fin n (a * b) (e + f)
      | w, _ => w
    if drActivation r == 1 then relu y else y
  else
    let x := roundF32 x
    let x := if scale == 0x3F800000 then x else roundF32 (x.mul (f32 scale))
    let x := if drBias r == 0xFFFF then x
      else roundF32 (x.add (f32 (m.readLe (drBias r + 4 * (if t.wide then v.cell else v.cell % 4)) 4)))
    let x := activate (drActivation r) x
    (List.range (drChainLen r)).foldl (fun x i => chainStep m r k i x) x

/-! ### Norm slots (R78) -/

/-- Add one value to a norm slot. -/
def NormSlot.add (s : NormSlot) (v : FVal) : NormSlot :=
  match v with
  | .fin _ m e =>
    let q := (roundGrid (m * m) (2 * e) (-64) .rn).1
    let sum := s.sumsq.toNat + q
    let sat := decide (2 ^ 128 ≤ sum)
    let mag := (encodeMag .fp32 m e .rn true).1
    { s with sumsq := BitVec.ofNat 128 (if sat then 2 ^ 128 - 1 else sum), sat := s.sat || sat,
             maxmag := if s.maxmag.toNat < mag then BitVec.ofNat 32 mag else s.maxmag }
  | _ => { s with nonfinite := satInc s.nonfinite 1 }

/-- Repeats and fallback of a tile, once at its drain (R78). -/
def NormSlot.addTile (s : NormSlot) (t : TileInfo) : NormSlot :=
  { s with repeats := satInc s.repeats t.repTotal.toNat, fallbacks := satInc s.fallbacks (b2n t.fb) }

def NormSlot.isZero (s : NormSlot) : Bool :=
  s.sumsq == 0 && !s.sat && s.nonfinite == 0 && s.maxmag == 0 && s.repeats == 0 && s.fallbacks == 0

def Core.modNorm (c : Core) (i : Nat) (f : NormSlot → NormSlot) : Core := { c with norms := modNth c.norms i f }

/-! ### Reading a finished set (R72, R133) -/

/-- The drain job whose set is still being read. -/
def ArrayState.readingDrain (a : ArrayState) : Option Nat := a.drains.findIdx? (fun d => d.rows.any (· < 4))

/-- Columns that a read takes: not held and not finished. -/
def readCols (d : Drain) (held : BitVec 4) : List Nat :=
  (List.range 4).filter (fun j => !held.getLsbD j && decide (nth 4 d.rows j < 4))

/-- Reserve a queue entry for a drain to the tile queue (R133). -/
def Core.reserveEntry (c : Core) (i : Nat) (d : Drain) : Option Core :=
  if drToScratch d.drec || d.reserved then some c
  else if c.tq.length < 4 then
    some { c with
      tq := c.tq ++ [{ vals := List.replicate 16 0, fmt := BitVec.ofNat 4 (drFmt d.drec).code,
                       status := tileStatus d.info d.info.special, wide := d.info.wide, visible := false }],
      arr := { c.arr with drains := c.arr.drains.set i { d with reserved := true } } }
  else none

/-- One read of a finished set: a cell per column that accepts, cleared as it is read (R72, R103). -/
def Core.drainRead (c : Core) (held : BitVec 4) : Core :=
  match c.arr.readingDrain with
  | none => c
  | some i =>
    match c.arr.drains[i]? with
    | none => c
    | some d =>
      let cols := readCols d held
      if cols.isEmpty then c
      else match c.reserveEntry i d with
        | none => c
        | some c =>
          let d := (c.arr.drains[i]?).getD d
          let take (j : Nat) : DrainVal :=
            let n := 4 * nth 0 d.rows j + j
            ⟨n, (nth {} c.arr.cells n).part d.setB⟩
          let cells := cols.foldl (fun cs j => modNth cs (4 * nth 0 d.rows j + j) (fun x => x.setPart d.setB {})) c.arr.cells
          let d' := { d with pipe := d.pipe ++ cols.map take, rows := cols.foldl (fun rs j => modNth rs j (· + 1)) d.rows }
          { c with arr := { c.arr with cells := cells, drains := c.arr.drains.set i d' } }

/-! ### Output of steps 5 and 6 (R77, R132, R575, R576) -/

/-- Write the encoding of element `k` of a tile at `base` (R41, R575). -/
def writeElem (m : Memory) (f : Fmt) (base k code : Nat) : Memory :=
  if f.width == 4 then
    let a := base + k / 2
    let old := (m.get a).toNat
    m.set a (BitVec.ofNat 8 (if k % 2 == 0 then old / 16 * 16 + code % 16 else old % 16 + 16 * (code % 16)))
  else m.writeLe (base + f.elemBytes k) (f.width / 8) code

/-- Change the oldest queue entry that is still being filled (R133). -/
def fillEntry (tq : List TqEntry) (f : TqEntry → TqEntry) : List TqEntry :=
  match tq.findIdx? (fun e => !e.visible) with
  | none => tq
  | some i => modNth tq i f

/-- Deliver one converted value to its destination. -/
def Core.deliver (c : Core) (d : Drain) (k code : Nat) : Core :=
  if drToScratch d.drec then { c with scratch := writeElem c.scratch (drFmt d.drec) (drOutput d.drec) k code }
  else { c with tq := fillEntry c.tq (fun e => { e with vals := e.vals.set k (BitVec.ofNat 32 code) }) }

/-- Deliver a quantised tile of 16 values with its scale (R576). -/
def Core.deliverMx (c : Core) (d : Drain) (scale : Nat) (codes : List Nat) : Core :=
  if drToScratch d.drec then
    { c with scratch := (c.scratch.write (drOutput d.drec) (packElems (drFmt d.drec) codes)).writeLe
               (drOutput d.drec + (drFmt d.drec).elemBytes 16) 1 scale }
  else { c with tq := fillEntry c.tq (fun e =>
           { e with vals := codes.map (BitVec.ofNat 32), scale := BitVec.ofNat 8 scale }) }

/-- Step 6 for a value that leaves step 5. -/
def Core.normValue (c : Core) (d : Drain) (v : FVal) : Core :=
  if drNormOn d.drec then c.modNorm (drNormSlot d.drec) (fun s => s.add v) else c

/-- The tile has delivered its 16 values: its entry becomes visible and its repeats reach the norm slot (R78, R133). -/
def Core.finishDrain (c : Core) (i : Nat) (d : Drain) : Core :=
  let c := if drToScratch d.drec then c else { c with tq := fillEntry c.tq (fun e => { e with visible := true }) }
  let c := if drNormOn d.drec then c.modNorm (drNormSlot d.drec) (fun s => s.addTile d.info) else c
  { c with arr := { c.arr with drains := c.arr.drains.eraseIdx i } }

/-- Steps 1 to 6 for the oldest value of drain `i`. -/
def Core.outputValue (c : Core) (i : Nat) (d : Drain) (v : DrainVal) (rest : List DrainVal) : Core :=
  let k := outIndex d.info v.cell
  let ok := drValid d.drec k
  let x := if ok then drainValue c.scratch d v else .zero
  let draw := v.set.draw
  let f := drFmt d.drec
  let rnd (r : BitVec 16) : Rnd := if drSr d.drec then .sr r.toNat else .rn
  let d := { d with pipe := rest, done := d.done + 1 }
  if f.isMx then
    let d := { d with gather := tblSet d.gather k (x, draw) }
    if d.done < 16 then { c with arr := { c.arr with drains := c.arr.drains.set i d } }
    else
      let vs := (List.range 16).map (fun k => tblGet (FVal.zero, 0) d.gather k)
      let q := mxQuantise f (vs.map (fun p => (p.1, rnd p.2))) (drSat d.drec)
      let c := { c with cvt := c.cvt ||| q.2.2 }
      let c := c.deliverMx d q.1 q.2.1
      let c := ((List.range 16).filter (drValid d.drec)).foldl
        (fun c k => c.normValue d (decodeScaled f q.1 (nth 0 q.2.1 k))) c
      c.finishDrain i d
  else
    let r := encode f x (rnd draw) (drSat d.drec)
    let c := if ok then { c with cvt := c.cvt ||| r.2 } else c
    let c := c.deliver d k r.1
    let c := if ok then c.normValue d (decode f r.1) else c
    if d.done < 16 then { c with arr := { c.arr with drains := c.arr.drains.set i d } } else c.finishDrain i d

/-- The oldest value of the pipeline leaves it (R77). -/
def Core.drainOutput (c : Core) : Core :=
  match c.arr.drains.findIdx? (fun d => !d.pipe.isEmpty) with
  | none => c
  | some i =>
    match c.arr.drains[i]? with
    | none => c
    | some d =>
      match d.pipe with
      | [] => c
      | v :: rest => c.outputValue i d v rest

end Sys2Proof
end

