-- ==== Sys2Proof/Machine/ArrayEvents.lean ====
section
/-! DEFINITION. Events of the array of a core: pass start, product entry, restarts, deferred swap, drain reads, array faults and
the restoration of a tile (R71, R72, R91, R110, R113, R114, R536). -/
namespace Sys2Proof

/-! ### Array faults (R114, R163, R164) -/

/-- Record an exception in EXC unless one stands, and stop issue (R163, R164). -/
def Core.raise (c : Core) (cause code : Nat) (index : BitVec 11) : Core :=
  if c.excCause == 0 then
    { c with excCause := BitVec.ofNat 8 cause, excCode := BitVec.ofNat 8 code, excIndex := index, halted := true }
  else { c with halted := true }

/-- Discard pass `p` of the list: every cell that has begun it returns to its latch, and the pass leaves the list, or stays as a
closing without products (R114). Its tile is not drained. -/
def ArrayState.discardPass (a : ArrayState) (p : Nat) : ArrayState :=
  match a.passes[p]? with
  | none => a
  | some q =>
    let cells := a.cells.map (fun (x : Cell) => x.restore p)
    let a := a.setInfo q.setB { a.info q.setB with bad := true }
    if q.closes then
      let a := { a with passes := a.passes.set p { q with op := 4, w := { q.w with mod := 0 } }, restart := none }
      { a with cells := cells.map (fun (x : Cell) => a.passCloses a.passes.length x) }
    else
      { a with passes := a.passes.eraseIdx p, restart := none,
               cells := cells.map (fun (x : Cell) => { x with latches := x.latches.take p ++ x.latches.drop (p + 1) }) }

/-- An array fault of a tile (R114): restoration is asked for when the tile is accumulate-through, holds a copy and EXC is clear;
otherwise `lost` discards the work, cause 0x0A is recorded and the core stops. -/
def Core.arrayFault (c : Core) (t : TileInfo) (index : BitVec 11) (lost : Core → Core) : Core :=
  if t.accThrough && t.copy.isSome && c.excCause == 0 && !t.restored then { c with restorePend := true }
  else if t.accThrough && t.copy.isSome && c.excCause == 0 then { c with restorePend := true, failed := true }
  else (lost c).raise 0x0A 0 index

/-- Array fault of pass `p` of the list. -/
def Core.passFault (c : Core) (p : Nat) : Core :=
  match c.arr.passes[p]? with
  | none => c
  | some q => c.arrayFault (c.arr.info q.setB) q.index (fun c => { c with arr := c.arr.discardPass p })

/-! ### Pass start (R91) -/

/-- The oldest pass that has not reached its first product cycle. -/
def ArrayState.nextPass (a : ArrayState) : Option Nat := a.passes.findIdx? (fun p => !p.started && !p.isClose)

/-- Pass `i` can start: the array is not held, fewer than three passes run, and some cell has come to it (R91, R577). -/
def Core.canStart (c : Core) (i : Nat) : Bool :=
  c.arr.restart.isNone && !c.restorePend && c.preempt == .none &&
  decide ((c.arr.passes.filter (·.started)).length < 3) && c.arr.cells.any (fun x => x.pos == i && !x.waits)

/-- The pass reaches its first product cycle: the tile opens, and the cells that stand at it take their latches. -/
def Core.startPass (c : Core) (i : Nat) (p : Pass) : Core :=
  let a := c.arr
  let o : OpenTile := ⟨p.wide, modBit p.w 3, p.fx.isInt⟩
  let a := if p.opens then a.setInfo p.setB (TileInfo.opened o) else a
  let a := if p.op == 3 then a.setInfo p.setB { a.info p.setB with t4Order := p.t4Order c.scratch } else a
  let a := { a with passes := a.passes.set i { p with started := true },
                    cells := a.cells.map (fun (x : Cell) => if x.pos == i then x.takeLatch else x) }
  ({ c with arr := a }).writeCopies

/-- PASS_START with its parity check: an operand read early is read again and counts in RESTART, an error of the active set is an
array fault (R113, R114). -/
def Core.passStart (c : Core) (par : ParityHit) : Core :=
  match c.arr.nextPass with
  | none => c
  | some i =>
    match c.arr.passes[i]? with
    | none => c
    | some p =>
      if !c.canStart i then c
      else match par with
        | .buffer => { c with restarts := satInc c.restarts 1 }
        | .set => (c.startPass i p).passFault i
        | _ => c.startPass i p

/-! ### Product entry -/

/-- The array is held by a restoration or by a settled restart (R113, R114). -/
def Core.arrayHeld (c : Core) : Bool :=
  c.restorePend || (match c.arr.restart with
    | some r => r.settled
    | none => false)

/-- A parity error in the cycle of an attempt (R113, R114). -/
def Core.parityHit (c : Core) (par : ParityHit) : Core :=
  match c.arr.passes with
  | [] => c
  | p :: ps =>
    if !c.arr.attemptRuns then
      (match par with
        | .buffer => { c with restarts := satInc c.restarts 1 }
        | _ => c)
    else if p.parity then c.passFault 0
    else
      let a := { c.arr with passes := { p with parity := true } :: ps }
      ({ c with restarts := satInc c.restarts 1, arr := a.askRestart 0 .parity }).settleRestart

/-- A restart that settles in this cycle reads the latches. -/
def Core.restartPending (c : Core) : Bool :=
  match c.arr.restart with
  | some r => !r.settled
  | none => false

/-- PRODUCT_ENTRY (R62, R113, R114): in a cycle that restores from the latches an error of a latch is an array fault; an error of
the active set or of an operand buffer in an attempt discards the attempt. -/
def Core.productEntry (c : Core) (dryRows dryCols : BitVec 4) (par : ParityHit) : Core :=
  if c.arrayHeld then c
  else match par with
    | .clean => c.productCycle dryRows dryCols
    | .latch =>
      let c' := c.productCycle dryRows dryCols
      if (c.restartPending || c'.arrayHeld) && c'.arr.restart.isSome && !c'.restartPending then
        c'.passFault ((c'.arr.restart.map (·.pass)).getD 0)
      else c'
    | p => if c.arr.attemptRuns then c.parityHit p else c.productCycle dryRows dryCols |>.parityHit p

/-- The repeated attempt enters its first product (R66). -/
def Core.overflowRepeat (c : Core) : Core :=
  match c.arr.restart with
  | some r =>
    if r.settled && r.kind == .overflow && !c.restorePend && c.preempt == .none then
      ({ c with arr := { c.arr with restart := none } }).productCycle 0 0
    else c
  | none => c

/-- The pass starts again from its first product after a parity error (R113). -/
def Core.parityRestart (c : Core) : Core :=
  match c.arr.restart with
  | some r =>
    if r.settled && r.kind == .parity && !c.restorePend && c.preempt == .none then
      ({ c with arr := { c.arr with restart := none } }).productCycle 0 0
    else c
  | none => c

/-- A waiting swap takes place once the set to become active has been read (R72). -/
def Core.deferredSwap (c : Core) : Core :=
  if c.arrayHeld then c
  else
    let a := c.arr
    let cells := a.cells.map (fun (x : Cell) =>
      if x.waits then
        match a.passes[x.pos]? with
        | some p =>
          let y := a.endPass x p
          if y.waits then y else a.passCloses a.passes.length y
        | none => x
      else x)
    let c := { c with arr := { a with cells := cells } }
    c.retireAll c.arr.passes.length

/-! ### Drain -/

/-- DRAIN_READ with its parity check: an error of a finished set loses the tile (R113, R114). -/
def Core.drainReadEvent (c : Core) (held : BitVec 4) (par : ParityHit) : Core :=
  if c.restorePend then c
  else match par with
    | .set =>
      match c.arr.readingDrain with
      | none => c
      | some i =>
        match c.arr.drains[i]? with
        | none => c
        | some d => c.arrayFault d.info d.index (fun c =>
            { c with
              tq := if d.reserved then c.tq.filter (·.visible) else c.tq,
              arr := { c.arr with drains := c.arr.drains.eraseIdx i,
                                  cells := c.arr.cells.map (fun (x : Cell) => x.setPart d.setB {}) } })
    | _ => c.drainRead held

def Core.drainOutputEvent (c : Core) : Core := if c.restorePend then c else c.drainOutput

/-! ### Closing and idleness -/

/-- Add a pass to the list; cells that stand at a `MCLOSE` swap at once (R154). -/
def Core.pushPass (c : Core) (p : Pass) : Core :=
  let a := { c.arr with passes := c.arr.passes ++ [p] }
  let a := if p.isClose then
      { a with cells := a.cells.map (fun (x : Cell) => a.passCloses a.passes.length x) } else a
  let c := { c with arr := a }
  c.retireAll c.arr.passes.length

/-- Passes in the pass queue: those that have not reached their first product cycle (R91). -/
def ArrayState.queued (a : ArrayState) : Nat :=
  (a.passes.filter (fun p => !p.started && !(p.isClose && a.cells.any (fun c => 0 < c.pos)))).length

/-- The pass queue is empty, no pass is in flight and every drain has finished (`MWAIT`, R149). -/
def Core.arrayIdle (c : Core) : Bool := c.arr.passes.isEmpty && c.arr.drains.isEmpty

/-! ### Restoration of an accumulate-through tile (R536) -/

/-- Read the cells of a protective copy or of an array record: 6 bytes of value per cell (Table 03.9). -/
def cellValues (bs : List Byte) (off : Nat) : List (BitVec 48) :=
  (List.range 16).map (fun n => BitVec.ofNat 48 (fieldLe bs (off + 6 * n) 6))

/-- The set of a cell from a value and the bits of its special flags. -/
def cellSetOf (w : BitVec 48) (sp n : Nat) : CellSet :=
  { w := w, nan := bitAt sp (3 * n), pinf := bitAt sp (3 * n + 1), ninf := bitAt sp (3 * n + 2) }

/-- Fields of a tile status (Table 03.7) put into a tile. -/
def TileInfo.ofStatus (t : TileInfo) (st : Nat) : TileInfo :=
  { t with anchor := BitVec.ofNat 10 (bits st 6 10), fb := bitAt st 3, rep := BitVec.ofNat 2 (bits st 1 2), ovf := bitAt st 0 }

/-- The scheduler restores the tile from its copy, clears the queues and EXC, and resumes the core at its restore point
(R536). -/
def Core.tileRestore (c : Core) : Core :=
  if !c.restorePend then c
  else
    let setB := if (c.arr.info true).accThrough && (c.arr.info true).copy.isSome then true
      else if (c.arr.info false).accThrough && (c.arr.info false).copy.isSome then false
      else match c.arr.drains.find? (fun d => d.info.accThrough) with
        | some d => d.setB
        | none => false
    let t0 := if (c.arr.info setB).accThrough then c.arr.info setB
      else match c.arr.drains.find? (fun d => d.setB == setB) with
        | some d => d.info
        | none => c.arr.info setB
    match t0.copy, c.restorePoint with
    | some off, some rp =>
      let bs := c.scratch.read off.toNat 256
      let vals := cellValues bs 0
      let sp := fieldLe bs 226 6
      let cells := (List.range 16).map (fun n =>
        let x : Cell := { inB := setB, lfsr := BitVec.ofNat 64 (fieldLe bs (96 + 8 * n) 8) }
        x.setPart setB (cellSetOf (nth 0 vals n) sp n))
      let t : TileInfo := { t0 with
        live := true
        fixed := bitAt (fieldLe bs 238 1) 0
        wide := bitAt (fieldLe bs 238 1) 1
        repTotal := BitVec.ofNat 16 (fieldLe bs 236 2)
        mb := BitVec.ofNat 32 (fieldLe bs 232 4)
        bad := false
        restored := true }
      let t := t.ofStatus (fieldLe bs 224 2)
      let a : ArrayState := { cells := cells, nextB := setB, openTile := some ⟨t.wide, true, t.int⟩ }
      { c with
        arr := a.setInfo setB t
        tq := []
        excCause := 0
        excCode := 0
        excIndex := 0
        halted := false
        pc := rp.index
        regs := rp.regs
        lanes := rp.lanes
        norms := rp.norms
        restores := satInc c.restores 1
        restorePend := false
        hold := .none
        phase := .compute }
    | _, _ => c

end Sys2Proof
end

