-- ==== Sys2Proof/Machine/Issue.lean ====
section
/-! DEFINITION. Issue on one core (R142 to R148, R156, R163, R164): registers, unused fields, the ranges that instructions wait
for, exceptions and the program counter. -/
namespace Sys2Proof

/-- Exception causes (Table 06.16). -/
def cIllegal : Nat := 0x01
def cFormat : Nat := 0x02
def cShape : Nat := 0x03
def cBounds : Nat := 0x04
def cAlign : Nat := 0x05
def cOverlap : Nat := 0x06
def cCount : Nat := 0x07
def cQueue : Nat := 0x08
def cBucket : Nat := 0x09
def cMemory : Nat := 0x0B
def cRecord : Nat := 0x0C
def cUnfinished : Nat := 0x0D
def cInstrBounds : Nat := 0x0E
def cTrap : Nat := 0x10

/-- A cause when a condition holds. -/
def when (b : Bool) (cause : Nat) : List Nat := if b then [cause] else []

/-! ### Registers (R144) -/

/-- S0 reads as zero. -/
def Core.reg (c : Core) (r : BitVec 4) : W32 := if r = 0 then 0 else c.regs[r.toNat]'r.isLt

/-- Writes to S0 are ignored. -/
def Core.setReg (c : Core) (r : BitVec 4) (v : W32) : Core := if r = 0 then c else { c with regs := c.regs.set r.toNat v r.isLt }

/-- A register's value as a number. -/
def Core.regN (c : Core) (r : BitVec 4) : Nat := (c.reg r).toNat

/-! ### Fields (R143, R580) -/

/-- The fields an instruction uses: masks of IMM and MOD bits; a used format field must name a format of Table 02.1. -/
structure Used where
  d : Bool := false
  a : Bool := false
  b : Bool := false
  c : Bool := false
  f1 : Bool := false
  f2 : Bool := false
  imm : Nat := 0
  mod : Nat := 0

/-- A non-zero unused field, a reserved MOD bit or a reserved format code. -/
def Fields.bad (w : Fields) (u : Used) : Bool :=
  (!u.d && w.d != 0) || (!u.a && w.a != 0) || (!u.b && w.b != 0) || (!u.c && w.c != 0) ||
  (if u.f1 then 8 < w.f1.toNat else w.f1 != 0) || (if u.f2 then 8 < w.f2.toNat else w.f2 != 0) ||
  (w.imm.toNat &&& (0xFFFFFF - u.imm)) != 0 || (w.mod.toNat &&& (0xFF - u.mod)) != 0

/-- Sign extension of IMM to 32 bits (Table 06.3). -/
def Fields.sext (w : Fields) : W32 := BitVec.ofInt 32 w.imm.toInt

/-! ### Ranges in use (R146) -/

/-- Ranges that unfinished passes and drains still read. -/
def Core.pendingReads (c : Core) : List (Nat × Nat) :=
  c.arr.passes.flatMap (fun p => p.reads ++ (if p.closes then drainReads p.drec p.wide else [])) ++
  c.arr.drains.flatMap (fun d => drainReads d.drec d.info.wide)

/-- Ranges that unfinished passes and drains still write: drain outputs and protective copies. -/
def Core.pendingWrites (c : Core) : List (Nat × Nat) :=
  c.arr.passes.flatMap (fun p => (if p.closes then drainWrites p.drec else []) ++
    (if p.mb && !p.isClose && !p.copied then [(p.copyOffset, 256)] else [])) ++
  c.arr.drains.flatMap (fun d => drainWrites d.drec)

def rangesMeet (xs ys : List (Nat × Nat)) : Bool := xs.any (fun x => ys.any (fun y => overlap x.1 x.2 y.1 y.2))

/-- An instruction with these ranges waits at issue (R146). -/
def Core.mustWait (c : Core) (reads writes : List (Nat × Nat)) : Bool :=
  rangesMeet writes c.pendingReads || rangesMeet (reads ++ writes) c.pendingWrites

/-- A range that leaves the 4,096 bytes, or an offset above 4,095 (R144). -/
def outOfScratch (r : Nat × Nat) : Bool := r.2 != 0 && (4095 < r.1 || 4096 < r.1 + r.2)

/-! ### Issue -/

/-- What an instruction does once its static checks pass: it waits (R145, R146), raises a cause, or issues. -/
inductive IssueResult where
  | wait
  | raise (cause : Nat)
  | done (c : Core)

/-- The core can issue: it runs a work item or is held in the service state, is not halted, and waits for nothing. -/
def Core.canIssue (c : Core) : Bool :=
  (c.running || c.service) && !c.halted && !c.outOfService && !c.restorePend && c.hold == .none && c.preempt == .none &&
  (match c.phase with
    | .requested _ => false
    | _ => true)

def minCause : List Nat → Option Nat
  | [] => none
  | x :: xs => match minCause xs with
    | none => some x
    | some y => some (min x y)

/-- The causes that count: a count outside its range gives no operand range that could leave the scratchpad or overlap (R156,
R163, log 42). -/
def standingCauses (causes : List Nat) : List Nat :=
  if causes.contains cCount then causes.filter (fun k => k != cBounds && k != cOverlap) else causes

/-- Issue with a given set of static causes: the lowest is recorded and nothing else happens (R163). -/
def Core.issueWith (c : Core) (causes : List Nat) (code : Nat) (body : Core → IssueResult) : Core :=
  if !c.canIssue then c
  else match minCause (standingCauses causes) with
    | some k => c.raise k (if k == cTrap then code else 0) c.pc
    | none => match body c with
      | .wait => c
      | .raise k => c.raise k 0 c.pc
      | .done c' => c'

/-- A sequential step, whose next index must lie within the store (R148). -/
def Core.seqWith (c : Core) (causes : List Nat) (body : Core → IssueResult) : Core :=
  c.issueWith causes 0 (fun c => match body c with
    | .done c' => if c.pc == 2047 then .raise cInstrBounds else .done { c' with pc := c.pc + 1 }
    | r => r)

/-- A step whose effect is immediate. -/
def Core.seq (c : Core) (causes : List Nat) (f : Core → Core) : Core := c.seqWith causes (fun c => .done (f c))

/-- Go to an instruction index, or raise instruction-bounds (R148). -/
def Core.goto (c : Core) (target : Int) : IssueResult :=
  if 0 ≤ target && target ≤ 2047 then .done { c with pc := BitVec.ofInt 11 target } else .raise cInstrBounds

/-- The target of a branch. -/
def Core.branchTarget (c : Core) (w : Fields) : Int := c.pc.toNat + w.imm.toInt

/-- Branch when the condition holds, else step (Table 06.3). -/
def Core.branch (c : Core) (w : Fields) (cond : Core → Bool) : Core :=
  c.issueWith (when (w.bad { a := true, b := true, imm := 0xFFFFFF }) cIllegal) 0
    (fun c => c.goto (if cond c then c.branchTarget w else c.pc.toNat + 1))

/-- s[d] = f(s[a], s[b]) (Table 06.3). -/
def Core.alu (c : Core) (w : Fields) (f : W32 → W32 → W32) : Core :=
  c.seq (when (w.bad { d := true, a := true, b := true }) cIllegal) (fun c => c.setReg w.d (f (c.reg w.a) (c.reg w.b)))

/-- The core issues no matrix or vector instruction in its transfer phase (R159). -/
def Core.inTransfer (c : Core) : Bool := c.phase == .transfer

/-- Read registers and memory of the scratchpad. -/
def Core.word (c : Core) (off : Nat) : W32 := BitVec.ofNat 32 (c.scratch.readLe off 4)

end Sys2Proof
end

