-- ==== Sys2Proof/Machine/Vector.lean ====
section
/-! DEFINITION. The vector engine (chapter 05, R156 to R158): operands, masks, draws, element-wise work by issue cycles, MX
destinations (R578, R579), compression and expansion, reductions, seeds and norms. -/
namespace Sys2Proof

/-! ### Operand forms -/

/-- Lane count of a format (Table 05.1). -/
def Fmt.lanes (f : Fmt) : Nat :=
  match f with
  | .fp32 => 4
  | .bf16 => 8
  | .fp16 => 8
  | _ => 16

/-- Bytes of an operand of `n` elements with its scale bytes (R578). -/
def Fmt.operandBytes (f : Fmt) (n : Nat) : Nat := if n == 0 then 0 else f.elemBytes n + (if f.isMx then ceilDiv n 32 else 0)

/-- Formats that vector arithmetic refuses (R117, Table 05.1). -/
def Fmt.noArith (f : Fmt) : Bool := f.isMx || f == .int4

/-- IMM fields of a vector word (Table 06.2). -/
def vecN (w : Fields) : Nat := bits w.imm.toNat 0 13
def vecFn (w : Fields) : Nat := bits w.imm.toNat 13 7
def vecReg (w : Fields) : BitVec 4 := BitVec.ofNat 4 (bits w.imm.toNat 20 4)
/-- Modifier bits of a vector word (Table 06.8). -/
def vSr (w : Fields) : Bool := bitAt w.mod.toNat 0
def vSat (w : Fields) : Bool := bitAt w.mod.toNat 1
def vZ (w : Fields) : Bool := bitAt w.mod.toNat 2
def vTq (w : Fields) : Bool := bitAt w.mod.toNat 3
def vPop (w : Fields) : Bool := bitAt w.mod.toNat 4
def vS (w : Fields) : Bool := bitAt w.mod.toNat 5

def fmt1 (w : Fields) : Fmt := (Fmt.ofCode w.f1.toNat).getD .fp32
def fmt2 (w : Fields) : Fmt := (Fmt.ofCode w.f2.toNat).getD .fp32

/-- Element count (R156): N, or the register NREG names. -/
def Core.count (c : Core) (w : Fields) : Nat := if vecReg w = 0 then vecN w else c.regN (vecReg w)

/-- Causes of the count (R156, Table 06.16): N above 4,096, N beside NREG (R580), a register count above 4,096, a count above
16 on the queue head. -/
def Core.countCauses (c : Core) (w : Fields) (onHead : Bool) : List Nat :=
  when (decide (4096 < vecN w) || (vecReg w != 0 && vecN w != 0)) cIllegal ++
  when (vecReg w != 0 && decide (4096 < c.regN (vecReg w))) cCount ++
  when (onHead && decide (16 < c.count w)) cCount

/-- The queue head as an operand. -/
abbrev Head := Option TqEntry

/-- Value `i` of a queue entry (R132). -/
def TqEntry.val (e : TqEntry) (i : Nat) : FVal :=
  decodeScaled ((Fmt.ofCode e.fmt.toNat).getD .fp32) e.scale.toNat (nth 0 e.vals i).toNat

/-- Element `i` of an operand of `n` elements at `base` (R578). -/
def operandVal (m : Memory) (f : Fmt) (base n i : Nat) : FVal :=
  decodeScaled f (m.get (base + f.elemBytes n + i / 32)).toNat (elemAt m f base i)

/-- Element `i` of source A: the queue head under `.TQ`, else the array at s[a]. -/
def Core.srcA (c : Core) (w : Fields) (h : Head) (n : Nat) (m : Memory) (i : Nat) : FVal :=
  match h with
  | some e => e.val i
  | none => operandVal m (fmt2 w) (c.regN w.a) n i

/-- Encoding of element `i` of source A. -/
def Core.codeA (c : Core) (w : Fields) (h : Head) (m : Memory) (i : Nat) : Nat :=
  match h with
  | some e => (nth 0 e.vals i).toNat
  | none => elemAt m (fmt2 w) (c.regN w.a) i

/-- Source B under `.S`: FP32 bits for a floating-point F2, else a signed integer (Table 06.8). -/
def scalarVal (f : Fmt) (v : W32) : FVal := if f.isInt then .ofInt v.toInt else f32 v.toNat

def Core.srcB (c : Core) (w : Fields) (n : Nat) (m : Memory) (i : Nat) : FVal :=
  if vS w then scalarVal (fmt2 w) (c.reg w.b) else operandVal m (fmt2 w) (c.regN w.b) n i

/-- Bit `i` of a mask at `base` (R121). -/
def maskBit (m : Memory) (base i : Nat) : Bool := bitAt (m.get (base + i / 8)).toNat (i % 8)

/-- Element `i` is active: no mask, or its mask bit is set (R121). -/
def Core.active (c : Core) (w : Fields) (m : Memory) (i : Nat) : Bool := w.c == 0 || maskBit m (c.regN w.c) i

/-- Bytes of a mask of `n` bits. -/
def maskBytes (n : Nat) : Nat := ceilDiv n 8

/-! ### Draws (R47, R129, R130) -/

/-- One draw per element for `n` elements, element i from generator i mod L, in ascending index. -/
def takeDraws (lanes : List W64) (l n : Nat) : List Nat × List W64 :=
  (List.range n).foldl (fun (acc : List Nat × List W64) i =>
    let d := lfsrDraw (nth 1 acc.2 (i % l))
    (acc.1 ++ [d.1], acc.2.set (i % l) d.2)) ([], lanes)

/-- Roundings of `n` elements under `.RN` or `.SR`, and the core after its draws (R45, R47): L of the narrower format. -/
def Core.roundings (c : Core) (w : Fields) (fs : List Fmt) (n : Nat) : List Rnd × Core :=
  if vSr w then
    let l := fs.foldl (fun a f => max a f.lanes) 4
    let d := takeDraws c.lanes l n
    (d.1.map Rnd.sr, { c with lanes := d.2 })
  else (List.replicate n .rn, c)

/-! ### Destinations -/

/-- Blocks of 32 of an operand: (first, past the last). -/
def mxBlocks (n : Nat) : List (Nat × Nat) := (List.range (ceilDiv n 32)).map (fun q => (32 * q, min n (32 * q + 32)))

/-- Write a run of encodings. -/
def writeCodes (m : Memory) (f : Fmt) (base : Nat) (cs : List (Nat × Nat)) : Memory :=
  cs.foldl (fun m p =>
    if f == .mxfp6 then
      let a := base + 3 * (p.1 / 4)
      let old := m.readLe a 3
      let sh := 6 * (p.1 % 4)
      m.writeLe a 3 (old - (bits old sh 6) * 2 ^ sh + (p.2 % 64) * 2 ^ sh)
    else writeElem m f base p.1 p.2) m

/-- Write an MX destination of `n` elements (R579): `new` gives the positions written or zeroed; a block with none is left
unchanged, a block in `same` is copied (codes and scale byte), any other is quantised afresh. -/
def mxWrite (m : Memory) (f : Fmt) (base n : Nat) (new : Nat → Option FVal) (rnd : Nat → Rnd) (sat : Bool)
    (same : Nat → Option (List Nat × Nat)) : Memory × Flags :=
  (mxBlocks n).foldl (fun (acc : Memory × Flags) b =>
    let is := (List.range (b.2 - b.1)).map (· + b.1)
    let put (m : Memory) (codes : List Nat) (scale : Nat) : Memory :=
      (writeCodes m f base (is.zip codes)).writeLe (base + f.elemBytes n + b.1 / 32) 1 scale
    match same (b.1 / 32) with
    | some cs => (put acc.1 cs.1 cs.2, acc.2)
    | none =>
      if is.all (fun i => (new i).isNone) then acc
      else
        let vs := is.map (fun i => ((new i).getD (operandVal m f base n i), rnd i))
        let q := mxQuantise f vs sat
        (put acc.1 q.2.1 q.1, acc.2 ||| q.2.2)) (m, 0)

/-- Split 0 to n - 1 into issue cycles of `l` elements (R120). -/
def issueCycles (n l : Nat) : List (List Nat) :=
  (List.range (ceilDiv n l)).map (fun q => (List.range (min l (n - q * l))).map (· + q * l))

/-- Element-wise work (R117, R121, R122): `val` gives the exact value of an active element from the scratchpad as its issue
cycle finds it, `enc` rounds it once into F1. With an MX destination every source is read first and whole blocks are written
(R579). -/
def Core.elementwise (c : Core) (w : Fields) (dst n l : Nat) (act : Memory → Nat → Bool) (rnds : List Rnd)
    (val : Memory → Nat → FVal) (enc : FVal → Rnd → Nat × Flags) : Core :=
  let f := fmt1 w
  if f.isMx then
    let m := c.scratch
    let new (i : Nat) : Option FVal := if act m i then some (val m i) else if vZ w then some .zero else none
    let r := mxWrite m f dst n new (nth .rn rnds) (vSat w) (fun _ => none)
    { c with scratch := r.1, cvt := c.cvt ||| r.2 }
  else
    let r := (issueCycles n l).foldl (fun (acc : Memory × Flags) is =>
      let m := acc.1
      let rs := is.map (fun i => if act m i then some (enc (val m i) (nth .rn rnds i)) else if vZ w then some (0, 0) else none)
      (is.zip rs).foldl (fun (acc : Memory × Flags) p =>
        match p.2 with
        | some x => (writeElem acc.1 f dst p.1 x.1, acc.2 ||| x.2)
        | none => acc) acc) (c.scratch, 0)
    { c with scratch := r.1, cvt := c.cvt ||| r.2 }

/-! ### Checks and the queue head -/

/-- Checks of every vector instruction (R143, R156, R159, Tables 06.2, 06.8). `fn` are the FN bits in use. -/
def Core.vecCauses (c : Core) (w : Fields) (u : Used) (fnMask : Nat) (onHead : Bool) : List Nat :=
  when (c.inTransfer || w.bad { u with imm := 0xF01FFF + 8192 * fnMask, mod := 0x3F } || (vPop w && !vTq w) ||
    (vTq w && w.a != 0)) cIllegal ++
  c.countCauses w (onHead || vTq w)

/-- Bounds of ranges and alignment of masks (R121, R144). -/
def rangeCauses (rs : List (Nat × Nat)) (aligned4 : List Nat) : List Nat :=
  when (rs.any outOfScratch) cBounds ++ when (aligned4.any (fun a => a % 4 != 0)) cAlign

/-- The queue head (R134, R135): an instruction waits for an entry unless nothing can fill the queue. -/
def Core.withHead (c : Core) (use : Bool) (body : Head → IssueResult) : IssueResult :=
  if !use then body none
  else match c.tq with
    | e :: _ => if e.visible then body (some e) else .wait
    | [] =>
      if c.arr.passes.isEmpty && !c.arr.drains.any (fun d => !drToScratch d.drec) then .raise cQueue else .wait

/-- Pop the head (R134). -/
def Core.pop (c : Core) : Core := { c with tq := c.tq.drop 1 }

/-- The format of the head under `.TQ` must be F2 (R158). -/
def headFmtOk (w : Fields) : Head → Bool
  | some e => e.fmt.toNat == (fmt2 w).code
  | none => true

/-- Mask range of an instruction that names one. -/
def Core.maskRange (c : Core) (w : Fields) (n : Nat) : List (Nat × Nat) :=
  if w.c == 0 then [] else [(c.regN w.c, maskBytes n)]
def Core.maskAlign (c : Core) (w : Fields) : List Nat := if w.c == 0 then [] else [c.regN w.c]

/-- An element-wise instruction with source A, an optional source B and a destination in F1: `acc` says that it reads the
destination too, `arith` that MX and INT4 operands are refused (R117), `sel` that C is a selector (Table 06.9). -/
structure VecForm where
  useB : Bool := false
  acc : Bool := false
  arith : Bool := true
  sel : Bool := false
  func : Bool := false

/-- Issue of such an instruction. -/
def Core.vecOp (c : Core) (w : Fields) (vf : VecForm) (val : Core → Head → Nat → Memory → Nat → FVal)
    (enc : FVal → Rnd → Nat × Flags) : Core :=
  let n := c.count w
  let f1 := fmt1 w
  let f2 := fmt2 w
  let dst := c.regN w.d
  let reads := (if vTq w then [] else [(c.regN w.a, f2.operandBytes n)]) ++
    (if vf.useB && !vS w then [(c.regN w.b, f2.operandBytes n)] else []) ++
    (if vf.sel then [(c.regN w.c, maskBytes n)] else c.maskRange w n) ++
    (if vf.acc then [(dst, f1.operandBytes n)] else [])
  let writes := [(dst, f1.operandBytes n)]
  let causes := c.vecCauses w { d := true, a := true, b := vf.useB, c := true, f1 := true, f2 := true } 0 false ++
    when (vf.arith && (f1.noArith || f2.noArith)) cFormat ++
    rangeCauses (reads ++ writes) (if vf.sel then [c.regN w.c] else c.maskAlign w)
  c.seqWith causes (fun c =>
    if n == 0 then .done c
    else if c.mustWait reads writes then .wait
    else c.withHead (vTq w) (fun h =>
      if !headFmtOk w h then .raise cFormat
      else
        let l := if vf.func then 4 else min f1.lanes f2.lanes
        let r := c.roundings w [f1, f2] n
        let c' := r.2.elementwise w dst n l (if vf.sel then fun _ _ => true else c.active w) r.1 (val c h n) enc
        .done (if vPop w then c'.pop else c')))

/-- Round once into F1 (R117). -/
def roundInto (w : Fields) (v : FVal) (r : Rnd) : Nat × Flags := encode (fmt1 w) v r (vSat w)

/-- Two-source arithmetic. -/
def Core.vecBin (c : Core) (w : Fields) (op : FVal → FVal → FVal) : Core :=
  c.vecOp w { useB := true } (fun c h n m i => op (c.srcA w h n m i) (c.srcB w n m i)) (roundInto w)

/-- One-source arithmetic. -/
def Core.vecUn (c : Core) (w : Fields) (op : FVal → FVal) : Core :=
  c.vecOp w {} (fun c h n m i => op (c.srcA w h n m i)) (roundInto w)

/-- `VFMA`: d is read in F1 (Table 06.9). -/
def Core.vecFma (c : Core) (w : Fields) : Core :=
  c.vecOp w { useB := true, acc := true }
    (fun c h n m i => (c.srcA w h n m i).fma (c.srcB w n m i) (operandVal m (fmt1 w) (c.regN w.d) n i)) (roundInto w)

/-- `VSEL`: C selects for every element (Table 06.9). -/
def Core.vecSel (c : Core) (w : Fields) : Core :=
  c.vecOp w { useB := true, sel := true }
    (fun c h n m i => if maskBit m (c.regN w.c) i then c.srcA w h n m i else c.srcB w n m i) (roundInto w)

/-- `VCVT` (R44 to R53). -/
def Core.vecCvt (c : Core) (w : Fields) : Core :=
  c.vecOp w { arith := false } (fun c h n m i => c.srcA w h n m i) (fun v r => convert (fmt2 w) (fmt1 w) v r (vSat w))

/-- A function of Table 05.3 on an operand widened to FP32, its FP32 result converted to F1 (R126, R128). -/
def Core.vecFunc (c : Core) (w : Fields) (f : Nat → Nat × Flags) : Core :=
  c.vecOp w { func := true } (fun c h n m i => c.srcA w h n m i) (fun v r =>
    let x := encode .fp32 v .rn false
    let y := f (if v.sig then 0x7F800001 else x.1)
    let z := encode (fmt1 w) (f32 y.1) r (vSat w)
    (z.1, y.2 ||| z.2))

/-! ### Compare, reduce (R125, Table 06.9) -/

/-- A comparison of Table 06.9; NaN gives 0 except for NE. -/
def compareVals (cond : Nat) (a b : FVal) : Bool :=
  if a.isNan || b.isNan then cond == 1
  else match cond with
    | 0 => a.eqv b
    | 1 => !a.eqv b
    | 2 => a.lt b
    | 3 => !b.lt a
    | 4 => b.lt a
    | _ => !a.lt b

/-- Set bits of a mask, those of one issue cycle. -/
def writeMaskBits (m : Memory) (base : Nat) (bs : List (Nat × Bool)) : Memory :=
  bs.foldl (fun m p =>
    let a := base + p.1 / 8
    let old := (m.get a).toNat
    let cleared := if bitAt old (p.1 % 8) then old - 2 ^ (p.1 % 8) else old
    m.set a (BitVec.ofNat 8 (cleared + b2n p.2 * 2 ^ (p.1 % 8)))) m

/-- Tail bits of a written mask are 0 (R125). -/
def maskTail (n : Nat) : List (Nat × Bool) := (List.range (8 * maskBytes n - n)).map (fun i => (n + i, false))

/-- `VCMP` (R125). -/
def Core.vecCmp (c : Core) (w : Fields) : Core :=
  let n := c.count w
  let f2 := fmt2 w
  let dst := c.regN w.d
  let reads := (if vTq w then [] else [(c.regN w.a, f2.operandBytes n)]) ++
    (if vS w then [] else [(c.regN w.b, f2.operandBytes n)]) ++ c.maskRange w n
  let writes := [(dst, maskBytes n)]
  let causes := c.vecCauses w { d := true, a := true, b := true, c := true, f2 := true } 7 false ++
    when (decide (5 < vecFn w)) cIllegal ++ when f2.noArith cFormat ++
    rangeCauses (reads ++ writes) (dst :: c.maskAlign w)
  c.seqWith causes (fun c =>
    if n == 0 then .done c
    else if c.mustWait reads writes then .wait
    else c.withHead (vTq w) (fun h =>
      if !headFmtOk w h then .raise cFormat
      else
        let m := (issueCycles n f2.lanes).foldl (fun m is =>
          writeMaskBits m dst (is.map (fun i =>
            (i, c.active w m i && compareVals (vecFn w) (c.srcA w h n m i) (c.srcB w n m i))))) c.scratch
        let c' := { c with scratch := writeMaskBits m dst (maskTail n) }
        .done (if vPop w then c'.pop else c')))

/-- Active values of source A in ascending index. -/
def Core.activeVals (c : Core) (w : Fields) (h : Head) (n : Nat) : List (Nat × FVal) :=
  ((List.range n).filter (c.active w c.scratch)).map (fun i => (i, c.srcA w h n c.scratch i))

/-- A reduction of source A to one element of F1, or to a scalar register. -/
def Core.vecReduce (c : Core) (w : Fields) (toReg : Bool) (f : Core → List (Nat × FVal) → FVal)
    (g : List (Nat × FVal) → W32) : Core :=
  let n := c.count w
  let f1 := fmt1 w
  let f2 := fmt2 w
  let dst := c.regN w.d
  let reads := (if vTq w then [] else [(c.regN w.a, f2.operandBytes n)]) ++ c.maskRange w n
  let writes := if toReg then [] else [(dst, f1.operandBytes (min n 1))]
  let causes := c.vecCauses w { d := true, a := true, c := true, f1 := !toReg, f2 := true } 0 false ++
    when ((!toReg && f1.noArith) || f2.noArith) cFormat ++ rangeCauses (reads ++ writes) (c.maskAlign w)
  c.seqWith causes (fun c =>
    if n == 0 then .done (if toReg then c.setReg w.d (g []) else c)
    else if c.mustWait reads writes then .wait
    else c.withHead (vTq w) (fun h =>
      if !headFmtOk w h then .raise cFormat
      else
        let vs := c.activeVals w h n
        let c' :=
          if toReg then c.setReg w.d (g vs)
          else
            let r := c.roundings w [f1, f2] 1
            let x := roundInto w (f c vs) (nth .rn r.1 0)
            { r.2 with scratch := writeElem c.scratch f1 dst 0 x.1, cvt := c.cvt ||| x.2 }
        .done (if vPop w then c'.pop else c')))

/-- Exact sum of values; +0 of none (Table 06.9). -/
def exactSum : List FVal → FVal
  | [] => .zero
  | v :: vs => vs.foldl FVal.add v

/-- `VRMAX`: NaN if any is NaN, the format's lowest when none is active. -/
def largest (f : Fmt) (vs : List FVal) : FVal :=
  match vs with
  | [] => if f.isInt then .ofInt (intLo f) else .inf true
  | v :: vs => vs.foldl FVal.max (v.max v)

/-- `VRMAXI`: index of the first largest, the first NaN taken as largest. -/
def largestIndex (vs : List (Nat × FVal)) : W32 :=
  match vs.find? (fun p => p.2.isNan) with
  | some p => BitVec.ofNat 32 p.1
  | none => match vs with
    | [] => 0xFFFFFFFF
    | v :: vs => BitVec.ofNat 32 (vs.foldl (fun (b : Nat × FVal) p => if b.2.ltZ p.2 then p else b) v).1

/-! ### Compression, expansion, moves (R123, R124, R579) -/

/-- The block of the source, a run of `srcN` elements, that a block of a destination of `n` elements copies unchanged, when every
one of its positions takes the element of the same position (R579). -/
def sameBlock (m : Memory) (f : Fmt) (h : Head) (base srcN n : Nat) (src : Nat → Option Nat) (q : Nat) : Option (List Nat × Nat) :=
  let is := (List.range (min n (32 * q + 32) - 32 * q)).map (· + 32 * q)
  if is.all (fun i => src i == some i) then
    match h with
    | some e => some (is.map (fun i => (nth 0 e.vals i).toNat), e.scale.toNat)
    | none => some (is.map (elemAt m f base), (m.get (base + f.elemBytes srcN + q)).toNat)
  else none

/-- Value of element `i` of a run of `n` elements at s[a], or of the head. -/
def Core.runVal (c : Core) (w : Fields) (h : Head) (n i : Nat) : FVal := c.srcA w h n c.scratch i

/-- Move codes: destination position i takes source position `src i` (R123, R124). `srcN` is the length of the source. -/
def Core.moveMx (c : Core) (w : Fields) (h : Head) (dst n srcN : Nat) (src : Nat → Option Nat) (zero : Nat → Bool) : Core :=
  let m := c.scratch
  let new (i : Nat) : Option FVal :=
    match src i with
    | some j => some (c.runVal w h srcN j)
    | none => if zero i then some .zero else none
  let r := mxWrite m (fmt1 w) dst n new (fun _ => .rn) (vSat w) (sameBlock m (fmt2 w) h (c.regN w.a) srcN n src)
  { c with scratch := r.1, cvt := c.cvt ||| r.2 }

/-- Checks and ranges shared by `VMOV`, `VCOMPRESS` and `VEXPAND`. -/
def Core.moveOp (c : Core) (w : Fields) (useB : Bool) (mismatch : Nat) (srcN : Core → Nat → Nat) (overlapRule : Bool)
    (body : Core → Head → Nat → Core) : Core :=
  let n := c.count w
  let f1 := fmt1 w
  let f2 := fmt2 w
  let dst := c.regN w.d
  let k := if n ≤ 4096 then srcN c n else 0
  let src := (c.regN w.a, f2.operandBytes k)
  let reads := (if vTq w then [] else [src]) ++ c.maskRange w n
  let writes := [(dst, f1.operandBytes n)]
  let causes := c.vecCauses w { d := true, a := true, b := useB, c := true, f1 := true, f2 := true } 0 false ++
    when (w.f1 != w.f2) mismatch ++ rangeCauses (reads ++ writes) (c.maskAlign w) ++
    when (overlapRule && !vTq w && overlap src.1 src.2 dst (f1.operandBytes n)) cOverlap
  c.seqWith causes (fun c =>
    if n == 0 then .done (if useB then c.setReg w.b 0 else c)
    else if c.mustWait reads writes then .wait
    else c.withHead (vTq w) (fun h =>
      if !headFmtOk w h then .raise cFormat
      else
        let c' := body c h n
        .done (if vPop w then c'.pop else c')))

/-- `VMOV`: d[i] = a[i] (R579). -/
def Core.vecMov (c : Core) (w : Fields) : Core :=
  c.moveOp w false cIllegal (fun _ n => n) false (fun c h n =>
    let dst := c.regN w.d
    if (fmt1 w).isMx then
      c.moveMx w h dst n n (fun i => if c.active w c.scratch i then some i else none) (fun _ => vZ w)
    else
      let m := (issueCycles n (fmt1 w).lanes).foldl (fun m is =>
        let xs := is.filterMap (fun i =>
          if c.active w m i then some (i, c.codeA w h m i) else if vZ w then some (i, 0) else none)
        writeCodes m (fmt1 w) dst xs) c.scratch
      { c with scratch := m })

/-- `VCOMPRESS` (R123): the active elements in ascending order, their count in s[b]. -/
def Core.vecCompress (c : Core) (w : Fields) : Core :=
  c.moveOp w true cFormat (fun _ n => n) false (fun c h n =>
    let dst := c.regN w.d
    if (fmt1 w).isMx then
      let is := (List.range n).filter (c.active w c.scratch)
      (c.moveMx w h dst n n (fun j => is[j]?) (fun _ => false)).setReg w.b (BitVec.ofNat 32 is.length)
    else
      let r := (issueCycles n (fmt1 w).lanes).foldl (fun (acc : Memory × Nat) is =>
        let xs := (is.filter (c.active w acc.1)).map (c.codeA w h acc.1)
        (writeCodes acc.1 (fmt1 w) dst ((List.range xs.length).map (· + acc.2) |>.zip xs), acc.2 + xs.length)) (c.scratch, 0)
      ({ c with scratch := r.1 }).setReg w.b (BitVec.ofNat 32 r.2))

/-- Active positions below `n`. -/
def Core.activeList (c : Core) (w : Fields) (n : Nat) : List Nat := (List.range n).filter (c.active w c.scratch)

/-- `VEXPAND` (R124): element j of the run goes to the position of set bit j + 1. -/
def Core.vecExpand (c : Core) (w : Fields) : Core :=
  c.moveOp w false cFormat (fun c n => (c.activeList w n).length) true (fun c h n =>
    let dst := c.regN w.d
    let is := c.activeList w n
    let src (i : Nat) : Option Nat := is.findIdx? (· == i)
    if (fmt1 w).isMx then c.moveMx w h dst n is.length src (fun _ => vZ w)
    else
      let xs := (List.range n).filterMap (fun i =>
        match src i with
        | some j => some (i, c.codeA w h c.scratch j)
        | none => if vZ w then some (i, 0) else none)
      { c with scratch := writeCodes c.scratch (fmt1 w) dst xs })

/-- `VBCAST`: d[i] = rnd(s[b]), with `.S` (Table 06.10). -/
def Core.vecBcast (c : Core) (w : Fields) : Core :=
  let n := c.count w
  let dst := c.regN w.d
  let writes := [(dst, (fmt1 w).operandBytes n)]
  let reads := c.maskRange w n
  let causes := c.vecCauses w { d := true, b := true, c := true, f1 := true, f2 := true } 0 false ++
    when (!vS w) cIllegal ++ rangeCauses (reads ++ writes) (c.maskAlign w)
  c.seqWith causes (fun c =>
    if n == 0 then .done c
    else if c.mustWait reads writes then .wait
    else
      let r := c.roundings w [fmt1 w, fmt2 w] n
      .done (r.2.elementwise w dst n (min (fmt1 w).lanes (fmt2 w).lanes) (c.active w) r.1
        (fun _ _ => scalarVal (fmt2 w) (c.reg w.b)) (roundInto w)))

/-- `VPOPC`: count of set bits of the mask over n (Table 06.10). -/
def Core.vecPopc (c : Core) (w : Fields) : Core :=
  let n := c.count w
  let reads := c.maskRange w n
  let causes := c.vecCauses w { d := true, c := true } 0 false ++ rangeCauses reads (c.maskAlign w)
  c.seqWith causes (fun c =>
    if c.mustWait reads [] then .wait else .done (c.setReg w.d (BitVec.ofNat 32 (c.activeList w n).length)))

/-- `VLDQ`: converting load of the head, then pop (R158). -/
def Core.vecLdq (c : Core) (w : Fields) : Core :=
  let n := c.count w
  let dst := c.regN w.d
  let reads := c.maskRange w n
  let writes := [(dst, (fmt1 w).operandBytes n)]
  let causes := c.vecCauses w { d := true, c := true, f1 := true } 0 true ++ rangeCauses (reads ++ writes) (c.maskAlign w)
  c.seqWith causes (fun c =>
    if n == 0 then .done c
    else if c.mustWait reads writes then .wait
    else c.withHead true (fun h =>
      let src := match h with
        | some e => (Fmt.ofCode e.fmt.toNat).getD .fp32
        | none => .fp32
      let r := c.roundings w [fmt1 w, src] n
      let c' := r.2.elementwise w dst n (min (fmt1 w).lanes src.lanes) (c.active w) r.1
        (fun _ i => match h with
          | some e => e.val i
          | none => .zero)
        (fun v r => convert src (fmt1 w) v r (vSat w))
      .done c'.pop))

/-- `TQPOP`: discard the head (R134, R135). -/
def Core.tqPop (c : Core) (w : Fields) : Core :=
  c.seqWith (when (c.inTransfer || w.bad {}) cIllegal) (fun c => c.withHead true (fun _ => .done c.pop))

/-! ### Seeds (R69, R131) -/

/-- Bytes of generator states. -/
def genBytes (gs : List W64) : List Byte := gs.flatMap (fun g => leBytes 8 g.toNat)
def loadGens (m : Memory) (a : Nat) : List W64 := (List.range 16).map (fun i => lfsrLoad (m.readLe (a + 8 * i) 8))

/-- A seeding instruction over the 128 bytes at s[a]. -/
def Core.seedOp (c : Core) (w : Fields) (store : Bool) (wait : Bool) (f : Core → Nat → Core) : Core :=
  let r := (c.regN w.a, 128)
  let reads := if store then [] else [r]
  let writes := if store then [r] else []
  c.seqWith (when (c.inTransfer || w.bad { a := true, mod := 0x40 } || bitAt w.mod.toNat 6 != store) cIllegal ++
      rangeCauses [r] [])
    (fun c => if wait && !c.arrayIdle then .wait else if c.mustWait reads writes then .wait else .done (f c r.1))

/-! ### Norm slots (R157) -/

def normImmSlot (w : Fields) : Nat := bits w.imm.toNat 16 2
def normImmTag (w : Fields) : Nat := bits w.imm.toNat 0 16

/-- A drain in flight uses the slot. -/
def Core.slotBusy (c : Core) (i : Nat) : Bool := c.arr.drains.any (fun d => drNormOn d.drec && drNormSlot d.drec == i)

/-- Flush a slot: a bound slot is sent to its tag's record; the slot is cleared and stays bound (R157, R267). -/
def Core.flushSlot (c : Core) (i : Nat) : Core :=
  let s := nth {} c.norms i
  let c := c.modNorm i (fun s => { tag := s.tag, bound := s.bound })
  if s.bound then { c with flushes := c.flushes ++ [s] } else c

def Core.nbind (c : Core) (w : Fields) : Core :=
  c.seqWith (when (c.inTransfer || w.bad { imm := 0x3FFFF }) cIllegal) (fun c =>
    let i := normImmSlot w
    if c.slotBusy i then .wait
    else
      let c := if (nth {} c.norms i).isZero then c else c.flushSlot i
      .done (c.modNorm i (fun s => { s with tag := BitVec.ofNat 16 (normImmTag w), bound := true })))

def Core.nflush (c : Core) (w : Fields) : Core :=
  c.seqWith (when (c.inTransfer || w.bad { imm := 0x30000 }) cIllegal) (fun c =>
    let i := normImmSlot w
    if c.slotBusy i then .wait else .done (c.flushSlot i))

/-- `VNORM`: step 6 on the active values, into slot FN[1:0] (R157). -/
def Core.vecNorm (c : Core) (w : Fields) : Core :=
  let n := c.count w
  let reads := (if vTq w then [] else [(c.regN w.a, (fmt2 w).operandBytes n)]) ++ c.maskRange w n
  let causes := c.vecCauses w { a := true, c := true, f2 := true } 3 false ++ rangeCauses reads (c.maskAlign w)
  c.seqWith causes (fun c =>
    if n == 0 then .done c
    else if c.mustWait reads [] then .wait
    else c.withHead (vTq w) (fun h =>
      if !headFmtOk w h then .raise cFormat
      else
        let c' := (c.activeVals w h n).foldl (fun c p => c.modNorm (vecFn w % 4) (fun s => s.add p.2)) c
        .done (if vPop w then c'.pop else c')))

/-! ### Moult primitives (R161) -/

/-- Exact sums of the magnitudes at the 8 positions of each pattern; the first largest wins. -/
def bestPattern (grid : List FVal) : FVal × Nat :=
  let score (codes : List Nat) : FVal :=
    exactSum ((List.range 4).flatMap (fun r =>
      let c := rowCols (nth 0 codes r)
      [(nth .zero grid (4 * r + c.1)).abs, (nth .zero grid (4 * r + c.2)).abs]))
  let ss := patterns.map score
  (List.range ss.length).foldl (fun (b : FVal × Nat) i =>
    let s := nth .zero ss i
    if b.1.lt s then (s, i) else b) (nth .zero ss 0, 0)

/-- Score and best pattern of a 4×4 block (R161). -/
def scoreBlock (grid : List FVal) : Nat × Nat :=
  if grid.any (·.isNan) then (0x7FC00000, 0)
  else if grid.any (fun v => !v.isFin) then (0x7F800000, 0)
  else
    let b := bestPattern grid
    (toF32 b.1, b.2)

/-- The score record (Table 06.12). -/
def scoreRecord (s : Nat × Nat) : List Byte := leBytes 4 s.1 ++ leBytes 1 s.2 ++ [0, 0, 0]

/-- The 16 positions of a live block from its stored values; dead positions are zero (R206). -/
def blockGrid (k : BlockKind) (vals : Nat → FVal) : List FVal :=
  match k with
  | .full => (List.range 16).map vals
  | .two p =>
    (List.range 16).map (fun q =>
      let c := rowCols (nth 0 (patternCodes p) (q / 4))
      if c.1 == q % 4 then vals (2 * (q / 4)) else if c.2 == q % 4 then vals (2 * (q / 4) + 1) else .zero)
  | .invalid => List.replicate 16 (.nan false false)

/-- `MSCORE` (R161). -/
def Core.mscore (c : Core) (w : Fields) : Core :=
  let n := c.count w
  let f := fmt2 w
  let st := if bitAt (vecFn w) 0 then 16 else 8
  let a := c.regN w.a
  let reads := [(a, f.elemBytes (st * n) + (if f.isMx then n else 0)), (c.regN w.c, 4 * n)]
  let writes := [(c.regN w.d, 8 * n)]
  let causes := c.vecCauses w { d := true, a := true, c := true, f2 := true } 1 false ++
    when (vTq w) cIllegal ++
    when (decide (512 < n) && vecReg w == 0) cIllegal ++ when (decide (512 < n) && vecReg w != 0) cCount ++
    (if n ≤ 512 then rangeCauses (reads ++ writes) [] else [])
  c.seqWith causes (fun c =>
    if n == 0 then .done c
    else if c.mustWait reads writes then .wait
    else
      let m := c.scratch
      let recs := (List.range n).flatMap (fun k =>
        let bk := blockKind (m.readLe (c.regN w.c + 4 * k) 4) (st == 16)
        let scale := (m.get (a + f.elemBytes (st * n) + k)).toNat
        scoreRecord (scoreBlock (blockGrid bk (fun v => decodeScaled f scale (elemAt m f a (st * k + v))))))
      .done { c with scratch := m.write (c.regN w.d) recs })

/-- `MSIEVE`: score the head as one dense block and pop it (R161). -/
def Core.msieve (c : Core) (w : Fields) : Core :=
  let writes := [(c.regN w.d, 8)]
  c.seqWith (when (c.inTransfer || w.bad { d := true, mod := 0x18 } || (vPop w && !vTq w)) cIllegal ++ rangeCauses writes [])
    (fun c =>
      if c.mustWait [] writes then .wait
      else c.withHead true (fun h =>
        match h with
        | none => .wait
        | some e =>
          if e.wide then .raise cShape
          else
            let bytes := scoreRecord (scoreBlock ((List.range 16).map e.val))
            .done (Core.pop { c with scratch := c.scratch.write (c.regN w.d) bytes })))

end Sys2Proof
end

