-- ==== Sys2Proof/Machine/Softmax.lean ====
section
/-! DEFINITION. Softmax, drop-out, random draws and sampling (chapter 11). -/
namespace Sys2Proof

/-- Score formats (R292). -/
def Fmt.isScore (f : Fmt) : Bool :=
  match f with
  | .fp32 => true
  | .bf16 => true
  | .fp16 => true
  | .e4m3 => true
  | .e5m2 => true
  | _ => false

/-- A score widened to FP32 bits (R48). -/
def scoreBits (v : FVal) : Nat := toF32 v

/-- The exponent term e(x, m) on FP32 bits, with the flags of its steps (Table 11.1). -/
def expTerm (x m : Nat) : Nat × Flags :=
  match f32 x, f32 m with
  | .nan _ _, _ => (0x7FC00000, 0)
  | _, .nan _ _ => (0x7FC00000, 0)
  | .inf true, _ => (0, 0)
  | .inf false, _ => (0x3F800000, 0)
  | .fin _ _ _, .inf _ => (0, 0)
  | a, b =>
    if a.eqv b then (0x3F800000, 0)
    else
      let d := toF32F (a.add b.neg)
      let e := funcF32 .exp d.1
      (e.1, d.2 ||| e.2)

/-- FP32 quotient, correctly rounded (R298). -/
def f32div (a b : Nat) : Nat × Flags :=
  match f32 a, f32 b with
  | .nan n s, _ => (0x7FC00000 + (if n then 2 ^ 31 else 0), if s then flagNV else 0)
  | _, .nan n s => (0x7FC00000 + (if n then 2 ^ 31 else 0), if s then flagNV else 0)
  | .inf n, .inf k => (0x7FC00000 + (if Config.nanSign (.inf n) (.inf k) then 2 ^ 31 else 0), flagNV)
  | .inf n, .fin k _ _ => (0x7F800000 + (if n != k then 2 ^ 31 else 0), 0)
  | .fin n _ _, .inf k => (if n != k then 2 ^ 31 else 0, 0)
  | .fin n p e, .fin k q f =>
    if q == 0 then
      if p == 0 then (0x7FC00000 + (if Config.nanSign (f32 a) (f32 b) then 2 ^ 31 else 0), flagNV)
      else (0x7F800000 + (if n != k then 2 ^ 31 else 0), 0)
    else if p == 0 then (if n != k then 2 ^ 31 else 0, 0)
    else toF32F (divFin (n != k) p q (e - f))

/-- A row-state record (Table 11.2). -/
structure RowState where
  m : Nat
  l : Nat
  alpha : Nat
  k : Nat
  nan : Bool

def RowState.load (mem : Memory) (a : Nat) : RowState :=
  ⟨mem.readLe a 4, mem.readLe (a + 4) 4, mem.readLe (a + 8) 4, mem.readLe (a + 12) 4, bitAt (mem.get (a + 16)).toNat 0⟩

def RowState.bytes (r : RowState) : List Byte :=
  leBytes 4 r.m ++ leBytes 4 r.l ++ leBytes 4 r.alpha ++ leBytes 4 r.k ++ leBytes 1 (b2n r.nan) ++ List.replicate 15 0

def RowState.store (mem : Memory) (a : Nat) (r : RowState) : Memory := mem.write a r.bytes

/-- m is -infinity and the NaN flag is clear (R294). -/
def RowState.empty (r : RowState) : Bool := r.m == 0xFF800000 && !r.nan

/-- The record that a NaN makes (R296). -/
def RowState.nanRecord (r : RowState) : RowState := { r with m := 0x7FC00000, l := 0x7FC00000, alpha := 0x7FC00000, nan := true }

/-- Maximum of two FP32 values that are not NaN. -/
def f32max (a b : Nat) : Nat := if (f32 a).ltZ (f32 b) then b else a

/-- rn32(rn32(l × α) + s) with flags (R296). -/
def rescaleSum (l alpha s : Nat) : Nat × Flags :=
  let p := toF32F ((f32 l).mul (f32 alpha))
  let q := toF32F ((f32 p.1).add (f32 s))
  (q.1, p.2 ||| q.2)

/-- Fold a chunk of scores into a record (R296): the record and its flags. Masked-off elements count as -infinity. -/
def foldScores (r : RowState) (xs : List FVal) : RowState × Flags :=
  let nv : Flags := if xs.any (·.sig) then flagNV else 0
  let ys := xs.map scoreBits
  let cmax := (xs.filter (fun v => !v.isNan)).foldl (fun a v => f32max a (scoreBits v)) 0xFF800000
  if r.nan || xs.any (·.isNan) then (r.nanRecord, nv)
  else
    let mnew := f32max r.m cmax
    let al := if (f32 mnew).eqv (f32 r.m) then (0x3F800000, 0) else expTerm r.m mnew
    let es := ys.map (fun y => expTerm y mnew)
    let s := toF32F (exactSum (es.map (fun e => f32 e.1)))
    let l := rescaleSum r.l al.1 s.1
    ({ m := if (f32 mnew).eqv (f32 r.m) then r.m else mnew, l := l.1, alpha := al.1,
       k := min (2 ^ 32 - 1) (r.k + (xs.filter (fun v => v == .inf false)).length), nan := false },
     nv ||| al.2 ||| s.2 ||| l.2 ||| es.foldl (fun (a : Flags) e => a ||| e.2) 0)

/-- Checks shared by the `VOSM` operations: FN names the operation, E only where it is used, record 32-byte aligned (R295). -/
def Core.vosmCauses (c : Core) (w : Fields) (u : Used) (op : Nat) (useE : Bool) (reads writes : List (Nat × Nat))
    (recs : List Nat) : List Nat :=
  c.vecCauses w u (if useE then 127 else 7) false ++
  when (vecFn w % 8 != op) cIllegal ++
  when (u.f2 && !(fmt2 w).isScore) cFormat ++
  rangeCauses (reads ++ writes) (c.maskAlign w) ++ when (recs.any (fun a => a % 32 != 0)) cAlign

def vosmUsed : Used := { d := true, a := true, b := true, c := true, f1 := true, f2 := true }

/-- The ranges of an operation over elements at s[a] with the record at s[b]. -/
def Core.vosmReads (c : Core) (w : Fields) (n : Nat) : List (Nat × Nat) :=
  (if vTq w then [] else [(c.regN w.a, (fmt2 w).operandBytes n)]) ++ [(c.regN w.b, if n == 0 then 0 else 32)] ++ c.maskRange w n

/-- `VOSM.STAT` (R296). -/
def Core.vosmStat (c : Core) (w : Fields) : Core :=
  let n := c.count w
  let b := c.regN w.b
  let reads := c.vosmReads w n
  let writes := [(c.regN w.d, (fmt1 w).operandBytes n), (b, if n == 0 then 0 else 32)]
  c.seqWith (c.vosmCauses w vosmUsed 0 false reads writes [b]) (fun c =>
    if n == 0 then .done c
    else if c.mustWait reads writes then .wait
    else c.withHead (vTq w) (fun h =>
      if !headFmtOk w h then .raise cFormat
      else
        let m := c.scratch
        let act (i : Nat) : Bool := c.active w m i
        let xs := (List.range n).map (fun i => c.srcA w h n m i)
        let scores := (List.range n).map (fun i => if act i then nth .zero xs i else .inf true)
        let r0 := RowState.load m b
        let r := foldScores r0 scores
        let ps := scores.map (fun v => if r.1.nan then .nan false false else f32 (expTerm (scoreBits v) r.1.m).1)
        let rr := c.roundings w [fmt1 w, fmt2 w] n
        let c' := rr.2.elementwise w (c.regN w.d) n n (fun _ i => act i) rr.1 (fun _ i => nth .zero ps i) (roundInto w)
        let c' := { c' with scratch := RowState.store c'.scratch b r.1, cvt := c'.cvt ||| r.2 }
        .done (if vPop w then c'.pop else c')))

/-- `VOSM.MERGE` (R297). -/
def Core.vosmMerge (c : Core) (w : Fields) : Core :=
  let a := c.regN w.a
  let b := c.regN w.b
  let rs := [(a, 32), (b, 32)]
  let causes := c.vosmCauses w { a := true, b := true } 1 false rs rs [a, b] ++
    when (vecN w != 0 || vecReg w != 0) cIllegal
  c.seqWith causes (fun c =>
    if c.mustWait rs rs then .wait
    else
      let x := RowState.load c.scratch a
      let y := RowState.load c.scratch b
      if x.nan || y.nan then
        let m := RowState.store c.scratch b y.nanRecord
        .done { c with scratch := m.writeLe (a + 8) 4 0x7FC00000 }
      else
        let mm := f32max y.m x.m
        let ay := if (f32 y.m).eqv (f32 mm) then (0x3F800000, 0) else expTerm y.m mm
        let ax := if (f32 x.m).eqv (f32 mm) then (0x3F800000, 0) else expTerm x.m mm
        let p := toF32F ((f32 x.l).mul (f32 ax.1))
        let l := rescaleSum y.l ay.1 p.1
        let y' : RowState := ⟨mm, l.1, ay.1, min (2 ^ 32 - 1) (y.k + x.k), false⟩
        let m := (RowState.store c.scratch b y').writeLe (a + 8) 4 ax.1
        .done { c with scratch := m, cvt := c.cvt ||| ay.2 ||| ax.2 ||| p.2 ||| l.2 })

/-- An operation that writes elements from those at s[a] and the record (R295, R298). -/
def Core.vosmElems (c : Core) (w : Fields) (op : Nat) (finish : Bool) (l : Nat) (val : RowState → FVal → Nat × Flags) : Core :=
  let n := c.count w
  let b := c.regN w.b
  let reads := c.vosmReads w n
  let writes := [(c.regN w.d, (fmt1 w).operandBytes n)]
  c.seqWith (c.vosmCauses w vosmUsed op finish reads writes [b]) (fun c =>
    if n == 0 then .done c
    else if c.mustWait reads writes then .wait
    else c.withHead (vTq w) (fun h =>
      if !headFmtOk w h then .raise cFormat
      else
        let r := RowState.load c.scratch b
        let rr := c.roundings w [fmt1 w, fmt2 w] n
        let c' :=
          if finish && r.nan then
            let c1 := rr.2.elementwise w (c.regN w.d) n l (fun _ _ => true) rr.1 (fun _ _ => .nan false false) (roundInto w)
            { c1 with cvt := c.cvt }
          else if finish && r.empty then
            let e := BitVec.ofNat 4 (vecFn w / 8)
            (rr.2.elementwise w (c.regN w.d) n l (c.active w) rr.1 (fun _ _ => .zero) (roundInto w)).setReg e
              (satInc (c.reg e) 1)
          else
            let fl := ((List.range n).filter (c.active w c.scratch)).foldl
              (fun (a : Flags) i => a ||| (val r (c.srcA w h n c.scratch i)).2) 0
            let c1 := rr.2.elementwise w (c.regN w.d) n l (c.active w) rr.1
              (fun m i => f32 (val r (c.srcA w h n m i)).1) (roundInto w)
            { c1 with cvt := c1.cvt ||| fl }
        .done (if vPop w then c'.pop else c')))

/-- `VOSM.SCALE`: d[i] = rnd(a[i] × α), rounded once from the exact product (Table 11.3). -/
def Core.vosmScale (c : Core) (w : Fields) : Core :=
  let n := c.count w
  let b := c.regN w.b
  let reads := c.vosmReads w n
  let writes := [(c.regN w.d, (fmt1 w).operandBytes n)]
  c.seqWith (c.vosmCauses w vosmUsed 2 false reads writes [b]) (fun c =>
    if n == 0 then .done c
    else if c.mustWait reads writes then .wait
    else c.withHead (vTq w) (fun h =>
      if !headFmtOk w h then .raise cFormat
      else
        let al := f32 (RowState.load c.scratch b).alpha
        let rr := c.roundings w [fmt1 w, fmt2 w] n
        let c' := rr.2.elementwise w (c.regN w.d) n (min (fmt1 w).lanes (fmt2 w).lanes) (c.active w) rr.1
          (fun m i => (c.srcA w h n m i).mul al) (roundInto w)
        .done (if vPop w then c'.pop else c')))

def Core.vosmNorm (c : Core) (w : Fields) : Core :=
  c.vosmElems w 3 true 4 (fun r v => f32div (if v.sig then 0x7F800001 else scoreBits v) r.l)

def Core.vosmProb (c : Core) (w : Fields) : Core :=
  c.vosmElems w 4 true 4 (fun r v =>
    let e := expTerm (scoreBits v) r.m
    let q := f32div e.1 r.l
    (q.1, e.2 ||| q.2 ||| (if v.sig then flagNV else 0)))

/-! ### Draws (R307) -/

/-- `k` consecutive draws for each of `n` elements, element i from lane i mod L (R130). -/
def takeDrawsK (lanes : List W64) (l n k : Nat) : List (List Nat) × List W64 :=
  (List.range n).foldl (fun (acc : List (List Nat) × List W64) i =>
    let g := nth 1 acc.2 (i % l)
    let r := (List.range k).foldl (fun (a : List Nat × W64) _ => let d := lfsrDraw a.2; (a.1 ++ [d.1], d.2)) ([], g)
    (acc.1 ++ [r.1], acc.2.set (i % l) r.2)) ([], lanes)

/-- Value of `VRAND` before scaling (R307). -/
def randValue (fn : Nat) (f : Fmt) (ds : List Nat) : FVal :=
  let wide : Nat := if f == .fp32 then 32 else 16
  let b : Nat := match f with
    | .fp32 => 24
    | .bf16 => 8
    | _ => 11
  let r := nth 0 ds 0 + (if f == .fp32 then 65536 * nth 0 ds 1 else 0)
  let u : Nat := r / 2 ^ (wide - b)
  match fn with
  | 0 => .fin false u (-(b : Int))
  | 1 =>
    let v : Int := 2 * (u : Int) - ((2 ^ b : Nat) : Int)
    .fin (decide (v < 0)) v.natAbs (-(b : Int))
  | _ =>
    let v : Int := ((ds.foldl (· + ·) 0 : Nat) : Int) - 393210
    .fin (decide (v < 0)) v.natAbs (-16)

/-- `VRAND` (R307). -/
def Core.vrand (c : Core) (w : Fields) : Core :=
  let n := c.count w
  let f := fmt1 w
  let fn := vecFn w
  let reads := c.maskRange w n
  let writes := [(c.regN w.d, f.operandBytes n)]
  let causes := c.vecCauses w { d := true, b := vS w, c := true, f1 := true } 3 false ++
    when (decide (2 < fn) || vSr w) cIllegal ++
    when (!(f == .fp32 || f == .bf16 || f == .fp16)) cFormat ++
    when (fn == 2 && decide (1024 < n)) cCount ++ rangeCauses (reads ++ writes) (c.maskAlign w)
  c.seqWith causes (fun c =>
    if n == 0 then .done c
    else if c.mustWait reads writes then .wait
    else
      let k := if fn == 2 then 12 else if f == .fp32 then 2 else 1
      let ds := takeDrawsK c.lanes f.lanes n k
      let s := if vS w then f32 (c.regN w.b) else .one
      let c := { c with lanes := ds.2 }
      .done (c.elementwise w (c.regN w.d) n f.lanes (c.active w) []
        (fun _ i => (randValue fn f (nth [] ds.1 i)).mul s) (roundInto w)))

/-! ### Drop-out (R308) -/

/-- a × 65,536 / (65,536 − Q), a dyadic value that rounds as the exact one does. -/
def dropScale (a : FVal) (q : Nat) : FVal :=
  match a with
  | .fin n m e => if m == 0 || q == 0 then .fin n m e else divFin n (m * 65536) (65536 - q) e
  | v => v

/-- `VDROP` (R308): one draw per element decides and, under `.SR`, rounds. -/
def Core.vdrop (c : Core) (w : Fields) : Core :=
  let n := c.count w
  let f1 := fmt1 w
  let f2 := fmt2 w
  let q := c.regN w.b % 65536
  let keep := c.regN w.c
  let reads := if vTq w then [] else [(c.regN w.a, f2.operandBytes n)]
  let writes := [(c.regN w.d, f1.operandBytes n)] ++ (if w.c == 0 then [] else [(keep, maskBytes n)])
  let causes := c.vecCauses w { d := true, a := true, b := true, c := true, f1 := true, f2 := true } 0 false ++
    when (f1.noArith || f2.noArith) cFormat ++ rangeCauses (reads ++ writes) (c.maskAlign w)
  c.seqWith causes (fun c =>
    if n == 0 then .done c
    else if c.mustWait reads writes then .wait
    else c.withHead (vTq w) (fun h =>
      if !headFmtOk w h then .raise cFormat
      else
        let ds := takeDraws c.lanes (max f1.lanes f2.lanes) n
        let kept (i : Nat) : Bool := q ≤ nth 0 ds.1 i
        let rnds := ds.1.map (fun d => if vSr w then Rnd.sr d else .rn)
        let c' := ({ c with lanes := ds.2 }).elementwise w (c.regN w.d) n (min f1.lanes f2.lanes) (fun _ _ => true) rnds
          (fun m i => if kept i then dropScale (c.srcA w h n m i) q else .zero)
          (fun v r => roundInto w v r)
        let c' := if w.c == 0 then c' else
          { c' with scratch := writeMaskBits c'.scratch keep ((List.range n).map (fun i => (i, kept i)) ++ maskTail n) }
        .done (if vPop w then c'.pop else c')))

/-! ### Sampling (R309 to R311) -/

/-- Candidates of step 1: (index, value), and the status bits NAN, INF, EMPTY. -/
def candidates (vs : List (Nat × FVal)) : List (Nat × FVal) × Bool × Bool × Bool :=
  let nan := vs.any (fun p => p.2.isNan)
  let infs := vs.filter (fun p => p.2 == .inf false)
  let cs := vs.filter (fun p => p.2 != .inf true)
  if nan then ([], true, !infs.isEmpty, false)
  else if infs.isEmpty then (cs, false, false, cs.isEmpty)
  else (infs, false, true, false)

/-- Largest candidate. -/
def candMax (cs : List (Nat × FVal)) : FVal := cs.foldl (fun a p => if a.lt p.2 then p.2 else a) (.inf true)

/-- Quotient (x - m) / τ rounded to FP32 from its exact value (R310 step 2). -/
def scoreQuotient (d tau : FVal) : Nat :=
  match d, tau with
  | .fin n p e, .fin k q f =>
    if q == 0 then (if p == 0 then 0 else if n != k then 0xFF800000 else 0x7F800000)
    else if p == 0 then 0 else (toF32F (divFin (n != k) p q (e - f))).1
  | .fin n _ _, .inf k => if n != k then 2 ^ 31 else 0
  | .inf n, t => if n != t.negative then 0xFF800000 else 0x7F800000
  | _, _ => 0x7FC00000

/-- Weight of a candidate (R310 step 2). -/
def weight (m tau x : FVal) : FVal :=
  if x == .inf false then .one
  else if x.eqv m then .one
  else f32 (expF32 (scoreQuotient (x.add m.neg) tau))

/-- Top-k by score, lower index first among equals (R310 step 3). -/
def topK (k : Nat) (cs : List (Nat × FVal)) : List (Nat × FVal) :=
  if k == 0 then cs else (sortBy (fun a b => !a.2.lt b.2) cs).take k

/-- Smallest prefix whose exact weight sum is at least P × S, at least one entry (R310 step 4). -/
def topPrefix (goal : FVal) : FVal → List (Nat × FVal) → List (Nat × FVal)
  | _, [] => []
  | acc, c :: cs =>
    let acc := acc.add c.2
    if acc.lt goal then c :: topPrefix goal acc cs else [c]

/-- Top-p on weighted candidates, unless P disables it (Table 11.8). -/
def topP (p : FVal) (ws : List (Nat × FVal)) : List (Nat × FVal) :=
  if p.isNan || !p.lt .one then ws
  else
    let s := exactSum (ws.map (·.2))
    let sorted := sortBy (fun a b => !a.2.lt b.2) ws
    if !(FVal.zero.lt p) then sorted.take 1 else topPrefix (p.mul s) .zero sorted

/-- τ is negative, NaN or +infinity (Table 11.9). -/
def badTau (tau : FVal) : Bool :=
  tau.isNan || tau == .inf false || tau.lt .zero

/-- The sampling status word (Table 11.9). -/
def samplingStatus (kept : Nat) (param inf nan empty : Bool) : Nat :=
  kept * 65536 + 8 * b2n param + 4 * b2n inf + 2 * b2n nan + b2n empty

/-- Checks and ranges of the sampling instructions (R309, Table 11.6). -/
def Core.sampleOp (c : Core) (w : Fields) (maskOut : Bool) (body : Core → Head → Nat → Core) (none? : Core → Core) : Core :=
  let n := c.count w
  let b := c.regN w.b
  let reads := (if vTq w then [] else [(c.regN w.a, (fmt2 w).operandBytes n)]) ++ [(b, if n == 0 then 0 else 16)] ++ c.maskRange w n
  let writes := [(b + 12, if n == 0 then 0 else 4)] ++ (if maskOut then [(c.regN w.d, maskBytes n)] else [])
  let causes := c.vecCauses w { d := true, a := true, b := true, c := true, f2 := true } 0 false ++
    when (!(fmt2 w).isScore) cFormat ++
    rangeCauses (reads ++ writes) ((if maskOut then [c.regN w.d] else []) ++ c.maskAlign w) ++ when (b % 16 != 0) cAlign
  c.seqWith causes (fun c =>
    if n == 0 then .done (none? c)
    else if c.mustWait reads writes then .wait
    else c.withHead (vTq w) (fun h =>
      if !headFmtOk w h then .raise cFormat
      else
        let c' := body c h n
        .done (if vPop w then c'.pop else c')))

/-- Write the mask of the remaining entries and the status word. -/
def Core.writeSample (c : Core) (w : Fields) (n : Nat) (ks : List Nat) (status : Nat) : Core :=
  let m := writeMaskBits c.scratch (c.regN w.d) ((List.range n).map (fun i => (i, ks.contains i)) ++ maskTail n)
  { c with scratch := m.writeLe (c.regN w.b + 12) 4 status }

/-- `VTOPK`: steps 1 and 3 (R310). -/
def Core.vtopk (c : Core) (w : Fields) : Core :=
  c.sampleOp w true (fun c h n =>
    let cs := candidates (c.activeVals w h n)
    let fin := topK (c.scratch.readLe (c.regN w.b + 4) 4) cs.1
    c.writeSample w n (fin.map (·.1)) (samplingStatus fin.length false cs.2.2.1 cs.2.1 cs.2.2.2)) id

/-- `VTOPP`: steps 1, 2 and 4 (R310). Under PARAM the spec states no set: the mask is free (log 17). -/
def Core.vtopp (c : Core) (w : Fields) : Core :=
  c.sampleOp w true (fun c h n =>
    let cs := candidates (c.activeVals w h n)
    let tau := f32 (c.scratch.readLe (c.regN w.b) 4)
    let m := candMax cs.1
    let fin := if badTau tau then (cs.1.filter (fun p => Config.paramMask p.1))
      else topP (f32 (c.scratch.readLe (c.regN w.b + 8) 4)) (cs.1.map (fun p => (p.1, weight m tau p.2)))
    c.writeSample w n (fin.map (·.1)) (samplingStatus fin.length (badTau tau) cs.2.2.1 cs.2.1 cs.2.2.2)) id

/-- The index that u selects: the smallest of the final set whose cumulative weight × 2^32 exceeds S × u (R311). -/
def pickIndex (goal : FVal) : FVal → List (Nat × FVal) → Nat → Nat
  | _, [], last => last
  | acc, c :: cs, _ =>
    let acc := acc.add c.2
    if goal.lt (acc.mul (.fin false 1 32)) then c.1 else pickIndex goal acc cs c.1

/-- `VSAMPLE` (R311): two draws of lane 0 in every case. -/
def Core.vsample (c : Core) (w : Fields) : Core :=
  c.sampleOp w false (fun c h n =>
    let ds := takeDrawsK c.lanes 1 1 2
    let dl := nth [] ds.1 0
    let u := nth 0 dl 0 + 65536 * nth 0 dl 1
    let b := c.regN w.b
    let m := c.scratch
    let cs := candidates (c.activeVals w h n)
    let tau := f32 (m.readLe b 4)
    let mx := candMax cs.1
    let bad := cs.2.1 || cs.2.2.2 || badTau tau
    let first := (cs.1.find? (fun p => p.2.eqv mx || p.2 == mx)).map (·.1) |>.getD 0
    let ks := topK (m.readLe (b + 4) 4) (cs.1)
    let ws := topP (f32 (m.readLe (b + 8) 4)) (ks.map (fun p => (p.1, weight mx tau p.2)))
    let fin := sortBy (fun (a b : Nat × FVal) => a.1 ≤ b.1) ws
    let zeroTau := tau.eqv .zero
    let index := if bad then 0xFFFFFFFF
      else if zeroTau then first
      else pickIndex ((exactSum (fin.map (·.2))).mul (.fin false u 0)) .zero fin 0
    let kept := if bad then 0 else if zeroTau then 1 else fin.length
    let c := { c with lanes := ds.2, scratch := m.writeLe (b + 12) 4 (samplingStatus kept (badTau tau) cs.2.2.1 cs.2.1 cs.2.2.2) }
    c.setReg w.d (BitVec.ofNat 32 index)) (fun c => c.setReg w.d 0xFFFFFFFF)

end Sys2Proof
end

