-- ==== Sys2Proof/Machine/Matrix.lean ====
section
/-! DEFINITION. Issue of the matrix instructions (R88, R94, R109, R144, R146, R149 to R154): static rules, waits, the drain record
at issue, and the pass that enters the pass queue. -/
namespace Sys2Proof

/-- A pass of operation `op` with the register values it reads at issue (Table 06.17). -/
def Core.passOf (c : Core) (op : BitVec 3) (w : Fields) : Pass :=
  { op := op, w := w, dv := c.reg w.d, av := c.reg w.a, bv := c.reg w.b, cv := c.reg w.c,
    mv := if modBit w 4 then c.reg (BitVec.ofNat 4 (immReg w)) else 0,
    closes := modBit w 0, setB := c.arr.nextB, opens := c.arr.openTile.isNone, index := c.pc }

/-- The count of a pass lies in its range (R150). -/
def Pass.countOk (p : Pass) : Bool :=
  if p.isT4 then 1 ≤ p.n && p.n ≤ 1024
  else if p.shift then 1 ≤ p.n && p.n * immKw p.w ≤ 4096
  else 1 ≤ p.n && p.n ≤ 4096

/-- Illegal fields of a pass (R143, R150, R152, R580): D without `.CLOSE`, MREG without `.MB`, KW without `.SHIFT`, IMM bit 19 of a
dense pass, C of a dense pass, `.SHIFT` on a T4 kind, a count outside its range. -/
def Pass.illegal (p : Pass) : Bool :=
  p.w.bad { d := p.closes, a := true, b := true, c := p.op != 0, f1 := true, f2 := true,
            imm := 0x1FFF + (if p.shift then 0x07E000 else 0) + (if p.op == 0 then 0 else 0x080000) +
              (if p.mb then 0xF00000 else 0),
            mod := 0x1F } ||
  (p.shift && p.op != 0) || !p.countOk

/-- The kind of the tile a pass meets: the open tile, or the one that it opens (R152). -/
def Core.tileFor (c : Core) (p : Pass) : OpenTile :=
  c.arr.openTile.getD ⟨p.wide, modBit p.w 3, p.fx.isInt⟩

/-- Shape violations (R94, R152). -/
def Core.shapeBad (c : Core) (p : Pass) : Bool :=
  (p.wide && (p.shift || p.op == 3)) || p.wide != (c.tileFor p).wide ||
  (modBit p.w 3 && c.arr.openTile.isSome) || (p.mb && !(c.tileFor p).accThrough)

/-- Causes of a pass at issue (R150 to R153, R144, R159). -/
def Core.passCauses (c : Core) (p : Pass) : List Nat :=
  when (c.inTransfer || p.illegal) cIllegal ++
  when (p.fx.isInt != p.fy.isInt || p.fx.isInt != (c.tileFor p).int) cFormat ++
  when (c.shapeBad p) cShape ++
  when (p.reads.any outOfScratch || (p.closes && outOfScratch (p.dv.toNat, 64)) ||
    (p.mb && outOfScratch (p.copyOffset, 256))) cBounds ++
  when (p.mb && (p.copyOffset % 32 != 0 || bits p.mv.toNat 12 4 != 0)) cAlign

/-- Causes that the drain record shows at issue (R144, R154). -/
def recordCauses (r : List Byte) (wide : Bool) : List Nat :=
  when ((drainReads r wide ++ drainWrites r).any outOfScratch) cBounds ++ when (!drainRecordOk r) cRecord

/-- Ranges that a pass reads and writes as it issues and runs: operands, the drain record and what it names, the protective copy
(R146, R151, R153). -/
def Pass.readRanges (p : Pass) (rec_ : List Byte) : List (Nat × Nat) :=
  p.reads ++ (if p.closes then (p.dv.toNat, 64) :: drainReads rec_ p.wide else [])
def Pass.writeRanges (p : Pass) (rec_ : List Byte) : List (Nat × Nat) :=
  (if p.closes then drainWrites rec_ else []) ++ (if p.mb && !p.isClose then [(p.copyOffset, 256)] else [])

/-- The pass enters the queue: it opens a tile when none is open (R152), its `.MB` makes the latch the restore point (R536), and its
`.CLOSE` ends the open tile in program order. -/
def Core.enqueue (c : Core) (p : Pass) : Core :=
  let o := c.tileFor p
  let a := { c.arr with openTile := if p.closes then none else some o, nextB := if p.closes then !c.arr.nextB else c.arr.nextB }
  let c := { c with arr := a, restorePoint := if p.mb && !p.isClose then some c.latch else c.restorePoint }
  c.pushPass p

/-- The waits of a pass and the checks of its drain record (R91, R146, R154). -/
def Core.issuePass (c : Core) (p : Pass) : IssueResult :=
  let r := if p.closes then c.scratch.read p.dv.toNat 64 else []
  if decide (2 ≤ c.arr.queued) || c.mustWait (if p.closes then [(p.dv.toNat, 64)] else []) [] then .wait
  else match minCause (if p.closes then recordCauses r p.wide else []) with
    | some k => .raise k
    | none =>
      if c.mustWait (p.readRanges r) (p.writeRanges r) then .wait
      else .done (c.enqueue { p with drec := r })

/-- `MMA` and its T4 kinds (Table 06.4); in the service state no matrix instruction issues (R136). -/
def Core.mma (c : Core) (op : BitVec 3) (w : Fields) : Core :=
  if c.service then c
  else
    let p := c.passOf op w
    c.seqWith (c.passCauses p) (fun c => c.issuePass p)

/-- `MCLOSE` (R154): nothing without an open tile, else a pass of no products with the tile's shape. -/
def Core.mclose (c : Core) (w : Fields) : Core :=
  if c.service then c
  else
    let bad := when (c.inTransfer || w.bad { d := true }) cIllegal
    match c.arr.openTile with
    | none => c.seq bad (fun c => c)
    | some o =>
      let p := { c.passOf 4 { w with mod := if o.wide then 2 else 0 } with closes := true, opens := false }
      c.seqWith (bad ++ when (outOfScratch (p.dv.toNat, 64)) cBounds) (fun c => c.issuePass p)

/-- `MWAIT` (Table 06.4). -/
def Core.mwait (c : Core) (w : Fields) : Core :=
  if c.service then c
  else c.seqWith (when (c.inTransfer || w.bad {}) cIllegal) (fun c => if c.arrayIdle then .done c else .wait)

/-! ### Norm, control and scalar instructions -/

/-- `JAL` (R148). -/
def Core.jal (c : Core) (w : Fields) : Core :=
  c.issueWith (when (w.bad { d := true, imm := 0xFFFFFF }) cIllegal) 0
    (fun c => (c.setReg w.d (BitVec.ofNat 32 (c.pc.toNat + 1))).goto (c.branchTarget w))

/-- `JR` (R148). -/
def Core.jr (c : Core) (w : Fields) : Core :=
  c.issueWith (when (w.bad { a := true }) cIllegal) 0 (fun c => c.goto (c.regN w.a))

/-- `LOOP` (Table 06.3). -/
def Core.loop (c : Core) (w : Fields) : Core :=
  c.issueWith (when (w.bad { a := true, imm := 0xFFFFFF }) cIllegal) 0 (fun c =>
    let v := c.reg w.a - 1
    (c.setReg w.a v).goto (if v != 0 then c.branchTarget w else c.pc.toNat + 1))

/-- `TRAP` raises the software trap with its code (R163). -/
def Core.trap (c : Core) (w : Fields) : Core :=
  c.issueWith (when (w.bad { imm := 0xFF }) cIllegal ++ [cTrap]) (bits w.imm.toNat 0 8) .done

/-- Address of `LD.S` and `ST.S`. -/
def Core.scalarAddr (c : Core) (w : Fields) : Nat := (c.reg w.a + w.sext).toNat

/-- Causes of a scalar access (R144, Table 06.3): a base register that holds no offset, a word beyond the scratchpad, alignment. -/
def Core.scalarCauses (c : Core) (w : Fields) (u : Used) : List Nat :=
  let a := c.scalarAddr w
  when (w.bad u) cIllegal ++ when (decide (4095 < c.regN w.a) || outOfScratch (a, 4)) cBounds ++ when (a % 4 != 0) cAlign

/-- `LD.S`. -/
def Core.ldS (c : Core) (w : Fields) : Core :=
  c.seqWith (c.scalarCauses w { d := true, a := true, imm := 0xFFFFFF }) (fun c =>
    if c.mustWait [(c.scalarAddr w, 4)] [] then .wait else .done (c.setReg w.d (c.word (c.scalarAddr w))))

/-- `ST.S`. -/
def Core.stS (c : Core) (w : Fields) : Core :=
  c.seqWith (c.scalarCauses w { a := true, b := true, imm := 0xFFFFFF }) (fun c =>
    if c.mustWait [] [(c.scalarAddr w, 4)] then .wait
    else .done { c with scratch := c.scratch.writeLe (c.scalarAddr w) 4 (c.regN w.b) })

/-- A status word (Table 06.13). -/
def Core.statusWord (c : Core) (id : CoreId) (n : Nat) : W32 :=
  match n with
  | 0 => c.cvt.setWidth 32
  | 1 => BitVec.ofNat 32 (c.excCause.toNat + 256 * c.excCode.toNat + 65536 * c.excIndex.toNat)
  | 2 => c.repeats
  | 3 => c.fallbacks
  | 4 => BitVec.ofNat 32 (c.restarts.toNat + 65536 * c.restores.toNat)
  | 5 => id.setWidth 32
  | 6 => BitVec.ofNat 32 ((c.tq.filter (·.visible)).length + 8 * c.arr.queued)
  | 7 => BitVec.ofNat 32 (b2n c.exact + 2 * b2n c.service)
  | 8 => c.cycles.setWidth 32
  | 9 => c.cycleHi
  | _ => 0

/-- Reading word 8 latches word 9 (R162, R11). -/
def Core.latchStatus (c : Core) (n : Nat) : Core := if n == 8 then { c with cycleHi := (c.cycles >>> 32).setWidth 32 } else c

/-- `STAT.RD` (R162). -/
def Core.statRd (c : Core) (id : CoreId) (w : Fields) : Core :=
  let n := w.imm.toNat % 256
  c.seq (when (w.bad { d := true, imm := 0xFF }) cIllegal) (fun c => (c.latchStatus n).setReg w.d (c.statusWord id n))

/-- Clear the W1C bits of a status word (R162, Tables 03.8, 04.5, 06.14, 06.15). -/
def Core.clearStatus (c : Core) (n : Nat) (m : W32) : Core :=
  match n with
  | 0 => { c with cvt := c.cvt &&& ~~~(m.setWidth 4) }
  | 1 => { c with excCause := c.excCause &&& ~~~(m.setWidth 8) }
  | 2 => { c with repeats := c.repeats &&& ~~~m }
  | 3 => { c with fallbacks := c.fallbacks &&& ~~~m }
  | 4 => { c with restarts := c.restarts &&& ~~~(m.setWidth 16), restores := c.restores &&& ~~~((m >>> 16).setWidth 16) }
  | _ => c

/-- `STAT.CLR` (R162). -/
def Core.statClr (c : Core) (w : Fields) : Core :=
  c.seq (when (w.bad { a := true, imm := 0xFF }) cIllegal) (fun c => c.clearStatus (w.imm.toNat % 256) (c.reg w.a))

end Sys2Proof
end

