-- ==== Sys2Proof/Machine/MemOps.lean ====
section
/-! DEFINITION. Physical memory (R315 to R318, R323, R324), reservations (R373), violations (R355), the fault ring (R342, R343), page
walks (R334 to R340) and cluster TLBs (R346). -/
namespace Sys2Proof

/-! ### The physical map (R315, R316) -/

def tier1End : Nat := 1024000000000
def tier2Base : Nat := 0x010000000000
def tier3Base : Nat := 0x020000000000
def tier3End : Nat := 0x060000000000
def deviceBase : Nat := 0x8000000000000
def granule : Nat := 2097152

/-- Bytes of tier 2: 16 channels of T2_CAP GB. -/
def MemState.tier2Bytes (m : MemState) : Nat := 16 * m.t2Cap.toNat * 1000000000

/-- An address lies in populated memory (Table 12.2). -/
def MemState.populated (m : MemState) (a : Nat) : Bool :=
  if a < tier1End then true
  else if tier2Base ≤ a && a < tier3Base then a - tier2Base < m.tier2Bytes
  else if tier3Base ≤ a && a < tier3End then
    let p := (a - tier3Base) / tier2Base
    (a - tier3Base) % tier2Base < (nth 0 m.t3Cap p).toNat
  else false

/-- The controller of an address: stack 0 to 15, channel 16 to 31, port 32 to 35 (R316, Table 12.8). -/
def memUnit (a : Nat) : Nat :=
  if a < tier2Base then bits a 12 4
  else if a < tier3Base then 16 + bits a 12 4
  else 32 + bits ((a - tier3Base) / tier2Base) 0 2

/-- The home die of an address (Table 12.3). -/
def homeDie (a : Nat) : Nat :=
  let pair (io : Nat) (odd : Nat) : Nat := nth 0 [0, 4, 2, 6] io + odd
  if a < tier2Base then bits a 13 3
  else if a < tier3Base then pair (bits a 14 2) (bits a 12 1)
  else pair (bits ((a - tier3Base) / tier2Base) 0 2) (bits a 12 1)

/-- Write bytes where memory is populated. -/
def MemState.putBytes (m : MemState) : Memory → Nat → List Byte → Memory
  | b, _, [] => b
  | b, a, x :: xs => MemState.putBytes m (if m.populated a then b.set a x else b) (a + 1) xs

/-- An access of `n` bytes to an unpopulated range is counted (R315). -/
def MemState.touch (m : MemState) (a n : Nat) : MemState :=
  if m.populated a && m.populated (a + n - 1) then m else { m with unpopulated := satInc m.unpopulated 1 }

/-- A write at the home: a write of a whole 64-byte line clears its poison (R324). -/
def MemState.put (m : MemState) (a : Nat) (bs : List Byte) : MemState :=
  { m.touch a bs.length with
    bytes := m.putBytes m.bytes a bs
    poison := m.poison.filter (fun l => !(decide (a ≤ 64 * l) && decide (64 * l + 64 ≤ a + bs.length))) }

/-- A line is poisoned. -/
def MemState.poisoned (m : MemState) (line : Nat) : Bool := m.poison.contains line

/-- Some line of a range is poisoned. -/
def MemState.poisonIn (m : MemState) (a n : Nat) : Bool :=
  m.poison.any (fun l => decide (a < 64 * l + 64) && decide (64 * l < a + n))

/-- Poison a line (R323). -/
def MemState.poisonLine (m : MemState) (line : Nat) : MemState :=
  if m.poisoned line then m else { m with poison := insertBy (fun a b => decide (a ≤ b)) line m.poison }

def MemState.modErr (m : MemState) (u : Nat) (f : MemErr → MemErr) : MemState := { m with errs := tblMod {} m.errs u f }
def MemState.modCtl (m : MemState) (u : Nat) (f : MemCtl → MemCtl) : MemState := { m with ctls := tblMod {} m.ctls u f }

/-- A read returned poison (Table 12.8). -/
def MemState.poisonRead (m : MemState) (a : Nat) : MemState :=
  m.modErr (memUnit a) (fun (e : MemErr) => { e with poisonReads := satInc e.poisonReads 1 })

/-! ### Writes of masters and engines -/

/-- A write performed at the home cache (R359); reservations of other masters on its granules are lost (R373). -/
def Chip.storeBy (c : Chip) (by' : Option Nat) (a : Nat) (bs : List Byte) : Chip :=
  { c with
    mem := c.mem.put a bs
    reservations := c.reservations.filter (fun p =>
      by' == some p.1 || !(decide (a < 64 * p.2 + 64) && decide (64 * p.2 < a + bs.length))) }

/-- A write of an engine, unit or compute core. -/
def Chip.store (c : Chip) (a : Nat) (bs : List Byte) : Chip := if bs.isEmpty then c else c.storeBy none a bs
def Chip.storeLe (c : Chip) (a n v : Nat) : Chip := c.store a (leBytes n v)
def Chip.load (c : Chip) (a n : Nat) : List Byte := c.mem.bytes.read a n
def Chip.loadLe (c : Chip) (a n : Nat) : Nat := c.mem.bytes.readLe a n

/-- A read that a poisoned line meets (R324): counted, and stamped as source 40. -/
def Chip.poisonRead (c : Chip) (v : Env) (a data : Nat) : Chip := ({ c with mem := c.mem.poisonRead a }).stamp v 40 data

/-! ### Violations (R355) -/

/-- A violation: its kind, tenant and the unit of its stamp. -/
def Chip.violation (c : Chip) (v : Env) (t : Option TenantId) (kind data : Nat) : Chip :=
  let x := { c.xlt with
    lastTenant := t.getD 0
    lastKind := BitVec.ofNat 4 kind
    violations := satInc c.xlt.violations 1 }
  let c := { c with xlt := x }
  let c := match t with
    | some t => c.modTenant t (fun (n : Tenant) => { n with violations := satInc n.violations 1 })
    | none => c
  c.stamp v 43 data

/-! ### The ring of Table 13.7: HEAD, TAIL, LOST, then records -/

/-- Write a record to a ring unless it is full; HEAD is performed last (R343, R367). -/
def Chip.ringPut (c : Chip) (base size : Nat) (record : List Byte) : Chip × Bool :=
  let head := c.loadLe base 4
  let tail := c.loadLe (base + 4) 4
  if (head + 2 ^ 32 - tail) % 2 ^ 32 < size then
    let c := c.store (base + 64 + record.length * (head % size)) record
    (c.storeLe base 4 (head + 1), true)
  else (c.storeLe (base + 8) 4 (satAdd 32 (c.loadLe (base + 8) 4) 1), false)

/-- A fault record (Table 13.8); the answer is its serial when it was written (R343). The notification is raised after it. -/
def Chip.faultRecord (c : Chip) (v : Env) (t : TenantId) (cause level flags va entryAddr entry requester stream : Nat) :
    Chip × Option W32 :=
  match c.tenant t with
  | none => (c, none)
  | some n =>
    let record := leBytes 4 n.serial.toNat ++ leBytes 2 cause ++ leBytes 1 level ++ leBytes 1 flags ++ leBytes 8 va ++
      leBytes 8 entryAddr ++ leBytes 8 entry ++ leBytes 4 requester ++ leBytes 4 stream ++ leBytes 8 v.ns ++ leBytes 16 0
    let r := c.ringPut n.ring n.ringSize record
    let c := r.1
    if r.2 then
      let next : W32 := if n.serial = BitVec.allOnes 32 then 1 else n.serial + 1
      ((c.setTenant t { n with serial := next, notices := n.notices + 1 }).stamp v 42 0, some n.serial)
    else (c, none)

/-! ### Ownership (R337, R338) -/

/-- The ownership entry of a granule. -/
def Chip.ownEntry (c : Chip) (n : Nat) : Nat := c.loadLe (4096 * c.xlt.ownBase.toNat + 2 * n) 2

/-- A table address of tenant `t` (R338). -/
def Chip.ownsTable (c : Chip) (t : TenantId) (a : Nat) : Bool :=
  let e := c.ownEntry (a / granule)
  c.xlt.ownEnable && a < tier3End && bitAt e 15 && e % 4096 == t.toNat

/-- A leaf of tenant `t`: every granule that the page covers belongs to it and is not a SUPER granule (R338, log 21). -/
def Chip.ownsLeaf (c : Chip) (t : TenantId) (a log2 : Nat) : Bool :=
  c.xlt.ownEnable && a + 2 ^ log2 ≤ tier3End &&
  (List.range (ceilDiv (2 ^ log2) granule)).all (fun i =>
    let e := c.ownEntry (a / granule + i)
    bitAt e 15 && !bitAt e 13 && e % 4096 == t.toNat)

/-! ### Walks (R334 to R340) -/

/-- How a walk ends (Table 13.6): a TLB entry, or an outcome with the level, entry address and entry of its record. -/
inductive WalkEnd where
  | ok (e : TlbEntry)
  | fail (outcome level entryAddr entry : Nat)
  deriving DecidableEq, Repr

/-- Sizes of leaves by level (Table 13.1). -/
def leafLog2 : Nat → Nat
  | 2 => 30
  | 1 => 21
  | _ => 12

/-- A valid entry is malformed (R335). -/
def malformed (e level log2 : Nat) : Bool :=
  let leaf := !bitAt e 1
  bits e 52 12 != 0 || bits e 6 6 != 0 || (bitAt e 1 && level == 0) || (leaf && level == 3) ||
  (bitAt e 5 && !(leaf && level == 0)) ||
  (leaf && (bits e 12 40 * 4096 % 2 ^ log2 != 0 || bits e 2 3 == 0 || (bitAt e 4 && !bitAt e 3)))

/-- A walk from a table of a level; `read` reads table entries. -/
def Chip.walkFrom (c : Chip) (read : Nat → Nat) (t : TenantId) (va : Nat) : Nat → Nat → WalkEnd
  | level, table =>
    let ea := table + 8 * bits va (12 + 9 * level) 9
    let e := read ea
    let group := level == 0 && bitAt e 5
    let log2 := if group then 16 else leafLog2 level
    if !bitAt e 0 then .fail 1 level ea e
    else if malformed e level log2 then .fail 2 level ea e
    else if group && !(List.range 16).all (fun i => read (table + bits va 16 5 * 128 + 8 * i) == e) then .fail 2 level ea e
    else
      let a := bits e 12 40 * 4096
      if bitAt e 1 then
        if deviceBase ≤ a then .fail 3 level ea e
        else if !c.ownsTable t a then .fail 4 level ea e
        else match level with
          | 0 => .fail 2 level ea e
          | l + 1 => Chip.walkFrom c read t va l a
      else if deviceBase ≤ a || !c.ownsLeaf t a log2 then .fail 4 level ea e
      else .ok { tenant := t, va := BitVec.ofNat 48 (va / 2 ^ log2 * 2 ^ log2), log2 := BitVec.ofNat 5 log2,
                 pa := BitVec.ofNat 52 a, r := bitAt e 2, w := bitAt e 3, at' := bitAt e 4 }

/-- The walk of a virtual address from the tenant's root. -/
def Chip.walk (c : Chip) (read : Nat → Nat) (t : TenantId) (va : Nat) : WalkEnd :=
  match c.tenant t with
  | none => .fail 1 3 0 0
  | some n =>
    if n.root == 0 then .fail 1 3 0 0
    else if deviceBase ≤ n.root then .fail 3 3 n.root 0
    else if !c.ownsTable t n.root then .fail 4 3 n.root 0
    else c.walkFrom read t va 3 n.root

/-- Table entries as a die's walker sees them: its own cache, then the home (R339). -/
def Chip.tableEntry (c : Chip) (d : DieId) (t : TenantId) (a : Nat) : Nat :=
  match (tblGet {} c.xlt.walkers d.toNat).cache.find? (fun x => x.1 == t && x.2.1 == a) with
  | some x => x.2.2.toNat
  | none => c.loadLe a 8

/-- Entries that a walk of `va` reads. -/
def Chip.walkReads (read : Nat → Nat) (va : Nat) : Nat → Nat → List Nat
  | 0, table => [table + 8 * bits va 12 9]
  | l + 1, table =>
    let ea := table + 8 * bits va (12 + 9 * (l + 1)) 9
    let e := read ea
    ea :: (if bitAt e 0 && bitAt e 1 then Chip.walkReads read va l (bits e 12 40 * 4096) else [])

/-- The walker keeps the valid entries that a walk has read, up to 2,048 (Table 13.5). -/
def Chip.cacheEntries (c : Chip) (d : DieId) (t : TenantId) (va : Nat) : Chip :=
  match c.tenant t with
  | none => c
  | some n =>
    let read := c.tableEntry d t
    let eas := (Chip.walkReads read va 3 n.root).filter (fun a => bitAt (read a) 0)
    let w := tblGet {} c.xlt.walkers d.toNat
    let old := w.cache.filter (fun x => !(x.1 == t && eas.contains x.2.1))
    let new := eas.map (fun a => (t, a, BitVec.ofNat 64 (read a)))
    { c with xlt := { c.xlt with walkers := tblSet c.xlt.walkers d.toNat { w with cache := (new ++ old).take 2048 } } }

/-! ### TLBs (R346) -/

def TlbEntry.maps (e : TlbEntry) (t : TenantId) (va : Nat) : Bool :=
  e.tenant == t && va / 2 ^ e.log2.toNat == e.va.toNat / 2 ^ e.log2.toNat

def TlbEntry.phys (e : TlbEntry) (va : Nat) : Nat := e.pa.toNat + va % 2 ^ e.log2.toNat

/-- The entry that maps an address. -/
def Cluster.tlbFind (x : Cluster) (t : TenantId) (va : Nat) : Option TlbEntry := x.tlb.find? (fun e => e.maps t va)

/-- A hit makes the entry the most recent. -/
def Cluster.tlbUse (x : Cluster) (e : TlbEntry) : Cluster := { x with tlb := e :: x.tlb.filter (fun y => y != e) }

/-- Installing an entry drops what maps the same page and the least recent beyond 256. -/
def Cluster.tlbInstall (x : Cluster) (e : TlbEntry) : Cluster :=
  { x with tlb := (e :: x.tlb.filter (fun y => !y.maps e.tenant e.va.toNat)).take 256 }

/-! ### Addresses of engines -/

/-- Physical address of a tenant's virtual address, by a walk that keeps nothing (log 22). -/
def Chip.physOf (c : Chip) (t : TenantId) (va : Nat) : Option TlbEntry :=
  match c.walk (fun a => c.loadLe a 8) t va with
  | .ok e => some e
  | .fail _ _ _ _ => none

/-- `n` bytes of a tenant's virtual memory; a byte that does not translate reads zero. -/
def Chip.vread (c : Chip) (t : TenantId) (va n : Nat) : List Byte :=
  let pages := (List.range (n / 4096 + 2)).map (fun i => (va / 4096 + i, c.physOf t ((va / 4096 + i) * 4096)))
  (List.range n).map (fun i =>
    let a := va + i
    match (pages.find? (fun p => p.1 == a / 4096)).bind (fun p => p.2) with
    | some e => if e.r then c.mem.bytes.get (e.phys a) else 0
    | none => 0)

def Chip.vreadLe (c : Chip) (t : TenantId) (va n : Nat) : Nat := ofLe (c.vread t va n)

/-- Every byte of a range translates with permission to write. -/
def Chip.vwritable (c : Chip) (t : TenantId) (va n : Nat) : Bool :=
  (List.range (n / 4096 + 2)).all (fun i =>
    let p := va / 4096 + i
    decide (va + n ≤ p * 4096) || (match c.physOf t (p * 4096) with
      | some e => e.w
      | none => false))

def Chip.vreadable (c : Chip) (t : TenantId) (va n : Nat) : Bool :=
  (List.range (n / 4096 + 2)).all (fun i =>
    let p := va / 4096 + i
    decide (va + n ≤ p * 4096) || (match c.physOf t (p * 4096) with
      | some e => e.r
      | none => false))

/-- Write bytes to a tenant's virtual memory, page by page, where pages permit it. -/
def Chip.vwrite (c : Chip) (t : TenantId) (va : Nat) (bs : List Byte) : Chip :=
  (List.range (bs.length / 4096 + 2)).foldl (fun (c : Chip) i =>
    let lo := max va ((va / 4096 + i) * 4096)
    let hi := min (va + bs.length) ((va / 4096 + i + 1) * 4096)
    if hi ≤ lo then c
    else match c.physOf t lo with
      | some e => if e.w then c.store (e.phys lo) (slice bs (lo - va) (hi - lo)) else c
      | none => c) c

/-- Some line of a tenant's range is poisoned (R324). -/
def Chip.vpoison (c : Chip) (t : TenantId) (va n : Nat) : Bool :=
  (List.range (n / 4096 + 2)).any (fun i =>
    let lo := max va ((va / 4096 + i) * 4096)
    let hi := min (va + n) ((va / 4096 + i + 1) * 4096)
    decide (lo < hi) && (match c.physOf t lo with
      | some e => c.mem.poisonIn (e.phys lo) (hi - lo)
      | none => false))

/-- Read bytes at a command's address: physical on an owner ring, virtual on a tenant ring (Table 20.6). -/
def Chip.aread (c : Chip) (t : Option TenantId) (a n : Nat) : List Byte :=
  match t with
  | some t => c.vread t a n
  | none => c.load a n

def Chip.awrite (c : Chip) (t : Option TenantId) (a : Nat) (bs : List Byte) : Chip :=
  match t with
  | some t => c.vwrite t a bs
  | none => c.store a bs

end Sys2Proof
end

