-- ==== Sys2Proof/Machine/GlobalMem.lean ====
section
/-! DEFINITION. Global memory accesses of cores (R160, R178, R179, R341, R345, R359 to R365, R370 to R373), the write buffer and the
cluster cache, the die walker's events (R339 to R344), and the memory controllers (R321 to R327). -/
namespace Sys2Proof

/-! ### A core's events -/

/-- The clocks of a core run: its cluster is not gated and its sector runs (R516, R517). -/
def Chip.coreRuns (c : Chip) (id : CoreId) : Bool :=
  !(c.cluster (clusterOf id)).gated && (c.sector (sectorOf id)).st == .running && !c.sys.failQuiet

/-- Stamps of a core's new exception and of its new array fault (sources 37 and 38, Table 19.2). -/
def Chip.stampFaults (c : Chip) (v : Env) (id : CoreId) (old : Core) : Chip :=
  let k := c.core id
  let cl := (clusterOf id).toNat
  let c := if old.excCause == 0 && k.excCause != 0 then c.stamp v 37 cl else c
  if (!old.restorePend && k.restorePend) || (old.excCause == 0 && k.excCause == 0x0A) then c.stamp v 38 cl else c

/-- An event or instruction of one core, while its clocks run. -/
def Chip.onCore (c : Chip) (v : Env) (id : CoreId) (f : Core → Core) : Chip :=
  if c.coreRuns id then (c.modCore id f).stampFaults v id (c.core id) else c

/-! ### Handles (R178, R179) -/

def handleField (h : BitVec 512) (byte n : Nat) : Nat := bits h.toNat (8 * byte) (8 * n)
def handleBase (h : BitVec 512) : Nat := handleField h 0 6
def handleLimit (h : BitVec 512) : Nat := handleField h 8 6
def handleClass (h : BitVec 512) : Nat := bits (handleField h 17 1) 0 2
def handleNoAlloc (h : BitVec 512) : Bool := bitAt (handleField h 16 1) 3

/-- An empty handle: limit 0, or a reserved field that is not zero (R178). -/
def handleEmpty (h : BitVec 512) : Bool :=
  handleLimit h == 0 || handleField h 6 2 != 0 || handleField h 14 2 != 0 || bits (handleField h 16 1) 4 4 != 0 ||
  bits (handleField h 17 1) 2 6 != 0 || handleField h 18 46 != 0

/-- An access of `n` bytes at offset `o` keeps protection; `perm` is 0 read, 1 write, 2 atomic (R179). -/
def handleOk (h : BitVec 512) (o n perm : Nat) : Bool :=
  !handleEmpty h && o + n ≤ handleLimit h && handleBase h + o + n ≤ 2 ^ 48 && bitAt (handleField h 16 1) perm

/-- Class of a handle's request: a tenant without the grant has class 0 served as class 1 (R321). -/
def Chip.reqClass (c : Chip) (t : Option TenantId) (h : BitVec 512) : BitVec 2 :=
  let k := handleClass h
  let granted := match t.bind c.tenant with
    | some n => n.class0
    | none => false
  BitVec.ofNat 2 (if k == 0 && !granted then 1 else k)

/-! ### The write buffer and the cluster cache (R360, R361) -/

/-- Bytes that the buffer holds of an address, the youngest entry first. -/
def Cluster.buffered (x : Cluster) (a : Nat) : Option Byte :=
  x.wb.foldl (fun (r : Option Byte) (e : WbEntry) =>
    if e.line == a / 64 then
      match e.bytes.find? (fun p => p.1 == a % 64) with
      | some p => some p.2
      | none => r
    else r) none

/-- Bytes with what the buffer holds laid over them. -/
def Cluster.overlay (x : Cluster) (a : Nat) (bs : List Byte) : List Byte :=
  bs.zipIdx.map (fun p => (x.buffered (a + p.2)).getD p.1)

def Cluster.cached (x : Cluster) (line minSeq : Nat) : Option CacheLine :=
  x.cache.find? (fun l => l.line == line && decide (max 1 minSeq ≤ l.seq))

/-- A value from the home enters the cache when the read allocates or a copy exists (R361). -/
def Cluster.install (x : Cluster) (line : Nat) (data : List Byte) (poisoned alloc : Bool) (seq : Nat) : Cluster :=
  let has := x.cache.any (fun l => l.line == line)
  if alloc || has then
    let l : CacheLine := { line := line, data := x.overlay (64 * line) data, poisoned := poisoned, seq := seq }
    { x with cache := (l :: x.cache.filter (fun y => y.line != line)).take 1024 }
  else x

/-- Merge bytes of one line into a list of (offset, byte). -/
def mergeBytes (old : List (Nat × Byte)) (off : Nat) (bs : List Byte) : List (Nat × Byte) :=
  bs.zipIdx.foldl (fun (acc : List (Nat × Byte)) p => (off + p.2, p.1) :: acc.filter (fun q => q.1 != off + p.2)) old

/-- A write to one line can enter: it merges with an entry that has not been sent, or an entry is free (R360). -/
def Cluster.canWrite (x : Cluster) (line : Nat) : Bool :=
  x.wb.any (fun e => e.line == line && !e.sent) || decide (x.wb.length < 32)

/-- A write to one line enters the buffer and updates the cached copy (R360, R361). -/
def Cluster.enterWrite (x : Cluster) (owner : Requester) (a : Nat) (bs : List Byte) (poison : Bool) : Cluster :=
  let line := a / 64
  let wb := if x.wb.any (fun e => e.line == line && !e.sent) then
      x.wb.map (fun (e : WbEntry) =>
        if e.line == line && !e.sent then
          { e with bytes := mergeBytes e.bytes (a % 64) bs, poison := e.poison || poison,
                   owners := if e.owners.contains owner then e.owners else e.owners ++ [owner] }
        else e)
    else x.wb ++ [{ line := line, bytes := mergeBytes [] (a % 64) bs, owners := [owner], poison := poison }]
  let upd (l : CacheLine) : CacheLine :=
    if l.line == line then
      { l with data := l.data.zipIdx.map (fun p =>
          if decide (a % 64 ≤ p.2) && decide (p.2 < a % 64 + bs.length) then nth 0 bs (p.2 - a % 64) else p.1) }
    else l
  { x with wb := wb, cache := x.cache.map upd }

/-- A core or stream has writes that are not performed (R363, R366); a core's pending norm updates count (R157). -/
def Cluster.outstanding (x : Cluster) (o : Requester) : Bool := x.wb.any (fun e => e.owners.contains o)
def Chip.coreOutstanding (c : Chip) (id : CoreId) : Bool :=
  (c.cluster (clusterOf id)).outstanding (.core id) || !(c.core id).flushes.isEmpty

/-! ### Progress of a held access -/

/-- A load or atomic ends with a value, a store without one: the core goes on with its next instruction. -/
def Core.finishAccess (k : Core) (a : Access) (val : W32) : Core :=
  let k := match a.kind with
    | .store => k
    | _ => k.setReg a.d val
  { k with hold := .none, pc := k.pc + 1 }

/-- A held access that cannot be served raises the memory fault (R160, R163). -/
def Core.failAccess (k : Core) (a : Access) : Core := ({ k with hold := .none } : Core).raise cMemory 0 a.index

/-- A violation completes an access at once: it reads zero and writes nothing (R355). -/
def Chip.violateAccess (c : Chip) (v : Env) (id : CoreId) (a : Access) (kind : Nat) : Chip :=
  (c.modCore id (fun k => k.finishAccess a 0)).violation v (c.core id).tenant kind (clusterOf id).toNat

/-- `FENCE` completes: later reads treat lines whose fill was requested before as absent (R363). -/
def Chip.completeFence (c : Chip) (id : CoreId) : Chip :=
  let seq := (c.cluster (clusterOf id)).seq
  c.modCore id (fun k => { k with fenceSeq := seq })

/-- A translated access: a store enters the buffer, a load takes forwarded or cached bytes or asks the home, an atomic waits for
the core's earlier writes and is then sent (R360, R361, R371). -/
def Chip.proceed (c : Chip) (id : CoreId) (a : Access) : Chip :=
  let cl := clusterOf id
  let x := c.cluster cl
  let line := a.pa.toNat / 64
  match a.kind with
  | .store =>
    if x.canWrite line then
      (c.setCluster cl (x.enterWrite (.core id) a.pa.toNat (leBytes 4 a.data.toNat) false)).modCore id
        (fun k => k.finishAccess a 0)
    else c.modCore id (fun k => { k with hold := .access { a with stage := .memory } })
  | .load =>
    let offs := (List.range 4).map (fun i => x.buffered (a.pa.toNat + i))
    if offs.all (·.isSome) then
      let val := BitVec.ofNat 32 (ofLe (offs.map (fun o => o.getD 0)))
      c.modCore id (fun k => { k with hold := .access { a with stage := .value val } })
    else match x.cached line (c.core id).fenceSeq with
      | some l =>
        let val := BitVec.ofNat 32 (ofLe (x.overlay a.pa.toNat (slice l.data (a.pa.toNat % 64) 4)))
        c.modCore id (fun k => { k with hold := .access { a with stage := .value val, poisoned := l.poisoned } })
      | none =>
        let r : MemReq := { core := id, line := line, cls := a.cls, since := a.since }
        let m := (c.mem.touch a.pa.toNat 4).modCtl (memUnit a.pa.toNat) (fun (q : MemCtl) => { q with queue := q.queue ++ [r] })
        let c : Chip := { c with mem := m }
        (c.setCluster cl { x with seq := x.seq + 1 }).modCore id
          (fun k => { k with hold := .access { a with stage := .memory, reqSeq := x.seq } })
  | .amo _ =>
    if c.coreOutstanding id then c.modCore id (fun k => { k with hold := .access { a with stage := .memory } })
    else
      ((c.setCluster cl { x with cache := x.cache.filter (fun l => l.line != line) }).completeFence id).modCore id
        (fun k => { k with hold := .access { a with stage := .home } })

/-- The permission that an access needs of its leaf (R341). -/
def TlbEntry.permits (e : TlbEntry) : AccessKind → Bool
  | .load => e.r
  | .store => e.w
  | .amo _ => e.at'

/-- An access with a page's entry: refused without the permission, else translated. -/
def Chip.translated (c : Chip) (v : Env) (id : CoreId) (a : Access) (e : TlbEntry) : Chip :=
  if !e.permits a.kind then c.violateAccess v id a 2
  else c.proceed id { a with pa := BitVec.ofNat 52 (e.phys a.va.toNat), since := v.now }

/-- Look the address up in the cluster TLB (R346); a miss waits for the walker. -/
def Chip.lookup (c : Chip) (v : Env) (id : CoreId) (a : Access) : Chip :=
  let cl := clusterOf id
  match (c.core id).tenant.bind (fun t => (c.cluster cl).tlbFind t a.va.toNat) with
  | some e => (c.modCluster cl (fun x => x.tlbUse e)).translated v id a e
  | none => c.modCore id (fun k => { k with hold := .access { a with stage := .translate } })

/-- Static causes of a global access (R143, R160, R580). -/
def Core.globalCauses (k : Core) (w : Fields) (u : Used) (bad : Bool) (va : Nat) : List Nat :=
  when (w.bad u || bad) cIllegal ++ when (va % 4 != 0) cAlign ++ when (k.pc == 2047) cInstrBounds

/-- Issue of a global access (R160). -/
def Chip.globalIssue (c : Chip) (v : Env) (id : CoreId) (w : Fields) (kind : AccessKind) (u : Used) (bad : Bool) (perm : Nat) :
    Chip :=
  let k := c.core id
  let h := nth 0 k.handles (bits w.imm.toNat 16 4)
  let o := k.regN w.a + bits w.imm.toNat 0 16
  let va := handleBase h + o
  let causes := k.globalCauses w u bad va
  if !(c.coreRuns id && k.canIssue) then c
  else if !causes.isEmpty then c.onCore v id (fun k => k.issueWith causes 0 .done)
  else
    let a : Access := { kind := kind, d := w.d, va := BitVec.ofNat 48 va, data := k.reg w.b, cmp := k.reg w.c,
                        stage := .translate, index := k.pc, noAlloc := handleNoAlloc h, cls := c.reqClass k.tenant h }
    if handleOk h o 4 perm then c.lookup v id a else c.violateAccess v id a 1

def Chip.ldG (c : Chip) (v : Env) (id : CoreId) (w : Fields) : Chip :=
  c.globalIssue v id w .load { d := true, a := true, imm := 0x0FFFFF } false 0
def Chip.stG (c : Chip) (v : Env) (id : CoreId) (w : Fields) : Chip :=
  c.globalIssue v id w .store { a := true, b := true, imm := 0x0FFFFF } false 1

/-- `AMO` (Table 06.11): operations 10 to 15 are reserved, and C belongs to CAS alone (R580). -/
def Chip.amo (c : Chip) (v : Env) (id : CoreId) (w : Fields) : Chip :=
  let op := bits w.imm.toNat 20 4
  c.globalIssue v id w (.amo (BitVec.ofNat 4 op)) { d := true, a := true, b := true, c := op == 9, imm := 0xFFFFFF }
    (decide (9 < op)) 2

/-! ### Home caches -/

/-- Result of an atomic on `old` (Tables 06.11 and 14.3). -/
def amoResult (op : Nat) {n : Nat} (old x cmp : BitVec n) : BitVec n :=
  match op with
  | 0 => x
  | 1 => old + x
  | 2 => old &&& x
  | 3 => old ||| x
  | 4 => old ^^^ x
  | 5 => if old.toInt ≤ x.toInt then old else x
  | 6 => if old.toInt ≤ x.toInt then x else old
  | 7 => if old.toNat ≤ x.toNat then old else x
  | 8 => if old.toNat ≤ x.toNat then x else old
  | _ => if old = cmp then x else old

/-- What may go on once a write of the cluster has been performed: stores that wait for room, atomics and fences that wait for
their core's writes (R360, R363, R371). -/
def Chip.wakeCore (c : Chip) (id : CoreId) : Chip :=
  match (c.core id).hold with
  | .access a =>
    match a.stage, a.kind with
    | .memory, .store => c.proceed id a
    | .memory, .amo _ => c.proceed id a
    | _, _ => c
  | .fence =>
    if c.coreOutstanding id then c
    else (c.completeFence id).modCore id (fun k => { k with hold := .none, pc := k.pc + 1 })
  | _ => c

def Chip.wakeCluster (c : Chip) (cl : ClusterId) : Chip := (coresOf cl).foldl Chip.wakeCore c

/-- HOME_ATOMIC (R370 to R372): the read-modify-write of a sent atomic; a poisoned line is left and faults at the return (R324). -/
def Chip.homeAtomic (c : Chip) (v : Env) (id : CoreId) : Chip :=
  match (c.core id).hold with
  | .access a =>
    match a.stage, a.kind with
    | .home, .amo op =>
      let pa := a.pa.toNat
      let c := { c with mem := c.mem.touch pa 4 }
      if c.mem.poisoned (pa / 64) then
        (c.modCore id (fun k => { k with hold := .access { a with stage := .value 0, poisoned := true } })).poisonRead v pa
          (clusterOf id).toNat
      else
        let old := BitVec.ofNat 32 (c.loadLe pa 4)
        let new := amoResult op.toNat old a.data a.cmp
        let c := if op.toNat == 9 && old != a.cmp then c else c.storeLe pa 4 new.toNat
        c.modCore id (fun k => { k with hold := .access { a with stage := .value old } })
    | _, _ => c
  | _ => c

/-- Fix the value of a core's load from the line as the home holds it; loads of the cluster that wait for the line take it too
(R361). -/
def Chip.fixLoad (c : Chip) (v : Env) (id : CoreId) (a : Access) : Chip :=
  let cl := clusterOf id
  let line := a.pa.toNat / 64
  let data := c.load (64 * line) 64
  let bad := c.mem.poisoned line
  let c := c.modCluster cl (fun x => x.install line data bad (!a.noAlloc) a.reqSeq)
  let x := c.cluster cl
  let give (k : Core) (own : Bool) : Core :=
    match k.hold with
    | .access b =>
      if b.kind == .load && b.stage == .memory && b.pa.toNat / 64 == line && (own || decide (k.fenceSeq ≤ a.reqSeq)) then
        let val := BitVec.ofNat 32 (ofLe (x.overlay b.pa.toNat (slice data (b.pa.toNat % 64) 4)))
        { k with hold := .access { b with stage := .value val, poisoned := bad } }
      else k
    | _ => k
  let c := (coresOf cl).foldl (fun (c : Chip) i => c.setCore i (give (c.core i) (i == id))) c
  let c := { c with mem := c.mem.modCtl (memUnit (64 * line)) (fun (q : MemCtl) =>
    { q with queue := q.queue.filter (fun r => !(r.line == line && clusterOf r.core == cl &&
        (match (c.core r.core).hold with
          | .access b => b.stage != .memory
          | _ => true))) }) }
  if bad then c.poisonRead v (64 * line) cl.toNat else c

/-- LOAD_RETURN (R160): the value reaches the register; a poisoned line raises the memory fault (R324). A load that waits for the
home takes its value there. An atomic acts as a fence after itself (R371). -/
def Chip.loadReturn (c : Chip) (v : Env) (id : CoreId) : Chip :=
  if !c.coreRuns id then c
  else
    let old := c.core id
    match old.hold with
    | .access a0 =>
      let c := match a0.stage, a0.kind with
        | .memory, .load => c.fixLoad v id a0
        | _, _ => c
      (match (c.core id).hold with
        | .access a =>
          (match a.stage with
            | .value val =>
              let c := match a.kind with
                | .amo _ => c.completeFence id
                | _ => c
              (c.modCore id (fun k => if a.poisoned then k.failAccess a else k.finishAccess a val)).stampFaults v id old
            | _ => c)
        | _ => c)
    | _ => c

/-- WRITE_BUFFER_SEND (R360). -/
def Chip.wbSend (c : Chip) (cl : ClusterId) (line : Nat) : Chip :=
  c.modCluster cl (fun x =>
    match x.wb.findIdx? (fun e => e.line == line && !e.sent) with
    | some i => { x with wb := modNth x.wb i (fun (e : WbEntry) => { e with sent := true }) }
    | none => x)

/-- Bytes of an entry in the line: a whole line is one write of 64 bytes (R324). A write where no memory is populated is counted once
(R315). -/
def Chip.performEntry (c : Chip) (e : WbEntry) : Chip :=
  if !c.mem.populated (64 * e.line) then { c with mem := c.mem.touch (64 * e.line) 64 }
  else
    let c := if e.bytes.length == 64 then
        c.store (64 * e.line) ((List.range 64).map (fun i => ((e.bytes.find? (fun p => p.1 == i)).map (·.2)).getD 0))
      else e.bytes.foldl (fun (c : Chip) p => c.store (64 * e.line + p.1) [p.2]) c
    if e.poison then { c with mem := c.mem.poisonLine e.line } else c

/-- HOME_WRITE_PERFORM (R359): the oldest sent entry of the line is performed. -/
def Chip.homeWrite (c : Chip) (cl : ClusterId) (line : Nat) : Chip :=
  let x := c.cluster cl
  match x.wb.find? (fun e => e.line == line && e.sent) with
  | none => c
  | some e =>
    let i := (x.wb.findIdx? (fun e => e.line == line && e.sent)).getD 0
    ((c.setCluster cl { x with wb := x.wb.eraseIdx i }).performEntry e).wakeCluster cl

/-! ### Fences (R363, R364) -/

/-- `FENCE`: completes when every earlier write of the core has been performed. -/
def Chip.fence (c : Chip) (v : Env) (id : CoreId) (w : Fields) : Chip :=
  if !(c.coreRuns id && (c.core id).canIssue) then c
  else
    let causes := when (w.bad {}) cIllegal ++ when ((c.core id).pc == 2047) cInstrBounds
    if !causes.isEmpty then c.onCore v id (fun k => k.issueWith causes 0 .done)
    else (c.modCore id (fun k => { k with hold := .fence })).wakeCore id

/-- Masters that a `FENCE.SC` of a tenant reaches. -/
def Tenant.drainMasters (n : Tenant) : List DrainMaster :=
  (n.quads.flatMap clustersOfQuad).map DrainMaster.cluster ++ n.apps.map DrainMaster.app

def Chip.fenceSc (c : Chip) (v : Env) (id : CoreId) (w : Fields) : Chip :=
  if !(c.coreRuns id && (c.core id).canIssue) then c
  else
    let causes := when (w.bad {}) cIllegal ++ when ((c.core id).pc == 2047) cInstrBounds
    if !causes.isEmpty then c.onCore v id (fun k => k.issueWith causes 0 .done)
    else c.modCore id (fun k => { k with hold := .fenceSc [] [] })

/-- Masters of a core's tenant. -/
def Chip.mastersOf (c : Chip) (id : CoreId) : List DrainMaster :=
  match (c.core id).tenant.bind c.tenant with
  | some n => n.drainMasters
  | none => []

/-- DRAIN_REQUEST_ARRIVAL (R364): after the core's own writes are performed, a request reaches a master of its tenant; a cluster
marks its buffer and makes its cached lines absent. -/
def Chip.drainArrive (c : Chip) (id : CoreId) (m : DrainMaster) : Chip :=
  match (c.core id).hold with
  | .fenceSc arrived acked =>
    if c.coreOutstanding id || arrived.contains m || !(c.mastersOf id).contains m then c
    else
      let c := c.modCore id (fun k => { k with hold := .fenceSc (arrived ++ [m]) acked })
      (match m with
        | .cluster cl => c.modCluster cl (fun x =>
            { x with wb := x.wb.map (fun (e : WbEntry) => { e with marks := id :: e.marks }),
                     cache := x.cache.map (fun (l : CacheLine) => { l with seq := 0 }) })
        | .app _ => c)
  | _ => c

/-- DRAIN_ACKNOWLEDGE (R364): a reached master acknowledges once its marked entries are performed; the last one completes the
fence. -/
def Chip.drainAck (c : Chip) (id : CoreId) (m : DrainMaster) : Chip :=
  match (c.core id).hold with
  | .fenceSc arrived acked =>
    let drained := match m with
      | .cluster cl => !(c.cluster cl).wb.any (fun e => e.marks.contains id)
      | .app _ => true
    if !arrived.contains m || acked.contains m || !drained then c
    else
      let acked := acked ++ [m]
      if (c.mastersOf id).all acked.contains then
        (c.completeFence id).modCore id (fun k => { k with hold := .none, pc := k.pc + 1 })
      else c.modCore id (fun k => { k with hold := .fenceSc arrived acked })
  | _ => c

/-! ### Memory controllers (R322) -/

/-- Class 0 is over its cap: it used more than CAP sixteenths of the last 1,024 data cycles. -/
def MemState.overCap (m : MemState) (q : MemCtl) : Bool := decide (64 * m.qosCap.toNat < q.recent.countP (·))

/-- Weight of a class; 0 acts as 1 (Table 12.6). -/
def MemState.weight (m : MemState) (cls : Nat) : Nat :=
  let w := match cls with
    | 1 => m.qosW1.toNat
    | 2 => m.qosW2.toNat
    | _ => m.qosW3.toNat
  if w == 0 then 1 else w

/-- The oldest waiting request past the starvation guard (R322). -/
def MemState.guarded (m : MemState) (q : MemCtl) (now : Nat) : Option MemReq :=
  q.queue.find? (fun r => r.cls != 0 && decide (r.since + m.qosGuard.toNat * 6400 ≤ now))

/-- A request's class in the round robin: class 0 over its cap takes turns with weight W1. -/
def robinClass (r : MemReq) : Nat := if r.cls = 0 then 1 else r.cls.toNat

/-- The class whose turn it is, with the accesses left of it. -/
def MemState.turnOf (m : MemState) (q : MemCtl) : Nat × Nat :=
  let t := q.turn.toNat
  if q.left != 0 && q.queue.any (fun r => robinClass r == t) then (t, q.left.toNat)
  else
    let order := (List.range 3).map (fun i => (t + i) % 3 + 1)
    match order.find? (fun k => q.queue.any (fun r => robinClass r == k)) with
    | some k => (k, m.weight k)
    | none => (t, 0)

/-- The request served next, and whether it is taken from the round robin. -/
def MemState.nextReq (m : MemState) (q : MemCtl) (now : Nat) : Option (MemReq × Bool) :=
  match m.guarded q now with
  | some r => some (r, false)
  | none =>
    match if m.overCap q then none else q.queue.find? (fun r => r.cls = 0) with
    | some r => some (r, false)
    | none => (q.queue.find? (fun r => robinClass r == (m.turnOf q).1)).map (fun r => (r, true))

/-- Serve a request: the line is read with what its protection finds (R323), and the load's value is fixed. -/
def Chip.serve (c : Chip) (v : Env) (u : Nat) (r : MemReq) (robin : Bool) (ecc : EccResult) : Chip :=
  let q := tblGet {} c.mem.ctls u
  let t := c.mem.turnOf q
  let q := { q with queue := q.queue.erase r, recent := ((r.cls == 0) :: q.recent).take 1024 }
  let q := if robin then { q with turn := BitVec.ofNat 2 t.1, left := BitVec.ofNat 4 (t.2 - 1) } else q
  let m := { c.mem with ctls := tblSet c.mem.ctls u q }
  let m := match ecc with
    | .clean => m
    | .corrected => m.modErr u (fun (e : MemErr) => { e with corrected := satInc e.corrected 1 })
    | .uncorrectable =>
      if m.poisoned r.line then m
      else (m.poisonLine r.line).modErr u (fun (e : MemErr) => { e with uncorrectable := satInc e.uncorrectable 1 })
  let c := { c with mem := m }
  let c := if ecc == .corrected then c.stamp v 41 0 else c
  match (c.core r.core).hold with
  | .access a => if a.stage == .memory && a.kind == .load && a.pa.toNat / 64 == r.line then c.fixLoad v r.core a else c
  | _ => c

/-- MEMORY_REQUEST_SERVICE (R322). -/
def Chip.memService (c : Chip) (v : Env) (u : Nat) (ecc : EccResult) : Chip :=
  match c.mem.nextReq (tblGet {} c.mem.ctls u) v.now with
  | some (r, robin) => c.serve v u r robin ecc
  | none => c

/-- STARVATION_GUARD (R322): the oldest promoted request is served first. -/
def Chip.starvationGuard (c : Chip) (v : Env) (u : Nat) : Chip :=
  match c.mem.guarded (tblGet {} c.mem.ctls u) v.now with
  | some r => c.serve v u r false .clean
  | none => c

/-- PATROL_SCRUB (R325): tier 1 only; what the scrub would write is dropped for a newer write, so the line is not poisoned. -/
def Chip.patrolScrub (c : Chip) (v : Env) (line : Nat) (ecc : EccResult) (newer : Bool) : Chip :=
  if tier1End ≤ 64 * line then c
  else
    let u := memUnit (64 * line)
    match ecc with
    | .clean => c
    | .corrected =>
      ({ c with mem := c.mem.modErr u (fun (e : MemErr) => { e with corrected := satInc e.corrected 1 }) }).stamp v 41 0
    | .uncorrectable =>
      if newer || c.mem.poisoned line then c
      else { c with mem := (c.mem.poisonLine line).modErr u (fun (e : MemErr) =>
          { e with uncorrectable := satInc e.uncorrectable 1 }) }

/-! ### Walks (R339 to R345) -/

/-- What a requester waits for, if it waits for a walk: tenant, address, write, atomic. -/
def Chip.walkNeed (c : Chip) (r : Requester) : Option (TenantId × Nat × Bool × Bool) :=
  match r with
  | .core id =>
    match (c.core id).hold, (c.core id).tenant with
    | .access a, some t =>
      if a.stage == .translate then some (t, a.va.toNat, a.kind == .store, (match a.kind with
        | .amo _ => true
        | _ => false)) else none
    | _, _ => none
  | .stream cl n =>
    match (c.cluster cl).streams.find? (fun s => s.serial == n) with
    | some s => match s.st with
      | .translate va w => some (s.tenant, va.toNat, w, false)
      | _ => none
    | none => none

def requesterDie : Requester → DieId
  | .core id => clusterDie (clusterOf id)
  | .stream cl _ => clusterDie cl

/-- Change a stream of a cluster. -/
def Chip.modStream (c : Chip) (cl : ClusterId) (n : BitVec 16) (f : Stream → Stream) : Chip :=
  c.modCluster cl (fun x => { x with streams := x.streams.map (fun (s : Stream) => if s.serial == n then f s else s) })

def Chip.stream (c : Chip) (cl : ClusterId) (n : BitVec 16) : Option Stream :=
  (c.cluster cl).streams.find? (fun s => s.serial == n)

/-- A requester's walk is under way, or it waits for one again. -/
def Chip.setWalking (c : Chip) (r : Requester) (on : Bool) : Chip :=
  match r with
  | .core id => c.modCore id (fun k => match k.hold with
      | .access a => { k with hold := .access { a with stage := if on then .walking else .translate } }
      | _ => k)
  | .stream cl n => c.modStream cl n (fun (s : Stream) => match s.st with
      | .translate va w => if on then { s with st := .walking va w } else s
      | .walking va w => if on then s else { s with st := .translate va w }
      | _ => s)

def Chip.walker (c : Chip) (d : DieId) : Walker := tblGet {} c.xlt.walkers d.toNat
def Chip.setWalker (c : Chip) (d : DieId) (w : Walker) : Chip :=
  { c with xlt := { c.xlt with walkers := tblSet c.xlt.walkers d.toNat w } }

/-- WALK_START (R339): a request joins the walk of its page, or starts one of the die's 32. -/
def Chip.walkStart (c : Chip) (r : Requester) : Chip :=
  match c.walkNeed r with
  | none => c
  | some (t, va, write, atomic) =>
    let d := requesterDie r
    let w := c.walker d
    let page := BitVec.ofNat 36 (va / 4096)
    match w.walks.findIdx? (fun k => k.tenant == t && k.page == page) with
    | some i =>
      (c.setWalker d { w with walks := modNth w.walks i (fun (k : Walk) => { k with reqs := k.reqs ++ [r] }) }).setWalking r true
    | none =>
      if 32 ≤ w.walks.length then c
      else
        let k : Walk := { tenant := t, page := page, reqs := [r], write := write, atomic := atomic }
        (c.setWalker d { w with walks := w.walks ++ [k] }).setWalking r true

/-- The access or stream of a requester goes on with a page's entry. -/
def Chip.walkOk (c : Chip) (v : Env) (e : TlbEntry) (r : Requester) : Chip :=
  match r with
  | .core id =>
    let c := c.modCluster (clusterOf id) (fun x => x.tlbInstall e)
    (match (c.core id).hold with
      | .access a => if a.stage == .walking && e.maps e.tenant a.va.toNat then c.translated v id a e else c
      | _ => c)
  | .stream cl n =>
    (c.modCluster cl (fun x => x.tlbInstall e)).modStream cl n (fun (s : Stream) => match s.st with
      | .walking _ _ => { s with st := .running }
      | _ => s)

/-- The completion word of a stream (Table 07.5). -/
def completionWord (status state lines : Nat) : List Byte :=
  leBytes 2 status ++ leBytes 1 state ++ leBytes 1 0 ++ leBytes 4 (min lines 0xFFFFFFFF)

def Stream.wordAt (s : Stream) : Nat := fieldLe s.desc 18 2

/-- Write a stream's completion word in its core's transfer phase, or make it due (R185). -/
def Chip.streamWord (c : Chip) (cl : ClusterId) (s : Stream) (status state : Nat) : Chip :=
  let k := c.core s.core
  if s.detached then c
  else if k.inTransfer && k.preempt == .none then
    c.setCore s.core { k with scratch := k.scratch.write s.wordAt (completionWord status state s.lines) }
  else c.modStream cl s.serial (fun (s : Stream) => { s with wordDue := true })

/-- The access or stream of a requester meets a fault of outcome 1 or 2: it is held, or parks (R160, R196). -/
def Chip.walkHeld (c : Chip) (v : Env) (r : Requester) : Chip :=
  match r with
  | .core id => c.modCore id (fun k => match k.hold with
      | .access a => { k with hold := .access { a with stage := .faulted, since := v.ns } }
      | _ => k)
  | .stream cl n =>
    match c.stream cl n with
    | some s =>
      let s := { s with st := .parked, since := v.ns }
      (c.modStream cl n (fun _ => s)).streamWord cl s 0 2
    | none => c

/-- The access or stream of a requester meets a violation (R340, R355). -/
def Chip.walkDenied (c : Chip) (v : Env) (kind : Nat) (page : BitVec 36) (r : Requester) : Chip :=
  match r with
  | .core id => match (c.core id).hold with
    | .access a => c.violateAccess v id a kind
    | _ => c
  | .stream cl n => c.modStream cl n (fun (s : Stream) =>
      match s.st with
      | .translate _ _ => { s with st := .running, badPages := if s.badPages.contains page then s.badPages else page :: s.badPages }
      | _ => s)

/-- Requester and stream fields of a fault record (Table 13.8). -/
def requesterFields : Requester → Nat × Nat
  | .core id => (id.toNat, 0xFFFFFFFF)
  | .stream cl n => (64 * cl.toNat, n.toNat)

/-- Stream tag (R186). -/
def Stream.tag (s : Stream) : Nat := s.serial.toNat + (if s.spilledOpen then 2 ^ 31 else 0)

def Chip.requesterTag (c : Chip) (r : Requester) : Nat :=
  match r with
  | .core _ => 0xFFFFFFFF
  | .stream cl n => ((c.stream cl n).map (·.tag)).getD n.toNat

/-- A walk that failed with outcome 1 or 2 joins the outstanding record of its page and cause, or writes one (R343, R344). -/
def Chip.walkFault (c : Chip) (v : Env) (k : Walk) (cause level ea e : Nat) : Chip :=
  let first := (k.reqs.head?).getD (.core 0)
  let held := k.reqs.foldl (fun (c : Chip) r => c.walkHeld v r) c
  match c.tenant k.tenant with
  | none => held
  | some n =>
    match n.faults.findIdx? (fun f => f.page == k.page && f.cause == BitVec.ofNat 16 cause) with
    | some i =>
      held.modTenant k.tenant (fun (n : Tenant) =>
        { n with faults := modNth n.faults i (fun (f : OpenFault) => { f with reqs := f.reqs ++ k.reqs }) })
    | none =>
      let stream := match first with
        | .core _ => false
        | .stream _ _ => true
      let va := ((c.walkNeed first).map (fun x => x.2.1)).getD (k.page.toNat * 4096)
      let flags := 2 * b2n k.write + 4 * b2n k.atomic + 8 * b2n stream
      let r := held.faultRecord v k.tenant cause level flags va ea e (requesterFields first).1 (c.requesterTag first)
      match r.2 with
      | some serial => r.1.modTenant k.tenant (fun (n : Tenant) =>
          { n with faults := n.faults ++ [{ serial := serial, page := k.page, cause := BitVec.ofNat 16 cause, reqs := k.reqs }] })
      | none => r.1

/-- Status codes (Table 20.8). -/
def stOk : Nat := 0
def stBusy : Nat := 1
def stBadOpcode : Nat := 2
def stBadParam : Nat := 3
def stDenied : Nat := 4
def stCapacity : Nat := 5
def stTenantFull : Nat := 6
def stStreamExhausted : Nat := 7
def stSlotFull : Nat := 8
def stArmFailed : Nat := 9
def stAlreadySent : Nat := 10
def stFault : Nat := 11
def stTimeout : Nat := 12
def stNotFinite : Nat := 13
def stAbsent : Nat := 14
def stDigest : Nat := 15
def stWalkInDevice : Nat := 16
def stCancelled : Nat := 17

/-- The status of an outcome of Table 13.6. -/
def outcomeStatus : Nat → Nat
  | 1 => stFault
  | 2 => stBadParam
  | 3 => stWalkInDevice
  | _ => stDenied

/-- WALK_END (R340): success installs the entry; a fault holds or parks; a violation completes the access and is recorded. A walk
that an invalidation has met installs nothing, and its requests walk again (R347). -/
def Chip.walkEnd (c : Chip) (v : Env) (d : DieId) (t : TenantId) (page : BitVec 36) : Chip :=
  let w := c.walker d
  match w.walks.find? (fun k => k.tenant == t && k.page == page) with
  | none => c
  | some k =>
    let va := page.toNat * 4096
    let done := c.setWalker d { w with walks := w.walks.filter (fun x => !(x.tenant == t && x.page == page)) }
    let again := k.reqs.foldl (fun (c : Chip) r => c.setWalking r false) done
    if k.stale then again
    else match c.walk (c.tableEntry d t) t va with
      | .ok e => k.reqs.foldl (fun (c : Chip) r => c.walkOk v e r) (done.cacheEntries d t va)
      | .fail outcome level ea e =>
        if outcome ≤ 2 then again.walkFault v k (outcomeStatus outcome) level ea e
        else
          let first := (k.reqs.head?).getD (.core 0)
          let stream := match first with
            | .core _ => false
            | .stream _ _ => true
          let va1 := ((again.walkNeed first).map (fun x => x.2.1)).getD va
          let flags := 1 + 2 * b2n k.write + 4 * b2n k.atomic + 8 * b2n stream
          let c := k.reqs.foldl (fun (c : Chip) r => c.walkDenied v outcome page r) again
          (c.faultRecord v t (outcomeStatus outcome) level flags va1 ea e (requesterFields first).1 (again.requesterTag first)).1

/-- A held access of a core ends as under `memory.end` (R344, R345). -/
def Chip.endAccess (c : Chip) (v : Env) (id : CoreId) : Chip :=
  match (c.core id).hold with
  | .access a =>
    if a.stage == .faulted then (c.modCore id (fun k => k.failAccess a)).stampFaults v id (c.core id) else c
  | _ => c

/-- Drop a requester from the outstanding records of its tenant. -/
def Chip.unjoin (c : Chip) (t : TenantId) (r : Requester) : Chip :=
  c.modTenant t (fun (n : Tenant) => { n with faults := (n.faults.map (fun (f : OpenFault) =>
    { f with reqs := f.reqs.filter (fun x => x != r) })).filter (fun f => !f.reqs.isEmpty) })

/-- ACCESS_PARK_LIMIT (R345). -/
def Chip.accessParkLimit (c : Chip) (v : Env) (id : CoreId) : Chip :=
  let k := c.core id
  match k.hold, k.tenant with
  | .access a, some t =>
    match c.tenant t with
    | some n =>
      if a.stage == .faulted && decide (a.since + n.parkLimit ≤ v.ns) then (c.unjoin t (.core id)).endAccess v id else c
    | none => c
  | _, _ => c

/-! ### Norm flushes (R267 to R269) stand in Norm.lean -/

end Sys2Proof
end

