-- ==== Sys2Proof/Machine/Norm.lean ====
section
/-! DEFINITION. Norm records and their flushes (R266 to R269, R271), the update guard (R272 to R274), and exact sum registers
(R82 to R85). -/
namespace Sys2Proof

/-! ### Norm records (Table 10.2) -/

def Chip.normAddr (c : Chip) (tag : Nat) : Nat := c.mem.normBase.toNat * 2 ^ 22 + 64 * tag

/-- A tag lies in a tenant's range (R266). -/
def Tenant.ownsTag (n : Tenant) (tag : Nat) : Bool := n.normFirst.toNat ≤ tag && tag < n.normFirst.toNat + n.normCount.toNat

/-- One indivisible saturating update of a record by a slot's contents (R267). -/
def normUpdate (r : List Byte) (s : NormSlot) : List Byte :=
  let sum := fieldLe r 0 16 + s.sumsq.toNat
  let excess := decide (2 ^ 128 ≤ sum)
  leBytes 16 (min sum (2 ^ 128 - 1)) ++ leBytes 8 (satAdd 64 (fieldLe r 16 8) s.nonfinite.toNat) ++
  leBytes 4 (max (fieldLe r 24 4) s.maxmag.toNat) ++ leBytes 4 (satAdd 32 (fieldLe r 28 4) s.repeats.toNat) ++
  leBytes 4 (satAdd 32 (fieldLe r 32 4) s.fallbacks.toNat) ++ leBytes 4 (satAdd 32 (fieldLe r 36 4) 1) ++
  leBytes 1 (b2n (bitAt (fieldLe r 40 1) 0 || s.sat || excess)) ++ leBytes 23 0

/-- A flush to a tag of a tenant: discarded while ENABLE is 0 (Table 10.1), a violation outside its range (R268). -/
def Chip.normFlush (c : Chip) (v : Env) (t : Option TenantId) (tag : Nat) (s : NormSlot) (unit : Nat) : Chip :=
  let owns := match t.bind c.tenant with
    | some n => n.ownsTag tag
    | none => false
  if !owns then c.violation v t 5 unit
  else if !c.mem.normEnable then c
  else
    let a := c.normAddr tag
    c.store a (normUpdate (c.load a 64) s)

/-- NORM_FLUSH_UPDATE (R267): the oldest flush of a core reaches its home. -/
def Chip.normFlushUpdate (c : Chip) (v : Env) (id : CoreId) : Chip :=
  let k := c.core id
  match k.flushes with
  | [] => c
  | s :: rest =>
    let c := (c.setCore id { k with flushes := rest }).normFlush v k.tenant s.tag.toNat s (clusterOf id).toNat
    c.wakeCore id

/-! ### Exact sum registers (R82 to R85) -/

def ExactRec.zero : ExactRec := { x := 0, nan := false, pos := false, neg := false, count := 0 }

/-- An FP32 contribution enters a register of sum exponent `s` (R83). -/
def ExactRec.enter (r : ExactRec) (s : Int) (v : FVal) : ExactRec :=
  let r := { r with count := r.count + 1 }
  match v with
  | .nan _ _ => { r with nan := true }
  | .inf n => if n then { r with neg := true } else { r with pos := true }
  | .fin n m e =>
    if m == 0 then r
    else if s + 23 ≤ ilog2 m e then (if n then { r with neg := true } else { r with pos := true })
    else
      let q := (roundGrid m e (s - 88) .rn).1
      { r with x := r.x + BitVec.ofInt 128 (if n then -(q : Int) else q) }

/-- Field by field addition of a record (R84). -/
def ExactRec.add (a b : ExactRec) : ExactRec :=
  { x := a.x + b.x, nan := a.nan || b.nan, pos := a.pos || b.pos, neg := a.neg || b.neg, count := a.count + b.count }

/-- The bytes of a record (Table 03.10). -/
def ExactRec.bytes (r : ExactRec) : List Byte :=
  leBytes 16 r.x.toNat ++ leBytes 4 (b2n r.nan + 2 * b2n r.pos + 4 * b2n r.neg) ++ leBytes 4 r.count.toNat

def ExactRec.ofBytes (bs : List Byte) : ExactRec :=
  let f := fieldLe bs 16 4
  { x := BitVec.ofNat 128 (fieldLe bs 0 16), nan := bitAt f 0, pos := bitAt f 1, neg := bitAt f 2,
    count := BitVec.ofNat 32 (fieldLe bs 20 4) }

/-- The value that a register is read out to, before its one rounding (R85); `count` divides a mean. -/
def ExactRec.value (r : ExactRec) (s : Int) (mean : Bool) (count : Nat) : FVal :=
  if mean && count == 0 then .nan false false
  else if r.nan || (r.pos && r.neg) then .nan false false
  else if r.pos then .inf false
  else if r.neg then .inf true
  else
    let i := r.x.toInt
    if i == 0 then .zero
    else if mean then divFin (decide (i < 0)) i.natAbs count (s - 88)
    else .fin (decide (i < 0)) i.natAbs (s - 88)

/-! ### The update guard (R272 to R274) -/

/-- What the result tags sum to (R273): Q, saturating, the non-finite count and the saturation bits. -/
structure GuardSums where
  q : Nat
  nonfinite : Nat
  sat : Bool
  deriving DecidableEq, Repr

def Chip.guardSums (c : Chip) (tags : List Nat) : GuardSums :=
  tags.foldl (fun (g : GuardSums) t =>
    let r := c.load (c.normAddr t) 64
    { q := satAdd 128 g.q (fieldLe r 0 16), nonfinite := g.nonfinite + fieldLe r 16 8, sat := g.sat || bitAt (fieldLe r 40 1) 0 })
    { q := 0, nonfinite := 0, sat := false }

/-- N = sqrt(rn32(Q · 2^-64)) (R273). -/
def guardNorm (q : Nat) : Nat :=
  match f32 (toF32 (.fin false q (-64))) with
  | .fin _ m e => toF32 (sqrtFin m e)
  | w => toF32 w

/-- The decision and its factor, first matching row (Table 10.4). -/
def guardDecision (count : Nat) (g : GuardSums) (clip : Bool) (limit : Nat) : Nat × Nat :=
  let n := guardNorm g.q
  if count == 0 then (5, 0)
  else if g.nonfinite != 0 || g.sat then (3, 0)
  else if (f32 limit).lt (f32 n) then
    if clip then (2, match f32 limit, f32 n with
      | .fin _ a e, .fin _ b f => toF32 (divFin false a b (e - f))
      | w, _ => toF32 w)
    else (4, 0)
  else (1, 0x3F800000)

/-- The guard record of a step (Table 10.5, R274); `skipped` is the count before it. -/
def guardRecord (step count : Nat) (g : GuardSums) (clip : Bool) (limit skipped : Nat) : List Byte :=
  let d := guardDecision count g clip limit
  leBytes 8 step ++ leBytes 1 d.1 ++ leBytes 1 (b2n clip) ++ leBytes 2 0 ++ leBytes 4 count ++ leBytes 4 (guardNorm g.q) ++
  leBytes 4 d.2 ++ leBytes 4 (min g.nonfinite 0xFFFFFFFF) ++ leBytes 4 (satAdd 32 skipped (b2n (decide (3 ≤ d.1))))

/-- The engines write a group's guard record (R273); a naming that waits takes effect first, and a new address starts again from
zero (R272). -/
def Chip.writeGuard (c : Chip) (gid : GroupId) (step count : Nat) (g : GuardSums) : Chip :=
  match c.group gid with
  | none => c
  | some grp =>
    match grp.guard with
    | none => c
    | some u =>
      let n := u.next.getD (u.addr, u.clip, u.limit)
      let old := if n.1 == u.addr then c.vreadLe grp.tenant (u.addr + 28) 4 else 0
      (c.modGroup gid (fun (x : Group) => { x with guard := some { addr := n.1, clip := n.2.1, limit := n.2.2 } })).vwrite
        grp.tenant n.1 (guardRecord step count g n.2.1 n.2.2.toNat old)

end Sys2Proof
end

