-- ==== Sys2Proof/Machine/Fabric.lean ====
section
/-! DEFINITION. Slots and frames (R377, R403), flits (R401, R402), schedule tables and banks (R405 to R409, R413), the repair path (R416,
R417), lanes (R399) and open slots (R420 to R422) of the Myeth ports. -/
namespace Sys2Proof

/-! ### Slots and frames (R377), in 1/64 ns -/

/-- Slot k of the hall begins k · 64/25 ns after the epoch, at the nearest step, ties to the later. -/
def slotInstant (k : Nat) : Nat := (2 * k * 4096 + 25) / 50
def frameStart (f : Nat) : Nat := slotInstant (4096 * f)
def slotStart (f k : Nat) : Nat := slotInstant (4096 * f + k)
/-- The frame that holds an instant. -/
def frameOf (ht : Nat) : Nat :=
  let f := ht * 25 / 16777216
  if frameStart (f + 1) ≤ ht then f + 1 else f
def Env.frame (v : Env) : Nat := frameOf v.ht

/-! ### Flits -/

def Flit.head (f : Flit) : List Byte :=
  leBytes 1 (f.kind.toNat + 16 * f.flags.toNat) ++ leBytes 1 (f.flit.toNat + 16 * f.count.toNat) ++
  leBytes 2 (f.group.toNat + 4096 * f.op.toNat) ++ leBytes 4 f.chunk.toNat ++ leBytes 4 f.tag.toNat

/-- LCRC over bytes 0 to 11 and 16 to 255 (Table 16.2). -/
def Flit.crc (f : Flit) : W32 := crc32 (f.head ++ slice f.payload 0 240)
def Flit.stamp (f : Flit) : Flit := { f with lcrc := f.crc }

/-- An empty flit (R401). -/
def Flit.empty : Flit :=
  Flit.stamp { kind := 0, flags := 0, flit := 0, count := 0, group := 0, op := 0, chunk := 0, tag := 0, lcrc := 0,
               payload := List.replicate 240 0 }
/-- A flit of kind 2 (R414). -/
def Flit.damaged : Flit := Flit.stamp { Flit.empty with kind := 2 }

def Flit.sealedFlag (f : Flit) : Bool := f.flags.getLsbD 0
def Flit.last (f : Flit) : Bool := f.flags.getLsbD 1

/-- How a receiver finds an arrival (R402): whole, nothing or empty, or damaged with its counter. -/
inductive Received where
  | empty
  | whole (f : Flit)
  | damagedFec
  | damagedLcrc
  deriving DecidableEq, Repr

def receive : Arrival → Received
  | .nothing => .empty
  | .badFec => .damagedFec
  | .flit f =>
    if f.lcrc != f.crc || decide (7 ≤ f.kind.toNat) || ((f.kind == 1 || f.kind == 6) && decide (8 ≤ f.op.toNat)) then .damagedLcrc
    else if f.kind == 0 then .empty
    else .whole f

/-- A damaged flit is counted (R402, Table 16.7). -/
def Port.countDamage (p : Port) : Received → Port
  | .damagedFec => { p with fec := satInc p.fec 1 }
  | .damagedLcrc => { p with lcrc := satInc p.lcrc 1 }
  | _ => p

/-- Data of a port's stamps (Table 19.2). -/
def portData (p : PortId) (frame slot : Nat) : Nat := p.toNat + 64 * (slot % 4096) + 262144 * (frame % 16384)
def portStateData (p : PortId) (x : Nat) : Nat := p.toNat + 64 * (x % 16)
/-- A slot event is stamped with the start of its slot (R473). -/
def Chip.stampSlot (c : Chip) (v : Env) (source : Nat) (p : PortId) (frame slot : Nat) : Chip :=
  c.stampAt v (slotStart frame slot) source (portData p frame slot)

/-! ### Schedule tables (Table 16.4, R405 to R407, R413) -/

def SchedEntry.ofBytes (bs : List Byte) : SchedEntry :=
  let so := fieldLe bs 0 2
  { slot := BitVec.ofNat 12 so, op := BitVec.ofNat 4 (so / 4096), group := BitVec.ofNat 12 (fieldLe bs 2 2),
    context := BitVec.ofNat 32 (fieldLe bs 4 4), outSlot := BitVec.ofNat 12 (fieldLe bs 8 2),
    outPort := BitVec.ofNat 6 (fieldLe bs 10 1), plog := BitVec.ofNat 3 (fieldLe bs 11 1), sealed := bitAt (fieldLe bs 11 1) 3,
    phase := BitVec.ofNat 7 (fieldLe bs 12 2) }

/-- A scheduled slot (Table 16.3). -/
def scheduled (k : Nat) : Bool := 16 ≤ k && k < 3968

/-- Reserved bits and fields of an entry's bytes that break Table 16.4. -/
def entryBad (tx : Bool) (bs : List Byte) : Bool :=
  let e := SchedEntry.ofBytes bs
  let op := e.op.toNat
  if op == 0 then !(slice bs 0 16).all (· == 0)
  else
    !scheduled e.slot.toNat || fieldLe bs 2 2 / 4096 != 0 || fieldLe bs 8 2 / 4096 != 0 || fieldLe bs 10 1 / 64 != 0 ||
    bits (fieldLe bs 11 1) 4 4 != 0 || fieldLe bs 12 2 / 128 != 0 || fieldLe bs 14 2 != 0 ||
    decide (2 ^ e.plog.toNat ≤ e.phase.toNat) || (if tx then !(op == 1 || op == 2) else !(op == 3 || op == 4 || op == 5)) ||
    (if op == 5 then e.context != 0 || !scheduled e.outSlot.toNat
     else e.outSlot != 0 || e.outPort != 0) ||
    (if op == 1 || op == 3 then e.context.toNat / 2 ^ 18 != 0
     else if op == 5 then false else e.context.toNat / 2 ^ 14 != 0)

/-- An entry applies in a frame (R406). -/
def SchedEntry.applies (e : SchedEntry) (frame : Nat) : Bool := e.op != 0 && frame % 2 ^ e.plog.toNat == e.phase.toNat

/-- Two period and phase pairs meet in some frame. -/
def meet (pl1 ph1 pl2 ph2 : Nat) : Bool := let m := 2 ^ min pl1 pl2; ph1 % m == ph2 % m

/-- Two entries of one table apply in one slot of one frame (R406). -/
def SchedEntry.clash (a b : SchedEntry) : Bool :=
  a.op != 0 && b.op != 0 && a.slot == b.slot && meet a.plog.toNat a.phase.toNat b.plog.toNat b.phase.toNat

def pairwiseNone (r : SchedEntry → SchedEntry → Bool) : List SchedEntry → Bool
  | [] => true
  | x :: xs => xs.all (fun y => !r x y) && pairwiseNone r xs

def ioDie (p : Nat) : Nat := p / 16
/-- Minimum forwarding delay in slots (Table 16.5). -/
def forwardMin (a b : Nat) : Nat :=
  if a == b then 25
  else if a / 2 == b / 2 then 37
  else if a % 2 == b % 2 then 45
  else 49

/-- Delay of a forward in slots (R412). -/
def SchedEntry.delay (e : SchedEntry) : Nat := (e.outSlot.toNat + 4096 - e.slot.toNat) % 4096
/-- A forward leaves in the frame of its arrival, or in the next (R412). -/
def SchedEntry.carry (e : SchedEntry) : Nat := if e.slot.toNat < e.outSlot.toNat then 0 else 1

/-- Phase of a forward on its output: it applies there in frames of its own period, later by its carry. -/
def SchedEntry.outPhase (e : SchedEntry) : Nat := (e.phase.toNat + e.carry) % 2 ^ e.plog.toNat

/-- A forward of port `p` meets another transmission of its output slot (R413): a transmit entry of the output port's bank. -/
def SchedEntry.forwardMeets (e : SchedEntry) (tx : List SchedEntry) : Bool :=
  tx.any (fun t => t.op != 0 && t.slot == e.outSlot && meet t.plog.toNat t.phase.toNat e.plog.toNat e.outPhase)

/-- Two forwards into one output slot of one frame. -/
def forwardsMeet (a b : SchedEntry) : Bool :=
  a.op == 5 && b.op == 5 && a.outPort == b.outPort && a.outSlot == b.outSlot &&
  meet a.plog.toNat a.outPhase b.plog.toNat b.outPhase

/-- A forward of port `p` breaks the delay of R413. -/
def SchedEntry.delayBad (p : Nat) (e : SchedEntry) : Bool :=
  let m := forwardMin (ioDie p) (ioDie e.outPort.toNat)
  e.op == 5 && !(m ≤ e.delay && e.delay ≤ m + 255)

def Port.idle (p : Port) : Bank := if p.bank then p.bank0 else p.bank1
def Port.active (p : Port) : Bank := if p.bank then p.bank1 else p.bank0
def Port.setBank (p : Port) (b : Bool) (x : Bank) : Port := if b then { p with bank1 := x } else { p with bank0 := x }
def Port.getBank (p : Port) (b : Bool) : Bank := if b then p.bank1 else p.bank0

/-- The bank that serves a frame; before the last swap it is the other one (R409, R415). -/
def Port.bankAt (p : Port) (frame : Nat) : Bank :=
  if frame < p.swapFrame then (if p.wasEmpty then {} else p.idle) else if p.empty then {} else p.active

def Port.txEntry (p : Port) (frame slot : Nat) : Option SchedEntry :=
  (p.bankAt frame).tx.find? (fun e => e.slot.toNat == slot && e.applies frame)
def Port.rxEntry (p : Port) (frame slot : Nat) : Option SchedEntry :=
  (p.bankAt frame).rx.find? (fun e => e.slot.toNat == slot && e.applies frame)

/-- SCHEDULE_LOAD_DONE (R408): both tables are written and the bank is READY. -/
def Chip.scheduleLoadDone (c : Chip) (p : PortId) : Chip :=
  let x := c.port p
  match x.loads with
  | [] => c
  | l :: rest => c.setPort p (({ x with loads := rest } : Port).setBank l.bank { tx := l.tx, rx := l.rx, ready := true })

/-- The armed swap of a port falls in a frame that has begun (R409). -/
def Port.swapDue (p : Port) (v : Env) : Bool :=
  match p.armed with
  | some t => decide (64 * t.toNat ≤ frameStart v.frame)
  | none => false

/-- BANK_SWAP (R409). -/
def Chip.bankSwap (c : Chip) (v : Env) (p : PortId) : Chip :=
  let x := c.port p
  if !x.swapDue v then c
  else
    let target := !x.bank
    let ready := (x.getBank target).ready
    let c := c.setPort p { x with bank := target, wasEmpty := x.empty, empty := !ready, swapEmpty := x.swapEmpty || !ready,
                                  swapFrame := v.frame, armed := none }
    let c := c.stampAt v (frameStart v.frame) 8 (portStateData p (b2n target))
    if ready then c else c.stampAt v (frameStart v.frame) 9 (portStateData p (b2n target))

/-! ### Driving a port -/

/-- Drive a flit in a slot. -/
def Chip.drive (c : Chip) (p : PortId) (frame slot : Nat) (f : Flit) : Chip :=
  c.modPort p (fun (x : Port) => { x with wire := some (frame, slot, f.stamp) })

/-- Keep a flit sent in a scheduled slot for the last 8 frames (R417). -/
def Port.keep (p : Port) (frame slot : Nat) (f : Flit) : Port :=
  { p with replay := (p.replay.filter (fun s => decide (frame < s.frame + 8))) ++ [{ frame := frame, slot := slot, flit := f }] }

/-! ### Damage and repair (R416, R417) -/

/-- A missing flit waits to be requested (R416). -/
def Port.addDamage (p : Port) (frame slot : Nat) : Port :=
  if p.damaged.any (fun d => d.frame == frame && d.slot == slot) then p
  else { p with damaged := p.damaged ++ [{ frame := frame, slot := slot }] }

/-- Entries of a repair request (R416). -/
def requestBytes (frame slot : Nat) : List Byte := leBytes 8 (frame % 2 ^ 20 + 2 ^ 20 * slot)
def swapBytes (lane : BitVec 2) : List Byte := leBytes 8 (0xFFFFFFFF + 2 ^ 32 * lane.toNat)

/-- REPAIR_REQUEST_SEND (R416): the lane swap first, then up to 30 entries in all, in the order of damage. -/
def Chip.repairRequestSend (c : Chip) (v : Env) (p : PortId) : Chip :=
  let x := c.port p
  if x.link != 2 then c
  else
    let swap := match x.rxSwap with
      | some l => if l.sent then [] else [swapBytes l.lane]
      | none => []
    let room := 30 - swap.length
    let named := (x.damaged.filter (fun d => !d.requested)).take room
    let body := (swap ++ named.map (fun d => requestBytes d.frame d.slot)).flatMap id
    let x := { x with
      damaged := x.damaged.map (fun (d : Damage) => if named.contains d then { d with requested := true } else d)
      rxSwap := x.rxSwap.map (fun (l : LaneSwap) => if l.sent then l else { l with sent := true, frame := v.frame }) }
    (c.setPort p x).drive p v.frame 1 { Flit.empty with kind := 4, payload := slice body 0 240 }

/-- The chunk of a flit in the replay buffer, as kind 6 flits in the order in which they were sent (R417). -/
def Port.chunkOf (p : Port) (s : SentFlit) : List Flit :=
  (p.replay.filter (fun y => y.flit.kind == 1 && y.flit.group == s.flit.group && y.flit.op == s.flit.op &&
    y.flit.chunk == s.flit.chunk)).map (fun (y : SentFlit) =>
      { y.flit with kind := 6, tag := BitVec.ofNat 32 (y.frame % 2 ^ 20 + 2 ^ 20 * y.slot) })

/-- Queue the chunks that a request names; a repair flit that already waits is not queued again. -/
def Port.queueRepairs (p : Port) (frame slot : Nat) : Port :=
  match p.replay.find? (fun s => s.frame % 2 ^ 20 == frame && s.slot == slot && s.flit.kind == 1) with
  | none => p
  | some s => { p with repairs := p.repairs ++ (p.chunkOf s).filter (fun f => !p.repairs.contains f) }

/-- REPAIR_REQUEST_RECEIVE (R416, R417). -/
def Chip.repairRequestReceive (c : Chip) (v : Env) (p : PortId) (a : Arrival) : Chip :=
  match receive a with
  | .whole f =>
    if f.kind != 4 then c
    else
      let entries := (List.range 30).map (fun i => fieldLe f.payload (8 * i) 8)
      c.modPort p (fun (x : Port) => entries.foldl (fun (x : Port) e =>
        if bits e 0 32 == 0xFFFFFFFF then { x with txSwap := some { lane := BitVec.ofNat 2 (bits e 32 2), frame := v.frame } }
        else if scheduled (bits e 20 12) then x.queueRepairs (bits e 0 20) (bits e 20 12)
        else x) x)
  | .empty => c
  | r => c.modPort p (fun x => x.countDamage r)

/-- REPAIR_FLIT_SEND (R417): the oldest queued repair flit, or an empty flit. -/
def Chip.repairFlitSend (c : Chip) (v : Env) (p : PortId) (frame slot : Nat) : Chip :=
  let x := c.port p
  if x.link != 2 || slot < 3968 then c
  else match x.repairs with
    | [] => c.drive p frame slot Flit.empty
    | f :: rest => ((c.setPort p { x with repairs := rest }).drive p frame slot f).stampSlot v 4 p frame slot

/-! ### Lanes (R399) -/

/-- LANE_LOCK_LOSS (R399): the swap is requested; a second failure of the direction takes the link down. -/
def Chip.laneLockLoss (c : Chip) (v : Env) (p : PortId) (lane : BitVec 2) : Chip :=
  let x := c.port p
  if x.link != 2 then c
  else if x.retired == 7 && x.rxSwap.isNone then c.setPort p { x with rxSwap := some { lane := lane, frame := v.frame } }
  else c.setPort p { x with link := 0 }

/-- LANE_SWAP (R399): at a frame boundary at least 2 frames after the request was sent. -/
def Chip.laneSwap (c : Chip) (v : Env) (p : PortId) (transmit : Bool) : Chip :=
  let x := c.port p
  if transmit then
    match x.txSwap with
    | some l => if l.frame + 2 ≤ v.frame then c.setPort p { x with txRetired := l.lane.setWidth 3, txSwap := none } else c
    | none => c
  else match x.rxSwap with
    | some l =>
      if l.sent && decide (l.frame + 2 ≤ v.frame) then c.setPort p { x with retired := l.lane.setWidth 3, rxSwap := none } else c
    | none => c

/-! ### Open messages (R420 to R422, R503) -/

def Flit.dest (f : Flit) : Nat := bits f.tag.toNat 0 20
def Flit.hops (f : Flit) : Nat := bits f.tag.toNat 20 8
def Flit.flood (f : Flit) : Bool := bitAt f.tag.toNat 28
def openTag (dest hops : Nat) (flood : Bool) : W32 := BitVec.ofNat 32 (dest % 2 ^ 20 + 2 ^ 20 * (hops % 256) + 2 ^ 28 * b2n flood)

/-- The prefix of an open message (Table 20.15). -/
def openPrefix (source type trigger group argument : Nat) : List Byte :=
  leBytes 4 source ++ leBytes 1 type ++ leBytes 1 trigger ++ leBytes 2 group ++ leBytes 8 argument

/-- An open message that this chip sends, with the next CHUNK. -/
def Chip.openFlit (c : Chip) (dest hops : Nat) (flood : Bool) (payload : List Byte) : Flit :=
  { Flit.empty with kind := 5, chunk := c.fab.chunk, tag := openTag dest hops flood, payload := slice payload 0 240 }

def OpenClass.rank : OpenClass → Nat
  | .transit => 0
  | .trigger => 1
  | .sealed => 2
  | .manager => 3
  | .cocoon => 4

/-- A message waits at a port; at an absent port it is discarded and counted (R419). -/
def Chip.openWait (c : Chip) (p : PortId) (m : OpenMsg) : Chip :=
  c.modPort p (fun (x : Port) => if x.absent then { x with openDrop := satInc x.openDrop 1 } else { x with waiting := x.waiting ++ [m] })

/-- The output port that the open route table gives (R420). -/
def Chip.route (c : Chip) (dest : Nat) : Option PortId :=
  let b := c.loadLe (c.fab.routes + dest) 1
  if bitAt b 7 then some (BitVec.ofNat 6 b) else none

/-- The message goes to every port but the one it came from. -/
def Chip.floodOut (c : Chip) (from' : Option PortId) (m : OpenMsg) : Chip :=
  (List.range 64).foldl (fun (c : Chip) i =>
    let p := BitVec.ofNat 6 i
    if from' == some p || (c.port p).link != 2 then c else c.openWait p m) c

/-- A message of this chip goes to its ports; a destination without a route is dropped and counted at port 0 (log 23). -/
def Chip.openSend (c : Chip) (v : Env) (cls : OpenClass) (dest hops : Nat) (flood : Bool) (payload : List Byte)
    (sender : Option (RingId × W32)) : Chip :=
  let f := c.openFlit dest hops flood payload
  let m : OpenMsg := { cls := cls, flit := f, since := v.now, sender := sender }
  let src : W32 := c.cmd.chip.setWidth 32
  let c := { c with fab := { c.fab with chunk := c.fab.chunk + 1, seen := (src, f.chunk, v.frame) :: c.fab.seen } }
  if flood then c.floodOut none m
  else match c.route dest with
    | some p => c.openWait p m
    | none => c.modPort 0 (fun (x : Port) => { x with openDrop := satInc x.openDrop 1 })

/-- The message granted next: the lowest class, the oldest in it (R421). -/
def Port.nextOpen (p : Port) : Option OpenMsg :=
  p.waiting.foldl (fun (b : Option OpenMsg) m => match b with
    | none => some m
    | some y => if m.cls.rank < y.cls.rank then some m else some y) none

/-- OPEN_SLOT_GRANT (R421): an open slot sends one waiting message, or an empty flit; the answer names the `hall.send` that it
completes. -/
def Chip.openSlotGrant (c : Chip) (p : PortId) (frame slot : Nat) : Chip × Option (RingId × W32) :=
  let x := c.port p
  if x.link != 2 || slot < 2 || 15 < slot then (c, none)
  else match x.nextOpen with
    | none => (c.drive p frame slot Flit.empty, none)
    | some m => ((c.setPort p { x with waiting := x.waiting.erase m }).drive p frame slot m.flit, m.sender)

end Sys2Proof
end

