-- ==== Sys2Proof/Machine/Coll.lean ====
section
/-! DEFINITION. Collective engines (chapter 17): geometry and wire forms (R433), contributions and control blocks (R432, R277), running
sums, read-out and results (R430, R434 to R436), stragglers (R438 to R443), the ledger (R444, R445) and step boundaries (R446). -/
namespace Sys2Proof

def Group.n (g : Group) : Nat := g.members.length
def Group.s (g : Group) : Int := g.sumExp.toInt

/-- An operation with its group and open step. -/
structure StepCtx where
  grp : Group
  op : CollOp
  run : OpenStep

def Chip.ctx (c : Chip) (g : GroupId) : Option StepCtx :=
  match c.group g with
  | none => none
  | some grp => match grp.op with
    | none => none
    | some op => op.cur.map (fun run => { grp := grp, op := op, run := run })

def Chip.modOp (c : Chip) (g : GroupId) (f : CollOp → CollOp) : Chip :=
  c.modGroup g (fun (x : Group) => { x with op := x.op.map f })
def Chip.modRun (c : Chip) (g : GroupId) (f : OpenStep → OpenStep) : Chip :=
  c.modOp g (fun (x : CollOp) => { x with cur := x.cur.map f })
def Chip.modSeg (c : Chip) (g : GroupId) (i : Nat) (f : SegRun → SegRun) : Chip :=
  c.modRun g (fun (r : OpenStep) => { r with segs := modNth r.segs i f })

def CollOp.reducing (op : CollOp) : Bool := op.kind ≤ 2
def CollOp.seg (op : CollOp) (i : Nat) : Segment := nth ⟨0, 0, 0, 0, 0, 0, false, 0⟩ op.segs i
def OpenStep.seg (r : OpenStep) (i : Nat) : SegRun := nth {} r.segs i

/-- FP32 sums are formed in exact sum registers (R430, R442). -/
def wideSum (g : Group) (op : CollOp) : Bool := op.reducing && (op.operator == 1 || (op.operator == 0 && (!g.arrival || g.exact)))

/-- The group is a sealed channel (R423). -/
def Chip.sealedGroup (c : Chip) (g : GroupId) : Bool := (tblFind c.coll.channels g.toNat).isSome

/-! ### Geometry (R433, R435, R436, Table 17.7) -/

/-- Bytes of an element on the wire. -/
def wireBytes (g : Group) (op : CollOp) (res : Bool) : Nat :=
  if !op.reducing then 1
  else match op.operator with
    | 2 => 8
    | 3 => 8
    | 4 => 16
    | _ => if !res && wideSum g op && !op.direct then 24 else 4

/-- Elements of a chunk. -/
def perChunk (g : Group) (op : CollOp) (res isSealed : Bool) : Nat := (3808 - (if isSealed then 4 else 0)) / wireBytes g op res

/-- Shard `j` of `e` elements among `n` members: first and end. -/
def shardRange (n e j : Nat) : Nat × Nat := let q := ceilDiv e n; (min (j * q) e, min ((j + 1) * q) e)

/-- Chunks of a run of elements. -/
def chunksOf (res : Bool) (seg shard first len per : Nat) : List ChunkUnit :=
  (List.range (ceilDiv len per)).map (fun i =>
    { res := res, seg := seg, shard := shard, first := first + i * per, elems := min per (len - i * per), index := i })

/-- Chunks of a shard of a segment; broadcast and relays send the whole segment as one shard. -/
def shardUnits (g : Group) (op : CollOp) (isSealed res : Bool) (si j : Nat) : List ChunkUnit :=
  let e := (op.seg si).elems
  let r := if op.kind == 4 || op.kind == 7 then (0, e) else shardRange g.n e j
  chunksOf res si j r.1 (r.2 - r.1) (perChunk g op res isSealed)

/-- Blocks of an exchange that member `i` sends to member `j`: placed as block `i` of the result (kind 5). -/
def blockUnits (g : Group) (op : CollOp) (isSealed : Bool) (si i j : Nat) : List ChunkUnit :=
  let e := (op.seg si).elems
  let r := shardRange g.n e j
  chunksOf true si j (i * ceilDiv e g.n) (r.2 - r.1) (perChunk g op true isSealed)

/-- Chunks of entry `k` of a permutation (kind 6). -/
def permUnits (g : Group) (op : CollOp) (isSealed : Bool) (si k : Nat) : List ChunkUnit :=
  let p := nth (0, 0, 0, 0) op.perm k
  chunksOf true si k p.2.2.1 p.2.2.2 (perChunk g op true isSealed)

def othersOf (g : Group) : List Nat := (List.range (g.n - 1)).map (fun i => (g.rank + 1 + i) % g.n)

/-- Units that this member receives in a segment (R435, R436). -/
def recvUnits (g : Group) (op : CollOp) (isSealed : Bool) (si : Nat) : List ChunkUnit :=
  let n := g.n
  let r := g.rank
  let rs := if !op.reducing then []
    else if op.direct then shardUnits g op isSealed false si r
    else (List.range (n - 1)).flatMap (fun h => shardUnits g op isSealed false si ((r + 2 * n - 2 - h) % n))
  let others := (List.range (n - 1)).map (fun k => (r + n - 1 - k) % n)
  let res := match op.kind with
    | 1 => others.flatMap (shardUnits g op isSealed true si)
    | 3 => others.flatMap (shardUnits g op isSealed true si)
    | 4 => if r == op.root then [] else shardUnits g op isSealed true si op.root
    | 5 => others.flatMap (fun i => blockUnits g op isSealed si i r)
    | 6 => ((List.range op.perm.length).filter (fun k =>
        let p := nth (0, 0, 0, 0) op.perm k; p.2.1 == r && p.1 != r)).flatMap (permUnits g op isSealed si)
    | 7 => shardUnits g op isSealed true si 0
    | _ => []
  rs ++ res

/-- Elements of the result that a segment writes on this chip. -/
def needed (g : Group) (op : CollOp) (si : Nat) : Nat :=
  let e := (op.seg si).elems
  match op.kind with
  | 2 => let r := shardRange g.n e g.rank; r.2 - r.1
  | 4 => if g.rank == op.root then 0 else e
  | 5 => let r := shardRange g.n e g.rank; g.n * (r.2 - r.1)
  | 6 => (op.perm.filter (fun p => p.2.1 == g.rank)).foldl (fun a p => a + p.2.2.2) 0
  | _ => e

/-! ### Lanes (R430, R83 to R85) -/

def srcFmtOf (op : CollOp) : Fmt := (Fmt.ofCode op.srcFmt.toNat).getD .fp32
def resFmtOf (op : CollOp) : Fmt := (Fmt.ofCode op.resFmt.toNat).getD .fp32

/-- Bytes of an element in memory. -/
def memBytes (op : CollOp) (res : Bool) : Nat :=
  if !op.reducing then 1
  else match op.operator with
    | 2 => 8
    | 3 => 8
    | 4 => 16
    | _ => (if res then resFmtOf op else srcFmtOf op).width / 8

/-- A contribution's lane: FP32 sources are widened exactly. -/
def contribution (op : CollOp) (code : Nat) : Lane :=
  if op.reducing && op.operator ≤ 1 then .f32 (BitVec.ofNat 32 (toF32 (decode (srcFmtOf op) code))) else .int code

/-- Add to a lane; `none` is a lane to which nothing has been added. -/
def laneAdd (wide : Bool) (s : Int) (op : Nat) : Option Lane → Lane → Lane
  | none, .f32 x => if wide then .sum (ExactRec.zero.enter s (f32 x.toNat)) else .f32 x
  | none, l => l
  | some (.sum r), .f32 x => .sum (r.enter s (f32 x.toNat))
  | some (.sum a), .sum b => .sum (a.add b)
  | some (.f32 a), .f32 x => .f32 (BitVec.ofNat 32 (f32add a.toNat x.toNat))
  | some (.int a), .int b => match op with
    | 2 => .int (max a b)
    | 3 => .int (min a b)
    | _ => .int (satAdd 128 a b)
  | some a, _ => a

/-- A running sum of nothing. -/
def emptySum (wide : Bool) (op : CollOp) (u : ChunkUnit) (restarted : Bool) : RunSum :=
  { u := u, count := 0, deferred := 0, restarted := restarted,
    lanes := List.replicate u.elems (if wide then .sum ExactRec.zero else if op.operator ≤ 1 then .f32 0 else .int 0) }

/-- Add contributions to a running sum: `k` of them, `d` of which deferred. -/
def RunSum.addLanes (r : RunSum) (wide : Bool) (s : Int) (op k d : Nat) (xs : List Lane) : RunSum :=
  if k == 0 then r
  else
    { r with count := r.count + k, deferred := r.deferred + d,
             lanes := (r.lanes.zip xs).map (fun p => laneAdd wide s op (if r.count == 0 then none else some p.1) p.2) }

/-- Elements of a unit in a contribution's values. -/
def unitVals (op : CollOp) (g : Group) (u : ChunkUnit) (vals : List Nat) : List Nat :=
  let first := if op.kind == 5 then u.shard * ceilDiv (op.seg u.seg).elems g.n + (u.first - g.rank * ceilDiv (op.seg u.seg).elems g.n)
    else u.first
  (List.range u.elems).map (fun i => nth 0 vals (first + i))

/-- Read-out of a lane into the result format (R85, R430). -/
def readout (g : Group) (op : CollOp) (count : Nat) (l : Lane) : Nat :=
  match l with
  | .sum r => (encode (resFmtOf op) (r.value g.s op.mean count) .rn op.sat).1
  | .f32 x =>
    let v := if op.mean then (if count == 0 then .nan false false else match f32 x.toNat with
        | .fin n m e => divFin n m count e
        | w => w)
      else f32 x.toNat
    (encode (resFmtOf op) v .rn op.sat).1
  | .int n => if count == 0 && op.operator == 3 then Config.emptyMin.toNat else n

/-- The lane of a result leg (R434). -/
def resultLane (op : CollOp) (code : Nat) : Lane :=
  if op.reducing && op.operator ≤ 1 then .f32 (BitVec.ofNat 32 (toF32 (decode (resFmtOf op) code))) else .int code

/-- The result element that a received result lane holds. -/
def resultCode (op : CollOp) : Lane → Nat
  | .f32 x => (encode (resFmtOf op) (f32 x.toNat) .rn false).1
  | .int n => n
  | .sum r => r.x.toNat

/-! ### Chunks on the wire (Tables 17.7 and 17.8) -/

def laneBytes (w : Nat) : Lane → List Byte
  | .f32 x => leBytes 4 x.toNat
  | .sum r => r.bytes
  | .int n => leBytes w n

def laneOf (w : Nat) (isFloat : Bool) (bs : List Byte) : Lane :=
  if w == 24 then .sum (ExactRec.ofBytes bs)
  else if isFloat then .f32 (BitVec.ofNat 32 (fieldLe bs 0 4))
  else .int (fieldLe bs 0 w)

/-- The chunk of a running sum or result. -/
def chunkBytes (g : Group) (op : CollOp) (step : BitVec 48) (r : RunSum) : List Byte :=
  let w := wireBytes g op r.u.res
  leBytes 6 step.toNat ++ leBytes 2 r.u.seg ++ leBytes 4 r.u.first ++ leBytes 2 r.u.elems ++
  leBytes 1 (if op.reducing then op.operator else 0) ++
  leBytes 1 (b2n r.u.res + 2 * b2n r.restarted + 4 * b2n g.exact) ++ leBytes 4 r.count ++ leBytes 4 r.deferred ++
  leBytes 4 g.n ++ leBytes 4 0 ++ r.lanes.flatMap (laneBytes w)

/-- A chunk cut into flits; a sealed one ends with its CRC-32C (R424). -/
def chunkFlits (gid : GroupId) (kind : Nat) (number : W32) (step : BitVec 48) (isSealed : Bool) (bs : List Byte) : List Flit :=
  let total := bs.length + (if isSealed then 4 else 0)
  let n := max 1 (ceilDiv total 240)
  let body := if isSealed then slice bs 0 (n * 240 - 4) else bs
  let all := if isSealed then body ++ leBytes 4 (crc32c body).toNat else body
  (List.range n).map (fun i => Flit.stamp
    { kind := 1, flags := BitVec.ofNat 4 (b2n isSealed + 2 * b2n (i + 1 == n)), flit := BitVec.ofNat 4 i,
      count := BitVec.ofNat 4 (n - 1), group := gid, op := BitVec.ofNat 4 kind, chunk := number, tag := step.setWidth 32,
      lcrc := 0, payload := slice all (240 * i) 240 })

/-- A formed chunk joins the queue of its context (R437). -/
def Chip.emit (c : Chip) (gid : GroupId) (step : BitVec 48) (r : RunSum) : Chip :=
  match c.group gid with
  | none => c
  | some g => match g.op with
    | none => c
    | some op =>
      let o : OutChunk := { number := op.next, engine := r.u.index % max 1 op.contexts.length,
                            flits := chunkFlits gid op.kind op.next step (c.sealedGroup gid) (chunkBytes g op step r) }
      c.modOp gid (fun (x : CollOp) => { x with queue := x.queue ++ [o], next := x.next + 1 })

/-! ### The ledger (R444, Table 17.9) -/

/-- Write a record to a ring of a tenant's memory with the header of Table 13.7, HEAD last. -/
def Chip.vringPut (c : Chip) (t : TenantId) (base size : Nat) (record : List Byte) : Chip :=
  let head := c.vreadLe t base 4
  let tail := c.vreadLe t (base + 4) 4
  if (head + 2 ^ 32 - tail) % 2 ^ 32 < size then
    (c.vwrite t (base + 64 + record.length * (head % size)) record).vwrite t base (leBytes 4 (head + 1))
  else c.vwrite t (base + 8) (leBytes 4 (satAdd 32 (c.vreadLe t (base + 8) 4) 1))

def Chip.ledgerOf (c : Chip) (v : Env) (gid : GroupId) (chip : BitVec 20) (rank step kind aux value : Nat) : Chip :=
  match c.group gid with
  | none => c
  | some g =>
    c.vringPut g.tenant g.ledger g.ledgerSize
      (leBytes 6 step ++ leBytes 1 kind ++ leBytes 1 (b2n g.exact) ++ leBytes 4 chip.toNat ++ leBytes 4 rank ++ leBytes 8 v.ns ++
       leBytes 2 gid.toNat ++ leBytes 2 aux ++ leBytes 4 value)

/-- A record of this chip's own. -/
def Chip.ledger (c : Chip) (v : Env) (gid : GroupId) (step kind aux value : Nat) : Chip :=
  c.ledgerOf v gid c.cmd.chip (match c.group gid with
    | some g => g.rank
    | none => 0) step kind aux value

/-- Data of a group's stamps (Table 19.2). -/
def groupData (g : GroupId) (step : BitVec 48) : Nat := g.toNat + 4096 * (step.toNat % 2 ^ 20)

/-! ### Control blocks (Table 17.6) -/

def Chip.ctlWrite (c : Chip) (t : TenantId) (s : Segment) (off n v : Nat) : Chip := c.vwrite t (s.control + off) (leBytes n v)
def Chip.readyWord (c : Chip) (t : TenantId) (s : Segment) : Nat := c.vreadLe t s.control 4

/-- Status before done (R432). -/
def Chip.segDone (c : Chip) (gid : GroupId) (x : StepCtx) (si status : Nat) : Chip :=
  let s := x.op.seg si
  ((c.ctlWrite x.grp.tenant s 12 2 status).ctlWrite x.grp.tenant s 8 4 x.run.step.toNat).modSeg gid si
    (fun (r : SegRun) => { r with done := true, status := BitVec.ofNat 16 status })

/-- A result chunk with this status is worse than what the segment has. -/
def Chip.segStatus (c : Chip) (gid : GroupId) (si status : Nat) : Chip :=
  c.modSeg gid si (fun (r : SegRun) => { r with status := if r.status.toNat < status then BitVec.ofNat 16 status else r.status })

/-- Every segment shows done, so the engines write the guard record (R273). -/
def Chip.guardIfDone (c : Chip) (v : Env) (gid : GroupId) : Chip :=
  match c.ctx gid with
  | none => c
  | some x =>
    if !x.op.guarded || x.run.guarded || !x.run.segs.all (·.done) then c
    else
      let own := c.guardSums ((x.op.segs.filter (·.norm)).map (fun s => s.tag.toNat)).eraseDups
      let g := if x.op.kind == 2 then
          let p := Config.peerSums gid x.run.step
          { q := satAdd 128 own.q p.1.toNat, nonfinite := own.nonfinite + p.2.1.toNat, sat := own.sat || p.2.2 }
        else own
      ((c.writeGuard gid x.run.step.toNat (x.run.minCount.getD 0) g).modRun gid
        (fun (r : OpenStep) => { r with guarded := true })).stamp v 21 (groupData gid x.run.step)

/-- `k` more elements of a segment's result are written; the segment is done when all are. -/
def Chip.segProgress (c : Chip) (v : Env) (gid : GroupId) (si k : Nat) : Chip :=
  let c := c.modSeg gid si (fun (r : SegRun) => { r with written := r.written + k })
  match c.ctx gid with
  | none => c
  | some x =>
    let r := x.run.seg si
    if r.done || decide (r.written < needed x.grp x.op si) then c
    else (c.segDone gid x si r.status.toNat).guardIfDone v gid

/-- Write a chunk's result elements (R434, R271). -/
def Chip.writeResult (c : Chip) (v : Env) (gid : GroupId) (x : StepCtx) (u : ChunkUnit) (codes : List Nat) : Chip :=
  let s := x.op.seg u.seg
  let w := memBytes x.op true
  let c := c.vwrite x.grp.tenant (s.result + w * u.first) (codes.flatMap (leBytes w))
  let c := if s.norm && x.op.reducing && x.op.operator ≤ 1 then
      let slot := codes.foldl (fun (n : NormSlot) code => n.add (decode (resFmtOf x.op) code)) {}
      c.normFlush v (some x.grp.tenant) s.tag.toNat slot 0
    else c
  c.segProgress v gid u.seg u.elems

/-- Counts of a result chunk (R434, Table 17.10). -/
def Chip.noteCounts (c : Chip) (gid : GroupId) (count deferred : Nat) : Chip :=
  c.modRun gid (fun (r : OpenStep) => { r with
    minCount := some (match r.minCount with
      | some m => min m count
      | none => count)
    maxDeferred := max r.maxDeferred deferred })

/-! ### Sums (R435, R436) -/

/-- A finished sum is read out, written, and sent on in an all-reduce. -/
def Chip.finishSum (c : Chip) (v : Env) (gid : GroupId) (x : StepCtx) (r : RunSum) : Chip :=
  let codes := r.lanes.map (readout x.grp x.op r.count)
  let c := (c.noteCounts gid r.count r.deferred).writeResult v gid x { r.u with res := true } codes
  if x.op.kind != 1 then c
  else
    let out := (chunksOf true r.u.seg r.u.shard r.u.first r.u.elems (perChunk x.grp x.op true (c.sealedGroup gid))).map
      (fun (u : ChunkUnit) =>
        let lo := u.first - r.u.first
        ({ r with u := { u with index := r.u.index + u.index }, lanes := ((codes.drop lo).take u.elems).map (resultLane x.op) } : RunSum))
    let copies := if x.op.direct then x.grp.n - 1 else 1
    (List.range copies).foldl (fun (c : Chip) _ => out.foldl (fun (c : Chip) o => c.emit gid x.run.step o) c) c

/-- The chip's own contribution, and its deferred one, enter a running sum; the flag says that nothing is added (R277, R438). -/
def RunSum.addOwn (r : RunSum) (x : StepCtx) : RunSum :=
  let s := x.run.seg r.u.seg
  let wide := wideSum x.grp x.op
  let lanes (vals : List Nat) := (unitVals x.op x.grp r.u vals).map (contribution x.op)
  let r := match s.vals with
    | some vals => r.addLanes wide x.grp.s x.op.operator 1 0 (lanes vals)
    | none => r
  match s.extra with
  | some vals => r.addLanes wide x.grp.s x.op.operator 1 1 (lanes vals)
  | none => r

/-- A running sum of the ring form meets the chip's settled contribution: read out by its owner, else sent on. -/
def Chip.passSum (c : Chip) (v : Env) (gid : GroupId) (r : RunSum) : Chip :=
  match c.ctx gid with
  | none => c
  | some x =>
    if !(x.run.seg r.u.seg).settled then c.modRun gid (fun (o : OpenStep) => { o with held := o.held ++ [r] })
    else
      let r := r.addOwn x
      if r.u.shard == x.grp.rank then c.finishSum v gid x r else c.emit gid x.run.step r

/-- The owner's sums of the direct form: add to the unit's staging, and read out with the contributions of all members (R436). -/
def Chip.ownerAdd (c : Chip) (v : Env) (gid : GroupId) (r : RunSum) (arrivals : Nat) : Chip :=
  match c.ctx gid with
  | none => c
  | some x =>
    let wide := wideSum x.grp x.op
    let old := (x.run.sums.find? (fun p => p.1.u == r.u)).getD (emptySum wide x.op r.u false, 0)
    let merged := { old.1.addLanes wide x.grp.s x.op.operator r.count r.deferred r.lanes with restarted := false }
    let n := old.2 + arrivals
    let rest := x.run.sums.filter (fun p => p.1.u != r.u)
    if x.grp.n ≤ n && !x.run.got.contains r.u then
      (c.modRun gid (fun (o : OpenStep) => { o with sums := rest, got := r.u :: o.got })).finishSum v gid x merged
    else c.modRun gid (fun (o : OpenStep) => { o with sums := rest ++ [(merged, n)] })

/-- Copy bytes of a kind 3, 5 or 6 that stay on this chip. -/
def Chip.placeOwn (c : Chip) (v : Env) (gid : GroupId) (x : StepCtx) (si : Nat) (vals : List Nat) : Chip :=
  let us := match x.op.kind with
    | 3 => shardUnits x.grp x.op false true si x.grp.rank
    | 5 => blockUnits x.grp x.op false si x.grp.rank x.grp.rank
    | 6 => ((List.range x.op.perm.length).filter (fun k =>
        let p := nth (0, 0, 0, 0) x.op.perm k; p.1 == x.grp.rank && p.2.1 == x.grp.rank)).flatMap (permUnits x.grp x.op false si)
    | _ => []
  us.foldl (fun (c : Chip) u => c.writeResult v gid x u (unitVals x.op x.grp u vals)) c

/-- Units that this member sends of its own accord in a segment, one for each receiver in the direct form. -/
def ownUnits (g : Group) (op : CollOp) (isSealed : Bool) (si : Nat) : List ChunkUnit :=
  let copies (us : List ChunkUnit) := if op.direct then (List.range (g.n - 1)).flatMap (fun _ => us) else us
  match op.kind with
  | 3 => copies (shardUnits g op isSealed true si g.rank)
  | 4 => if g.rank == op.root then copies (shardUnits g op isSealed true si op.root) else []
  | 5 => (othersOf g).flatMap (fun j => blockUnits g op isSealed si g.rank j)
  | 6 => ((List.range op.perm.length).filter (fun k =>
      let p := nth (0, 0, 0, 0) op.perm k; p.1 == g.rank && p.2.1 != g.rank)).flatMap (permUnits g op isSealed si)
  | 7 => shardUnits g op isSealed true si 0
  | _ =>
    if op.direct then (othersOf g).flatMap (fun j => shardUnits g op isSealed false si j)
    else shardUnits g op isSealed false si ((g.rank + g.n - 1) % g.n)

/-- A segment's contribution is settled: the chunks that it begins are formed, and the held sums go on. -/
def Chip.settle (c : Chip) (v : Env) (gid : GroupId) (si : Nat) : Chip :=
  let c := c.modSeg gid si (fun (s : SegRun) => { s with settled := true })
  match c.ctx gid with
  | none => c
  | some x =>
    let isSealed := c.sealedGroup gid
    let s := x.run.seg si
    let units := ownUnits x.grp x.op isSealed si
    if x.op.reducing then
      let wide := wideSum x.grp x.op && !x.op.direct
      let fresh (u : ChunkUnit) : RunSum :=
        if x.op.direct then
          (match s.vals with
            | some vals => { u := u, count := 1, deferred := 0, restarted := false,
                             lanes := (unitVals x.op x.grp u vals).map (contribution x.op) }
            | none => emptySum false x.op u false)
        else (emptySum wide x.op u false).addOwn x
      let c := units.foldl (fun (c : Chip) u => c.emit gid x.run.step (fresh u)) c
      if x.op.direct then
        (shardUnits x.grp x.op isSealed false si x.grp.rank).foldl (fun (c : Chip) u =>
          c.ownerAdd v gid (match s.vals with
            | some vals => { u := u, count := 1, deferred := 0, restarted := false,
                             lanes := (unitVals x.op x.grp u vals).map (contribution x.op) }
            | none => emptySum false x.op u false) 1) c
      else
        let mine := x.run.held.filter (fun r => r.u.seg == si)
        let c := c.modRun gid (fun (o : OpenStep) => { o with held := o.held.filter (fun r => r.u.seg != si) })
        mine.foldl (fun (c : Chip) r => c.passSum v gid r) c
    else match s.vals with
      | none => c
      | some vals =>
        let c := units.foldl (fun (c : Chip) u => c.emit gid x.run.step
          { u := u, count := 1, deferred := 0, restarted := false, lanes := (unitVals x.op x.grp u vals).map Lane.int }) c
        let c := c.placeOwn v gid x si vals
        if needed x.grp x.op si == 0 then c.segProgress v gid si 0 else c

/-! ### Opening a step, and contributions (R432, R438, R277) -/

/-- Elements of a segment's source. -/
def Chip.readSource (c : Chip) (g : Group) (op : CollOp) (si : Nat) : List Nat :=
  let s := op.seg si
  let w := memBytes op false
  let raw := c.vread g.tenant s.source (w * s.elems)
  (List.range s.elems).map (fun i => fieldLe raw (w * i) w)

/-- A local-gradient tag of the group shows a non-finite value; the count is saturating (R277). -/
def Chip.localNonFinite (c : Chip) (gid : GroupId) (g : Group) : Bool × Nat :=
  match c.tenant g.tenant with
  | none => (false, 0)
  | some t =>
    let tags := ((List.range t.normCount.toNat).map (fun i => t.normFirst.toNat + i)).filter (Config.localGradTag gid)
    let s := c.guardSums tags
    (s.nonfinite != 0 || s.sat, min s.nonfinite 0xFFFFFFFF)

/-- A step opens: D is read from the deadline table (R438). -/
def Chip.openStep (c : Chip) (v : Env) (gid : GroupId) : Chip :=
  match c.group gid with
  | none => c
  | some g => match g.op with
    | none => c
    | some op =>
      if op.cur.isSome then c
      else
        let d := if op.kind == 7 then 0 else c.vreadLe g.tenant (op.deadlines + 8 * (op.step.toNat % 256)) 8
        let r : OpenStep := { step := op.step, deadline := d, segs := op.segs.map (fun _ => {}) }
        let c := c.modGroup gid (fun (g : Group) => { g with exact := g.staged.getD g.exact, staged := none })
        let c := (c.modOp gid (fun (x : CollOp) => { x with cur := some r, carried := [] })).stamp v 16 (groupData gid op.step)
        op.carried.foldl (fun (c : Chip) r => (c.ledger v gid (op.step.toNat - 1) 4 r.u.seg op.step.toNat).ownerAdd v gid
          { r with deferred := r.count } 0) c

/-- Withholding is decided when the engine first finds a segment ready in a step (R277, R432). -/
def Chip.decideWithhold (c : Chip) (v : Env) (gid : GroupId) : Chip :=
  match c.ctx gid with
  | none => c
  | some x =>
    if x.run.withheld.isSome || !x.op.reducing then c
    else
      let nf := c.localNonFinite gid x.grp
      let w := nf.1 || x.grp.desync
      let c := (c.modRun gid (fun (r : OpenStep) => { r with withheld := some w })).modGroup gid
        (fun (g : Group) => { g with lastWithheld := w })
      if w then
        (c.modGroup gid (fun (g : Group) => { g with withheld := true })).ledger v gid x.run.step.toNat 1 0 nf.2
      else c

/-- What a withholding chip contributes (Table 17.3): nothing to sums, zero to `MAXU64`, its values otherwise. -/
def withheldVals (op : CollOp) (withheld : Bool) (vals : List Nat) : Option (List Nat) :=
  if !withheld then some vals
  else match op.operator with
    | 2 => some (vals.map (fun _ => 0))
    | 3 => some vals
    | 4 => some vals
    | _ => none

/-- The deferred contribution of a segment that is added in this step, or expires with it (R439). -/
def Chip.takeDeferred (c : Chip) (v : Env) (gid : GroupId) (si : Nat) : Chip :=
  match c.ctx gid with
  | none => c
  | some x =>
    match tblFind x.op.deferred si with
    | none => c
    | some d =>
      match d.vals with
      | none => c
      | some vals =>
        if d.step == x.run.step || x.op.direct then c
        else
          let c := c.modOp gid (fun (o : CollOp) => { o with deferred := tblErase o.deferred si })
          if x.run.withheld == some true then c.ledger v gid d.step.toNat 5 si 0
          else
            ((c.modSeg gid si (fun (s : SegRun) => { s with extra := some vals })).ledger v gid d.step.toNat 4 si x.run.step.toNat).stamp
              v 19 (groupData gid x.run.step)

/-- A segment's ready word is found at the step (R432): the source is read, `taken` is written, and the segment is settled. -/
def Chip.takeSeg (c : Chip) (v : Env) (gid : GroupId) (si : Nat) : Chip :=
  match c.ctx gid with
  | none => c
  | some x =>
    let s := x.run.seg si
    if s.taken || s.late || c.readyWord x.grp.tenant (x.op.seg si) != x.run.step.toNat % 2 ^ 32 then c
    else
      let c := c.decideWithhold v gid
      let w := match c.ctx gid with
        | some y => y.run.withheld == some true
        | none => false
      let vals := withheldVals x.op w (c.readSource x.grp x.op si)
      let c := (c.ctlWrite x.grp.tenant (x.op.seg si) 4 4 x.run.step.toNat).modSeg gid si
        (fun (s : SegRun) => { s with taken := true, vals := if s.settled then s.vals else vals })
      let c := if s.settled then c else (c.takeDeferred v gid si).settle v gid si
      if w && x.op.operator ≤ 1 then
        (List.range x.op.segs.length).foldl (fun (c : Chip) k => match c.ctx gid with
          | some y => if (y.run.seg k).settled then c else (c.takeDeferred v gid k).settle v gid k
          | none => c) c
      else c

/-- The engine reads the ready words of its operation (R432); the first one ready opens the step (R438). -/
def Chip.pollReady (c : Chip) (v : Env) (gid : GroupId) : Chip :=
  match c.group gid with
  | none => c
  | some g => match g.op with
    | none => c
    | some op =>
      let ready := op.segs.any (fun s => c.readyWord g.tenant s == op.step.toNat % 2 ^ 32)
      let c := if op.cur.isNone && ready then c.openStep v gid else c
      (List.range op.segs.length).foldl (fun (c : Chip) si => c.takeSeg v gid si) c

/-! ### Received chunks -/

/-- The unit of a received chunk, if this member expects one there. -/
def matchUnit (x : StepCtx) (isSealed : Bool) (bs : List Byte) : Option ChunkUnit :=
  let si := fieldLe bs 6 2
  let res := bitAt (fieldLe bs 15 1) 0
  if x.op.segs.length ≤ si || fieldLe bs 14 1 != (if x.op.reducing then x.op.operator else 0) then none
  else (recvUnits x.grp x.op isSealed si).find? (fun u =>
    u.res == res && u.first == fieldLe bs 8 4 && u.elems == fieldLe bs 12 2)

/-- The running sum or result that a chunk carries. -/
def parseChunk (x : StepCtx) (u : ChunkUnit) (bs : List Byte) : RunSum :=
  let w := wireBytes x.grp x.op u.res
  let isFloat := x.op.reducing && decide (x.op.operator ≤ 1)
  { u := u, count := fieldLe bs 16 4, deferred := fieldLe bs 20 4, restarted := bitAt (fieldLe bs 15 1) 1,
    lanes := (List.range u.elems).map (fun i => laneOf w isFloat (slice bs (32 + w * i) w)) }

/-- The owner of a result unit, which does not take it from its predecessor (R435). -/
def resultOwner (op : CollOp) (u : ChunkUnit) : Nat := if op.kind == 4 then op.root else u.shard

/-- A relayed block carries another step in its own header (R303, R305). -/
def relayMismatch (x : StepCtx) (u : ChunkUnit) (r : RunSum) : Bool :=
  x.op.kind == 7 && u.first == 0 && ofLe ((r.lanes.take 6).map (fun l => BitVec.ofNat 8 (resultCode x.op l))) != x.run.step.toNat

/-- A contribution of the direct form that comes after read-out or after D (R438, R439): held for the next step, or dropped. -/
def Chip.lateArrival (c : Chip) (v : Env) (gid : GroupId) (x : StepCtx) (step : Nat) (r : RunSum) : Chip :=
  if r.count == 0 then c
  else
    let who := Config.lateContributor gid (BitVec.ofNat 48 step) r.u.first
    let c := c.ledgerOf v gid who.1 who.2.toNat step (if x.grp.drop then 3 else 2) r.u.seg 0
    if x.grp.drop then c
    else if step == x.run.step.toNat then c.modOp gid (fun (o : CollOp) => { o with carried := o.carried ++ [r] })
    else if x.run.got.contains r.u then c.ledgerOf v gid who.1 who.2.toNat step 5 r.u.seg 0
    else (c.ledgerOf v gid who.1 who.2.toNat step 4 r.u.seg x.run.step.toNat).ownerAdd v gid { r with deferred := r.count } 0

/-- A whole chunk of the open step. -/
def Chip.takeChunk (c : Chip) (v : Env) (gid : GroupId) (x : StepCtx) (u : ChunkUnit) (bs : List Byte) : Chip :=
  let r := parseChunk x u bs
  if !u.res then
    if x.op.direct then
      if x.run.got.contains u || x.run.passedD then c.lateArrival v gid x x.run.step.toNat r else c.ownerAdd v gid r 1
    else if x.run.got.contains u then c
    else (c.modRun gid (fun (o : OpenStep) => { o with got := u :: o.got })).passSum v gid r
  else if x.run.got.contains u || x.run.passedX then c
  else if relayMismatch x u r then (c.segStatus gid u.seg stFault).modRun gid (fun (o : OpenStep) => { o with got := u :: o.got })
  else
    let c := (c.modRun gid (fun (o : OpenStep) => { o with got := u :: o.got })).noteCounts gid r.count r.deferred
    let c := c.writeResult v gid x u (r.lanes.map (resultCode x.op))
    if !x.op.direct && x.op.kind != 7 && (x.grp.rank + 1) % x.grp.n != resultOwner x.op u then c.emit gid x.run.step r else c

/-- A chunk of the operation's open step, of an earlier one, or of a later one, which waits for it. -/
def Chip.acceptChunk (c : Chip) (v : Env) (gid : GroupId) (p : PortId) (bs : List Byte) : Chip :=
  match c.ctx gid with
  | none => c
  | some x =>
    let step := fieldLe bs 0 6
    if x.run.step.toNat < step then c.modOp gid (fun (o : CollOp) => { o with early := o.early ++ [(p, bs)] })
    else match matchUnit x (c.sealedGroup gid) bs with
      | none => c
      | some u =>
        if step == x.run.step.toNat then c.takeChunk v gid x u bs
        else if x.op.direct && !u.res && step + 1 == x.run.step.toNat then c.lateArrival v gid x step (parseChunk x u bs)
        else c

/-- Deliver a whole chunk to its group: it opens the step when none is open (R438). -/
def Chip.deliverChunk (c : Chip) (v : Env) (gid : GroupId) (p : PortId) (bs : List Byte) : Chip :=
  match (c.group gid).bind (fun g => g.op) with
  | none => c
  | some op =>
    let c := if op.cur.isNone && fieldLe bs 0 6 == op.step.toNat then c.openStep v gid else c
    let early := op.early.filter (fun e => fieldLe e.2 0 6 == op.step.toNat)
    let c := if op.cur.isNone && !early.isEmpty && fieldLe bs 0 6 == op.step.toNat then
        early.foldl (fun (c : Chip) e => c.acceptChunk v gid e.1 e.2)
          (c.modOp gid (fun (o : CollOp) => { o with early := o.early.filter (fun e => fieldLe e.2 0 6 != op.step.toNat) }))
      else c
    c.acceptChunk v gid p bs

/-- Chunks that came early, once the step has opened by its ready words. -/
def Chip.drainEarly (c : Chip) (v : Env) (gid : GroupId) : Chip :=
  match c.ctx gid with
  | none => c
  | some x =>
    let now := x.op.early.filter (fun e => fieldLe e.2 0 6 == x.run.step.toNat)
    now.foldl (fun (c : Chip) e => c.acceptChunk v gid e.1 e.2)
      (c.modOp gid (fun (o : CollOp) => { o with early := o.early.filter (fun e => fieldLe e.2 0 6 != x.run.step.toNat) }))

/-- The engine's reading before a transmit entry (R432). -/
def Chip.poll (c : Chip) (v : Env) (gid : GroupId) : Chip := (c.pollReady v gid).drainEarly v gid

/-! ### Losses (R441) -/

/-- Ranks lost with a running sum (R445). -/
def ranksLost (g : Group) (u : ChunkUnit) : Nat := (g.rank + 2 * g.n - u.shard - 1) % g.n - 1

/-- A running sum is lost: a fresh one starts with the chip's own contribution, or, in the direct form, the contribution is late. -/
def Chip.restart (c : Chip) (v : Env) (gid : GroupId) (x : StepCtx) (u : ChunkUnit) : Chip :=
  let c := c.modGroup gid (fun (g : Group) => { g with lost := true })
  let c := (c.ledger v gid x.run.step.toNat 6 u.seg (ranksLost x.grp u)).stamp v 20 (groupData gid x.run.step)
  (c.modRun gid (fun (o : OpenStep) => { o with got := u :: o.got })).passSum v gid
    (emptySum (wideSum x.grp x.op && !x.op.direct) x.op u true)

/-- A result chunk that has not arrived by X: canonical quiet NaN in every FP32 element, with `FAULT` (R441). -/
def Chip.loseResult (c : Chip) (v : Env) (gid : GroupId) (x : StepCtx) (u : ChunkUnit) : Chip :=
  let c := (c.modGroup gid (fun (g : Group) => { g with lost := true })).stamp v 23 (groupData gid x.run.step)
  let c := (c.modRun gid (fun (o : OpenStep) => { o with got := u :: o.got })).segStatus gid u.seg stFault
  if x.op.reducing && x.op.operator ≤ 1 then
    c.writeResult v gid x u (List.replicate u.elems (resFmtOf x.op).nanCode)
  else c.segProgress v gid u.seg u.elems

/-- Units of an operation's segments that have not been received. -/
def missingUnits (x : StepCtx) (isSealed : Bool) : List ChunkUnit :=
  ((List.range x.op.segs.length).flatMap (recvUnits x.grp x.op isSealed)).filter (fun u => !x.run.got.contains u)

/-- Do something for each missing unit that a test selects, reading the step afresh each time. -/
def Chip.forMissing (c : Chip) (gid : GroupId) (sel : ChunkUnit → Bool) (f : Chip → StepCtx → ChunkUnit → Chip) : Chip :=
  match c.ctx gid with
  | none => c
  | some x => ((missingUnits x (c.sealedGroup gid)).filter sel).foldl (fun (c : Chip) u => match c.ctx gid with
      | some y => if y.run.got.contains u then c else f c y u
      | none => c) c

/-- Exact mode: a loss ends the step with `FAULT`, and its results are written as NaN (R442). -/
def Chip.exactLoss (c : Chip) (v : Env) (gid : GroupId) : Chip :=
  match c.ctx gid with
  | none => c
  | some x =>
    let c := c.ledger v gid x.run.step.toNat 9 0 stFault
    let c := c.forMissing gid (·.res) (fun c y u => c.loseResult v gid y u)
    let c := (List.range x.op.segs.length).foldl (fun (c : Chip) si => match c.ctx gid with
      | some y => if (y.run.seg si).done then c else c.segDone gid y si stFault
      | none => c) c
    c.modRun gid (fun (o : OpenStep) => { o with ended := true })

/-- A flit of a group's receive entry is lost (R418, R441): the first expected chunk that has not been received. -/
def Chip.collLoss (c : Chip) (v : Env) (gid : GroupId) (engine : Nat) : Chip :=
  match c.ctx gid with
  | none => c
  | some x =>
    if x.grp.exact then c.exactLoss v gid
    else
      let k := max 1 x.op.contexts.length
      match (missingUnits x (c.sealedGroup gid)).find? (fun u => u.index % k == engine) with
      | none => c
      | some u =>
        if x.op.kind == 7 then
          ((c.modRun gid (fun (o : OpenStep) => { o with got := u :: o.got })).segStatus gid u.seg stFault).segProgress v gid u.seg u.elems
        else if !u.res && !x.op.direct then c.restart v gid x u
        else if !u.res then c
        else (c.modGroup gid (fun (g : Group) => { g with lost := true })).stamp v 23 (groupData gid x.run.step)

/-- The upstream port of a group is marked absent (R441): running sums that have not arrived are lost, relays end with `FAULT`. -/
def Chip.collAbsent (c : Chip) (v : Env) (gid : GroupId) : Chip :=
  match c.ctx gid with
  | none => c
  | some x =>
    if x.grp.exact then c
    else if x.op.kind == 7 then c.forMissing gid (fun _ => true) (fun c _ u =>
      ((c.modRun gid (fun (o : OpenStep) => { o with got := u :: o.got })).segStatus gid u.seg stFault).segProgress v gid u.seg u.elems)
    else if x.op.direct then c
    else c.forMissing gid (fun u => !u.res) (fun c y u => c.restart v gid y u)

/-! ### Instants of a step (R438 to R442) -/

def OpenStep.limitH (r : OpenStep) (op : CollOp) : Nat := r.deadline - op.margin
def OpenStep.limitX (r : OpenStep) (op : CollOp) : Nat := r.deadline + op.margin

/-- The step has instants: fast mode, and no relay (R438, R442). -/
def StepCtx.timed (x : StepCtx) : Bool := !x.grp.exact && x.op.kind != 7 && !x.run.ended

/-- Late segments are recorded, one record for all of them when none came in time (Table 17.10). -/
def Chip.recordLate (c : Chip) (v : Env) (gid : GroupId) (x : StepCtx) (late : List Nat) : Chip :=
  let kind := if x.grp.drop || !x.op.reducing then 3 else 2
  if late.isEmpty then c
  else if late.length == x.op.segs.length then c.ledger v gid x.run.step.toNat kind 0xFFFF 0
  else late.foldl (fun (c : Chip) si => c.ledger v gid x.run.step.toNat kind si 0) c

/-- Deferred contributions of earlier steps that are not ready expire (R439). -/
def Chip.expireDeferred (c : Chip) (v : Env) (gid : GroupId) (x : StepCtx) : Chip :=
  x.op.deferred.foldl (fun (c : Chip) (d : Nat × Deferred) =>
    if d.2.step != x.run.step && d.2.vals.isNone && !d.2.drop then
      (c.modOp gid (fun (o : CollOp) => { o with deferred := tblErase o.deferred d.1 })).ledger v gid d.2.step.toNat 5 d.1 0
    else c) c

/-- At H the contributions that are not ready are late, and what waits for them goes on without them (R438). -/
def Chip.passH (c : Chip) (v : Env) (gid : GroupId) : Chip :=
  match c.ctx gid with
  | none => c
  | some x =>
    if x.run.passedH then c
    else
      let c := c.modRun gid (fun (o : OpenStep) => { o with passedH := true })
      let c := c.expireDeferred v gid x
      let late := (List.range x.op.segs.length).filter (fun si => !(x.run.seg si).settled)
      let c := (c.recordLate v gid x late).stamp v 18 (groupData gid x.run.step)
      let c := if late.isEmpty then c else c.modGroup gid (fun (g : Group) => { g with late := true })
      late.foldl (fun (c : Chip) si =>
        let c := c.takeDeferred v gid si
        let c := c.modSeg gid si (fun (s : SegRun) => { s with late := true })
        let c := c.modOp gid (fun (o : CollOp) => { o with
          deferred := tblSet o.deferred si { step := x.run.step, drop := x.grp.drop || !x.op.reducing } })
        c.settle v gid si) c

/-- HOLD_LIMIT (R438). A contribution that is ready by H is on time. -/
def Chip.holdLimit (c : Chip) (v : Env) (gid : GroupId) : Chip :=
  match c.ctx gid with
  | none => c
  | some x => if x.timed && decide (x.run.limitH x.op ≤ v.ns) && !x.run.passedH then (c.poll v gid).passH v gid else c

/-- LATE_CONTRIBUTION_READY (R439, R440): copied into the deferral area, sent to its owners in the direct form, withheld if it
proves non-finite, or never read under policy `drop`. -/
def Chip.lateReady (c : Chip) (v : Env) (gid : GroupId) (si : Nat) : Chip :=
  match c.group gid with
  | none => c
  | some g => match g.op with
    | none => c
    | some op =>
      match tblFind op.deferred si with
      | none => c
      | some d =>
        let s := op.seg si
        if d.vals.isSome || c.readyWord g.tenant s != d.step.toNat % 2 ^ 32 then c
        else
          let c := c.ctlWrite g.tenant s 4 4 d.step.toNat
          let erase (c : Chip) := c.modOp gid (fun (o : CollOp) => { o with deferred := tblErase o.deferred si })
          let nf := c.localNonFinite gid g
          if d.drop then erase c
          else if nf.1 && op.operator ≤ 1 then
            ((erase c).modGroup gid (fun (g : Group) => { g with withheld := true })).ledger v gid d.step.toNat 1 0 nf.2
          else
            let vals := c.readSource g op si
            let w := memBytes op false
            let c := c.vwrite g.tenant s.deferral (vals.flatMap (leBytes w))
            if op.direct then
              let us := (othersOf g).flatMap (fun j => shardUnits g op (c.sealedGroup gid) false si j)
              (us.foldl (fun (c : Chip) (u : ChunkUnit) => c.emit gid d.step
                { u := u, count := 1, deferred := 0, restarted := false, lanes := (unitVals op g u vals).map (contribution op) })
                (erase c))
            else c.modOp gid (fun (o : CollOp) => { o with deferred := tblSet o.deferred si { d with vals := some vals } })

/-- At D running sums that have not arrived start afresh, and the owner of the direct form reads out what it has (R436, R441). -/
def Chip.passD (c : Chip) (v : Env) (gid : GroupId) : Chip :=
  let c := c.passH v gid
  match c.ctx gid with
  | none => c
  | some x =>
    if x.run.passedD then c
    else
      let c := c.modRun gid (fun (o : OpenStep) => { o with passedD := true })
      if !x.op.reducing then c
      else if x.op.direct then c.forMissing gid (fun u => !u.res) (fun c y u =>
        let wide := wideSum y.grp y.op
        let r := ((y.run.sums.find? (fun p => p.1.u == u)).getD (emptySum wide y.op u false, 0)).1
        (c.modRun gid (fun (o : OpenStep) => { o with sums := o.sums.filter (fun p => p.1.u != u), got := u :: o.got })).finishSum v gid y r)
      else c.forMissing gid (fun u => !u.res) (fun c y u => c.restart v gid y u)

/-- STEP_DEADLINE (R441). -/
def Chip.stepDeadline (c : Chip) (v : Env) (gid : GroupId) : Chip :=
  match c.ctx gid with
  | none => c
  | some x => if x.timed && decide (x.run.deadline ≤ v.ns) && !x.run.passedD then (c.poll v gid).passD v gid else c

/-- STEP_END (R441): at X. -/
def Chip.stepEnd (c : Chip) (v : Env) (gid : GroupId) : Chip :=
  match c.ctx gid with
  | none => c
  | some x =>
    if x.timed && decide (x.run.limitX x.op ≤ v.ns) && !x.run.passedX then
      let c := (c.poll v gid).passD v gid
      let c := c.forMissing gid (·.res) (fun c y u => c.loseResult v gid y u)
      c.modRun gid (fun (o : OpenStep) => { o with passedX := true })
    else c

/-- EXACT_LIMIT (R442): `TIMEOUT` in every control block. -/
def Chip.exactLimit (c : Chip) (v : Env) (gid : GroupId) : Chip :=
  match c.ctx gid with
  | none => c
  | some x =>
    let limit := if x.grp.limit == 0 then 1000000 else x.grp.limit
    if x.grp.exact && x.op.kind != 7 && !x.run.ended && !x.run.segs.all (·.done) && decide (x.run.deadline + 1000 * limit ≤ v.ns) then
      let c := c.ledger v gid x.run.step.toNat 9 0 stTimeout
      let c := (List.range x.op.segs.length).foldl (fun (c : Chip) si => c.segDone gid x si stTimeout) c
      c.modRun gid (fun (o : OpenStep) => { o with ended := true })
    else c

/-- The chip's part of the open step has ended (R446). -/
def StepCtx.finished (x : StepCtx) : Bool := x.run.ended || x.run.passedX || x.run.segs.all (·.done)

/-- Pre-emptions that wait for a group's boundary wait for it no more; those that wait for none are delivered (R446, R110). -/
def Chip.releasePreempts (c : Chip) (v : Env) (gid : GroupId) : Chip :=
  let held := c.coll.heldPreempts.map (fun (h : CoreId × List GroupId) => (h.1, h.2.filter (fun g => g != gid)))
  let due := held.filter (fun h => h.2.isEmpty)
  let c : Chip := { c with coll := { c.coll with heldPreempts := held.filter (fun h => !h.2.isEmpty) } }
  due.foldl (fun (c : Chip) h =>
    if (c.core h.1).preempt == .none && (c.core h.1).running then
      (c.modCore h.1 (fun (k : Core) => { k with preempt := .requested })).stamp v 39 (clusterOf h.1).toNat
    else c) c

/-- COLLECTIVE_STEP_BOUNDARY (R446): the step summary is written, COL_GSTATn shows the step, and held pre-emptions are delivered. -/
def Chip.stepBoundary (c : Chip) (v : Env) (gid : GroupId) : Chip :=
  match c.ctx gid with
  | none => c
  | some x =>
    if !x.finished then c
    else
      let worst := x.run.segs.foldl (fun (a : Nat) s => max a s.status.toNat) 0
      let c := (c.ledger v gid x.run.step.toNat 8 (min x.run.maxDeferred 0xFFFF) (x.run.minCount.getD 0)).stamp v 17
        (groupData gid x.run.step)
      let c := c.modGroup gid (fun (g : Group) => { g with step := x.run.step.setWidth 32, last := BitVec.ofNat 16 worst })
      let c := c.modOp gid (fun (o : CollOp) => { o with cur := none, step := o.step + 1 })
      c.releasePreempts v gid

/-! ### COL_GSTATn (Table 17.11) -/

def Chip.gstat (c : Chip) (gid : GroupId) : W64 :=
  match c.group gid with
  | none => BitVec.ofNat 64 (8 * b2n (c.sealedGroup gid))
  | some g =>
    let cur := g.op.bind (fun o => o.cur)
    let deferred := match g.op with
      | some o => !o.deferred.isEmpty || !o.carried.isEmpty
      | none => false
    BitVec.ofNat 64 (g.step.toNat * 2 ^ 32 + g.last.toNat * 2 ^ 16 + 256 * b2n (cur.isSome && g.exact) + 128 * b2n g.withheld +
      64 * b2n g.late + 32 * b2n deferred + 16 * b2n g.lost + 8 * b2n (c.sealedGroup gid) + 4 * b2n g.op.isSome +
      2 * b2n cur.isSome + 1)

end Sys2Proof
end

