-- ==== Sys2Proof/Machine/Eyespot.lean ====
section
/-! DEFINITION. The eyespot units (R472 to R480): capture, modes, triggers and freezes, pins and markers. -/
namespace Sys2Proof

/-! ### EYE_CTL (Table 19.4) -/

def Eye.trigNum (u : Eye) : Nat := bits u.ctl.toNat 56 8
def Eye.hops (u : Eye) : Nat := bits u.ctl.toNat 48 8
def Eye.post (u : Eye) : Nat := bits u.ctl.toNat 32 16
def Eye.tsrc (u : Eye) : Nat := bits u.ctl.toNat 7 7
def Eye.trigEn (u : Eye) : Bool := bitAt u.ctl.toNat 6
def Eye.remoteEn (u : Eye) : Bool := bitAt u.ctl.toNat 5
def Eye.mode (u : Eye) : Nat := bits u.ctl.toNat 1 2

def Chip.eyeUnit (c : Chip) (d : DieId) : Eye := nth {} c.eye.units d.toNat
def Chip.modEye (c : Chip) (d : DieId) (f : Eye → Eye) : Chip :=
  { c with eye := { c.eye with units := modNth c.eye.units d.toNat f } }

/-- The bytes of a stamp (Table 19.1). -/
def Stamp.bytes (s : Stamp) : List Byte :=
  leBytes 8 (s.time / 64) ++ leBytes 1 (s.time % 64 + 64 * b2n s.edge + 128 * b2n s.gap) ++ leBytes 1 s.source.toNat ++
  leBytes 2 (s.e.toNat + 4096 * s.state.toNat) ++ leBytes 4 s.data.toNat

/-- A freeze is pending or has come (R478). -/
def Eye.freezing (u : Eye) : Bool := u.frozen || u.freeze != BitVec.allOnes 64

/-- Freeze at F = T + POST · 256 ns: stamps later than F are discarded (R478). -/
def Eye.setFreeze (u : Eye) (t : Nat) : Eye :=
  let f := t + u.post * 256
  { u with freeze := BitVec.ofNat 64 f, buf := u.buf.filter (fun s => decide (s.time ≤ 64 * f)) }

/-- A stamp later than a pending F is discarded. -/
def Eye.past (u : Eye) (s : Stamp) : Bool := u.freeze != BitVec.allOnes 64 && decide (64 * u.freeze.toNat < s.time)

/-- A stamp is lost, and the next one written shows GAP (R474). -/
def Eye.lose (u : Eye) : Eye := { u with lost := satInc u.lost 1, gap := true }

/-- A stamp enters the buffer (R475). -/
def Eye.put (u : Eye) (s : Stamp) : Eye :=
  if u.buf.length < 65536 then { u with buf := u.buf ++ [s] }
  else if u.mode == 1 then { u with buf := u.buf.drop 1 ++ [s] }
  else if u.mode == 2 then u.lose
  else { u.lose with stopped := true }

/-- Stamps drain to the spill ring while it has room (R475). -/
def Chip.spill (c : Chip) (d : DieId) : Nat → Chip
  | 0 => c
  | n + 1 =>
    let u := c.eyeUnit d
    match u.buf with
    | [] => c
    | s :: rest =>
      if u.mode != 2 || u.spillBase == 0 then c
      else
        let base := u.spillBase.toNat
        let room := (c.loadLe base 4 + 2 ^ 32 - c.loadLe (base + 4) 4) % 2 ^ 32 < u.spillRecords.toNat
        if room then Chip.spill ((c.ringPut base u.spillRecords.toNat s.bytes).1.modEye d (fun (u : Eye) => { u with buf := rest })) d n
        else c

/-- A unit sends a flooded trigger (R477): its CHUNK is a serial of the chip. -/
def Chip.sendTrigger (c : Chip) (v : Env) (t num hops : Nat) : Chip :=
  c.openSend v .trigger 0 hops true (openPrefix c.cmd.chip.toNat 1 num 0 t) none

/-- EYE_STAMP (R474, R475): the unit writes its oldest queued stamp; the first one of source TSRC fires a trigger (R477). -/
def Chip.eyeStamp (c : Chip) (v : Env) (d : DieId) : Chip :=
  let u := c.eyeUnit d
  match u.queue with
  | [] => c
  | s :: rest =>
    let fires := u.trigEn && !u.fired && u.tsrc == s.source.toNat && decide (u.tsrc ≤ 67)
    let takes := fires && !u.freezing
    let u1 : Eye := { u with queue := rest, fired := u.fired || fires }
    let u2 := if takes then u1.setFreeze (s.time / 64) else u1
    let u3 := if u2.past s then u2 else u2.put s
    let c := (c.modEye d (fun _ => u3)).spill d 65536
    if takes then c.sendTrigger v (s.time / 64) u.trigNum u.hops else c

/-- EYE_FREEZE (R478): HT has passed F. -/
def Chip.eyeFreeze (c : Chip) (v : Env) (d : DieId) : Chip :=
  c.modEye d (fun (u : Eye) =>
    if u.freeze != BitVec.allOnes 64 && !u.frozen && decide (64 * u.freeze.toNat < v.ht) then
      { u with frozen := true, queue := u.queue.filter (fun s => !u.past s) }
    else u)

/-- A unit accepts a hall trigger (R477, R478). -/
def Eye.accept (u : Eye) (v : Env) (t num origin : Nat) : Eye :=
  if !u.remoteEn || u.freezing then u
  else ((u.take (v.stamp v.ht 68 (num + 256 * origin))).setFreeze t)

def Chip.hallTrigger (c : Chip) (v : Env) (t num origin : Nat) : Chip :=
  { c with eye := { c.eye with units := c.eye.units.map (fun (u : Eye) => u.accept v t num origin) } }

/-- A write of EYE_CTL (R475): RUN = 1 clears the buffer, COUNT, FROZEN and EYE_FREEZE. -/
def Eye.writeCtl (u : Eye) (x : W64) : Eye :=
  if bitAt x.toNat 0 then
    { u with ctl := x, buf := [], queue := [], frozen := false, freeze := BitVec.allOnes 64, fired := false, stopped := false,
             gap := false }
  else { u with ctl := x }

/-- EYE_STATUS (Table 19.5). -/
def Eye.status (u : Eye) : W64 := BitVec.ofNat 64 (u.lost.toNat * 2 ^ 48 + b2n u.frozen * 2 ^ 17 + u.buf.length)

/-- EVT_EDGE (R476): an edge of the selected polarity is stamped once in every unit that runs; a second edge within 2 ns is lost. -/
def Chip.evtEdge (c : Chip) (v : Env) (pin : Nat) (rising : Bool) : Chip :=
  let p := nth {} c.eye.pins pin
  let wanted := match p.polarity.toNat with
    | 1 => !rising
    | 2 => true
    | _ => rising
  if !p.enable.getLsbD 0 || !wanted then c
  else
    let close := match p.last with
      | some t => decide (v.ht < t + 128)
      | none => false
    let time := ((v.ht : Int) - p.delay.toInt).toNat
    let st := { v.stamp time (64 + pin) 0 with edge := rising }
    { c with eye := { c.eye with
        pins := modNth c.eye.pins pin (fun (p : EyePin) => { p with last := some v.ht })
        units := c.eye.units.map (fun (u : Eye) =>
          if !bitAt u.ctl.toNat 0 then u else if close then u.lose else u.take st) } }

/-- EYE_MARK (R480, Table 19.5). -/
def Chip.eyeMark (c : Chip) (v : Env) (x : W64) : Chip := c.stamp v (48 + bits x.toNat 32 4) (bits x.toNat 0 32)

end Sys2Proof
end

