-- ==== Sys2Proof/Machine/Streams.lean ====
section
/-! DEFINITION. Transfers (chapter 07): phases of a core (R105, R106, R159), descriptors and their walk (R180 to R184), streams
(R185, R186, R191 to R199), fill, copy, window and multicast (R187 to R190), parking and error markers (R196 to R200). -/
namespace Sys2Proof

/-! ### Descriptors (Table 07.3) -/

def dFmt (d : List Byte) : Fmt := (Fmt.ofCode (bits (fieldLe d 12 1) 0 4)).getD .fp32
def dScale (d : List Byte) : Bool := bitAt (fieldLe d 12 1) 4
def dDims (d : List Byte) : Nat := fieldLe d 13 1
def dMode (d : List Byte) (k : Nat) : Nat := bits (fieldLe d 14 2) (2 * k) 2
def dPath (d : List Byte) : Nat := fieldLe d 16 1
def dCount (d : List Byte) (k : Nat) : Nat := if k < dDims d then fieldLe d (20 + 4 * k) 4 else 1
def dT (d : List Byte) (k : Nat) : Int := if k = 0 then 0 else signedOf 32 (fieldLe d (36 + 4 * k) 4)
def dU (d : List Byte) (k : Nat) : Int := if k = 0 then 0 else signedOf 32 (fieldLe d (52 + 4 * k) 4)
def dOrigin (d : List Byte) (k : Nat) : Int := signedOf 32 (fieldLe d (72 + 4 * k) 4)
def dExtent (d : List Byte) (k : Nat) : Nat := fieldLe d (92 + 4 * k) 4
def dSrc (d : List Byte) : Nat := fieldLe d 0 6
def dDst (d : List Byte) : Nat := fieldLe d 6 6

/-- Elements of a packing group and its bytes (R41, R181, R182). -/
def dGroup (d : List Byte) : Nat × Nat :=
  if dScale d then (1, 1)
  else match dFmt d with
    | .mxfp6 => (4, 3)
    | .mxfp4 => (2, 1)
    | .int4 => (2, 1)
    | .fp32 => (1, 4)
    | .bf16 => (1, 2)
    | .fp16 => (1, 2)
    | _ => (1, 1)

/-- Units of dimension 0: elements, or whole packing groups. -/
def dUnits (d : List Byte) : Nat := dCount d 0 / (dGroup d).1
/-- Units of a piece of a line: at most 256 bytes (R183). -/
def dPiece (d : List Byte) : Nat := 256 / (dGroup d).2
def dTuples (d : List Byte) : Nat := dCount d 1 * dCount d 2 * dCount d 3 * dCount d 4
/-- Lines of the whole walk (R183). -/
def dLines (d : List Byte) : Nat := dTuples d * ceilDiv (dUnits d) (dPiece d)
def dBytes (d : List Byte) : Nat := dTuples d * dUnits d * (dGroup d).2

/-- The tuple of dimensions 1 to 4 of a line. -/
def dIndex (d : List Byte) (tuple k : Nat) : Nat :=
  match k with
  | 1 => tuple % dCount d 1
  | 2 => tuple / dCount d 1 % dCount d 2
  | 3 => tuple / (dCount d 1 * dCount d 2) % dCount d 3
  | _ => tuple / (dCount d 1 * dCount d 2 * dCount d 3)

/-- A unit of a line: source and destination offsets, and whether it lies outside (R181). -/
structure WalkUnit where
  src : Int
  dst : Int
  outside : Bool
  deriving DecidableEq, Repr

/-- Clamp a coordinate under its edge mode. -/
def clampCoord (mode extent : Nat) (c : Int) : Int :=
  if extent != 0 && mode == 1 then min (max c 0) ((extent : Int) - 1) else c

/-- A coordinate lies outside under mode `zero`. -/
def outsideCoord (mode extent : Nat) (c : Int) : Bool :=
  extent != 0 && mode == 2 && (decide (c < 0) || decide ((extent : Int) ≤ c))

/-- Hop of a window in units (R189). -/
def dHop (kind : XferKind) (d : List Byte) : Nat := if kind == .win then fieldLe d 112 2 / (dGroup d).1 else 0

/-- The unit at index `i0` of a tuple (R181). -/
def walkUnit (kind : XferKind) (d : List Byte) (tuple i0 : Nat) : WalkUnit :=
  let g := dGroup d
  let iw := if kind == .win then dIndex d tuple (dDims d - 1) else 0
  let e0 := dExtent d 0 / g.1
  let c0 := clampCoord (dMode d 0) e0 (dOrigin d 0 / (g.1 : Int) + i0 + dHop kind d * iw)
  let cs := (List.range 4).map (fun j =>
    let k := j + 1
    (k, clampCoord (dMode d k) (dExtent d k) (dOrigin d k + dIndex d tuple k)))
  { src := dSrc d + c0 * g.2 + cs.foldl (fun (a : Int) p => a + p.2 * dT d p.1) 0
    dst := dDst d + (i0 * g.2 : Nat) + cs.foldl (fun (a : Int) p => a + (dIndex d tuple p.1 : Int) * dU d p.1) 0
    outside := outsideCoord (dMode d 0) e0 c0 || cs.any (fun p => outsideCoord (dMode d p.1) (dExtent d p.1) p.2) }

/-- The units of line `l` (R183). -/
def lineUnits (kind : XferKind) (d : List Byte) (l : Nat) : List WalkUnit :=
  let per := ceilDiv (dUnits d) (dPiece d)
  let tuple := l / per
  let first := l % per * dPiece d
  (List.range (min (dPiece d) (dUnits d - first))).map (fun j => walkUnit kind d tuple (first + j))

/-- Bytes of the walk before line `l`. -/
def lineStart (d : List Byte) (l : Nat) : Nat :=
  let per := ceilDiv (dUnits d) (dPiece d)
  (l / per * dUnits d + l % per * dPiece d) * (dGroup d).2

/-! ### Checks at the opening (R182, R184, R187 to R189) -/

/-- Reserved fields, codes and dimensions (Table 07.3). -/
def dFieldsBad (d : List Byte) : Bool :=
  bits (fieldLe d 12 1) 5 3 != 0 || decide (8 < bits (fieldLe d 12 1) 0 4) || bits (fieldLe d 14 2) 10 6 != 0 ||
  (List.range 5).any (fun k => dMode d k == 3) || decide (4 < dPath d) || fieldLe d 17 1 != 0 ||
  dDims d == 0 || decide (5 < dDims d) ||
  (List.range 5).any (fun k => decide (dDims d ≤ k) &&
    (fieldLe d (20 + 4 * k) 4 != 0 || fieldLe d (72 + 4 * k) 4 != 0 || dExtent d k != 0 || dMode d k != 0 ||
     (k != 0 && (fieldLe d (36 + 4 * k) 4 != 0 || fieldLe d (52 + 4 * k) 4 != 0))))

/-- Operation fields (Table 07.6) and the paths of each instruction (Table 07.4). -/
def dOperationBad (kind : XferKind) (d : List Byte) : Bool :=
  match kind with
  | .plain => !(dPath d == 0 || dPath d == 1 || dPath d == 4) ||
      (if dPath d == 4 then !zeroBytes d 116 12 else !zeroBytes d 112 16)
  | .win => dPath d != 0 || !zeroBytes d 114 14 || decide (dDims d < 2) || fieldLe d 112 2 == 0 ||
      decide (256 < fieldLe d 112 2) || dT d (dDims d - 1) != 0 || fieldLe d 112 2 % (dGroup d).1 != 0
  | .fill => !(dPath d == 0 || dPath d == 2) || !zeroBytes d 120 8 || (List.range 5).any (fun k => dMode d k != 0)
  | .copy => !(dPath d == 2 || dPath d == 3) || bits (fieldLe d 112 1) 5 3 != 0 || !zeroBytes d 113 7 || !zeroBytes d 126 2 ||
      (bitAt (fieldLe d 112 1) 4 && (dPath d != 2 || fieldLe d 120 6 % 8 != 0))
  | .multicast => dPath d != 0

/-- Packed formats advance in whole groups (R182). -/
def dPackedBad (d : List Byte) : Bool :=
  let g := (dGroup d).1
  g != 1 && (dCount d 0 % g != 0 || dOrigin d 0 % (g : Int) != 0 || dExtent d 0 % g != 0 || dMode d 0 != 0)

/-- The side of a path that lies in scratchpad: source, destination. -/
def srcScratch (path : Nat) : Bool := path == 1 || path == 3
def dstScratch (path : Nat) : Bool := path == 0 || path == 3 || path == 4

/-- Smallest and largest value of n · t over lo to hi. -/
def spanOf (lo hi t : Int) : Int × Int := (min (lo * t) (hi * t), max (lo * t) (hi * t))

def sumSpans (xs : List (Int × Int)) : Int × Int := xs.foldl (fun (a : Int × Int) x => (a.1 + x.1, a.2 + x.2)) (0, 0)

/-- The coordinates that a dimension reads, with its edge mode. -/
def coordSpan (d : List Byte) (k : Nat) : Int × Int :=
  let g : Nat := if k = 0 then (dGroup d).1 else 1
  let n : Nat := if k = 0 then dUnits d else dCount d k
  let e := dExtent d k / g
  let lo := dOrigin d k / (g : Int)
  let hi := lo + n - 1
  if e != 0 && dMode d k == 1 then (clampCoord 1 e lo, clampCoord 1 e hi)
  else if e != 0 && dMode d k == 2 then (max lo 0, min hi ((e : Int) - 1))
  else (lo, hi)

/-- Some scratchpad byte of the walk lies outside 0 to 4,095 (R184). The offsets are linear in the indices of each dimension. -/
def dScratchBad (kind : XferKind) (d : List Byte) : Bool :=
  let u := (dGroup d).2
  let dst := sumSpans ((List.range 5).map (fun k =>
    spanOf 0 ((if k = 0 then dUnits d else dCount d k : Nat) - 1) (if k = 0 then (u : Int) else dU d k)))
  let cs := (List.range 5).map (coordSpan d)
  let src := sumSpans ((List.range 5).map (fun k => spanOf (nth (0, 0) cs k).1 (nth (0, 0) cs k).2
    (if k = 0 then (u : Int) else dT d k)))
  let reads := cs.all (fun p => decide (p.1 ≤ p.2))
  let bad (off : Nat) (s : Int × Int) : Bool := decide ((off : Int) + s.1 < 0) || decide (4096 < (off : Int) + s.2 + u)
  dLines d != 0 && ((dstScratch (dPath d) && bad (dDst d) dst) ||
    (srcScratch (dPath d) && kind != .fill && reads && bad (dSrc d) src))

/-- A descriptor that the engine refuses with `BAD_PARAM`. -/
def dRefused (kind : XferKind) (d : List Byte) : Bool :=
  dFieldsBad d || dOperationBad kind d || dPackedBad d || dScratchBad kind d

/-! ### Opening a stream (R180, R184 to R186, R191) -/

/-- Hardware contexts that serve no stream. -/
def Cluster.freeContexts (x : Cluster) : List Nat :=
  (List.range 16).filter (fun i => !x.streams.any (fun s => s.place == .hw (BitVec.ofNat 4 i) &&
    (match s.st with
      | .ended _ => false
      | _ => true)))

/-- Entries of the spill area (R195). -/
def MemState.spillEntries (m : MemState) : Nat := m.spillSize.toNat * 65536
def MemState.spillTake (m : MemState) : MemState :=
  let n := m.spillUse + 1
  { m with spillUse := n, spillPeak := if m.spillPeak.toNat < n.toNat then n else m.spillPeak }
def MemState.spillFree (m : MemState) : MemState := { m with spillUse := m.spillUse - 1 }

/-- The next serial, skipping serials still in use (R186). -/
def Cluster.nextSerial (x : Cluster) : BitVec 16 :=
  ((List.range 65536).map (fun i => x.serial + BitVec.ofNat 16 i)).find? (fun n => !x.streams.any (fun s => s.serial == n))
    |>.getD x.serial

/-- Streams of a cluster that are open (R552). -/
def Cluster.openStreams (x : Cluster) : Nat := (x.streams.filter (fun s => match s.st with
  | .ended _ => false
  | _ => true)).length

/-- The first status other than `OK` stands until `XEND` reads it (R159). -/
def Core.noteStatus (k : Core) (status : Nat) : Core :=
  if k.xferStatus == 0 then { k with xferStatus := BitVec.ofNat 16 status } else k

/-- The register result of a transfer instruction, with its completion word. -/
def Core.xferDone (k : Core) (d : BitVec 4) (tag status state wordAt : Nat) : Core :=
  { (k.setReg d (BitVec.ofNat 32 tag)).noteStatus status with
    scratch := k.scratch.write wordAt (completionWord status state 0), pc := k.pc + 1 }

/-- `XFER` and its variants (R180, R184 to R186, R191). -/
def Chip.xfer (c : Chip) (v : Env) (id : CoreId) (w : Fields) (kind : XferKind) : Chip :=
  let k := c.core id
  if !(c.coreRuns id && k.canIssue) then c
  else
    let at' := k.regN w.a
    let d := k.scratch.read at' 128
    let wordAt := fieldLe d 18 2
    let causes := when (w.bad { d := true, a := true, imm := 0xF } || !k.inTransfer) cIllegal ++
      when (outOfScratch (at', 128) || outOfScratch (wordAt, 8)) cBounds ++
      when (at' % 32 != 0 || wordAt % 8 != 0) cAlign ++ when (k.pc == 2047) cInstrBounds
    if !causes.isEmpty then c.onCore v id (fun k => k.issueWith causes 0 .done)
    else if k.mustWait [(at', 128)] [(wordAt, 8)] then c
    else
      let cl := clusterOf id
      let x := c.cluster cl
      if dRefused kind d then c.setCore id (k.xferDone w.d 0xFFFFFFFF stBadParam 1 wordAt)
      else
        let free := x.freeContexts
        let spill := free.isEmpty
        if decide (65535 ≤ x.openStreams) || (spill && decide (c.mem.spillEntries ≤ c.mem.spillUse.toNat)) then
          c.setCore id (k.xferDone w.d 0xFFFFFFFF stStreamExhausted 1 wordAt)
        else
          let n := x.nextSerial
          let h := nth 0 k.handles (bits w.imm.toNat 0 4)
          let detached := kind == .copy && bitAt (fieldLe d 112 1) 4
          let dh := if kind == .copy then nth 0 k.handles (bits (fieldLe d 112 1) 0 4) else h
          let s : Stream :=
            { serial := n, core := id, tenant := k.tenant.getD 0, kind := kind, desc := d, src := h, dst := dh,
              place := if spill then .spilled else .hw (BitVec.ofNat 4 (free.head?.getD 0)), order := x.opened,
              fenceSeq := k.fenceSeq, detached := detached, opened := v.now, spilledOpen := spill }
          let x := { x with streams := x.streams ++ [s], serial := n + 1, opened := x.opened + 1 }
          let c : Chip := { c with mem := if spill then c.mem.spillTake else c.mem }
          (c.setCluster cl x).setCore id (k.xferDone w.d s.tag stOk (if detached then 3 else 0) wordAt)

/-! ### Ends -/

/-- Marker bytes of one unit (Table 07.9). -/
def markerUnit (d : List Byte) : List Byte :=
  if dScale d then [0xFF]
  else match dFmt d with
    | .fp32 => leBytes 4 0x7FC00000
    | .bf16 => leBytes 2 0x7FC0
    | .fp16 => leBytes 2 0x7E00
    | .e4m3 => [0x7F]
    | .e5m2 => [0x7E]
    | .mxfp6 => [0, 0, 0]
    | .mxfp4 => [0]
    | .int8 => [0x80]
    | .int4 => [0x88]

/-- Write the markers of the lines that were not delivered (R198). -/
def Stream.writeMarkers (s : Stream) (m : Memory) : Memory :=
  (List.range (dLines s.desc - s.lines)).foldl (fun (m : Memory) i =>
    (lineUnits s.kind s.desc (s.lines + i)).foldl (fun (m : Memory) u => m.write u.dst.toNat (markerUnit s.desc)) m) m

/-- A stream leaves its context or spill entry. -/
def Chip.releasePlace (c : Chip) (s : Stream) : Chip :=
  { c with mem := if s.place == .spilled then c.mem.spillFree else c.mem }

/-- Drop a stream of a cluster. -/
def Chip.dropStream (c : Chip) (cl : ClusterId) (n : BitVec 16) : Chip :=
  c.modCluster cl (fun x => { x with streams := x.streams.filter (fun s => s.serial != n) })

/-- A receive has ended: its sender counts the target (R190). -/
def Chip.countTarget (c : Chip) (s : Stream) : Chip :=
  match s.sender with
  | some (cl, n) => c.modStream (BitVec.ofNat 14 cl) n (fun (x : Stream) => { x with endedTargets := s.core :: x.endedTargets })
  | none => c

/-- A stream ends with a status: its word shows state 1 in the core's transfer phase, else it is due (R185). -/
def Chip.endStream (c : Chip) (cl : ClusterId) (n : BitVec 16) (status : Nat) : Chip :=
  match c.stream cl n with
  | none => c
  | some s =>
    let c := ((c.releasePlace s).countTarget s).modCore s.core (fun k => k.noteStatus status)
    let k := c.core s.core
    if k.inTransfer && k.preempt == .none then
      (c.setCore s.core { k with scratch := k.scratch.write s.wordAt (completionWord status 1 s.lines) }).dropStream cl n
    else c.modStream cl n (fun (s : Stream) => { s with st := .ended (BitVec.ofNat 16 status), wordDue := true })

/-- A parked stream ends with `FAULT` (R197, R198): on paths 0, 3 and 4 its markers and word wait for the next transfer phase. -/
def Chip.endParked (c : Chip) (cl : ClusterId) (n : BitVec 16) : Chip :=
  match c.stream cl n with
  | none => c
  | some s =>
    let c := c.unjoin s.tenant (.stream cl n)
    if s.detached then (c.releasePlace s).dropStream cl n
    else if dstScratch (dPath s.desc) then
      (((c.releasePlace s).countTarget s).modCore s.core (fun k => k.noteStatus stFault)).modStream cl n
        (fun (s : Stream) => { s with st := .ended (BitVec.ofNat 16 stFault), wordDue := true, markDue := true })
    else c.endStream cl n stFault

/-- Completion record of a detached copy (R188), at its offset in the destination handle. -/
def Chip.detachedRecord (c : Chip) (v : Env) (s : Stream) (status : Nat) : Chip :=
  let o := fieldLe s.desc 120 6
  if handleOk s.dst o 8 1 then c.vwrite s.tenant (handleBase s.dst + o) (completionWord status 1 s.lines)
  else c.violation v (some s.tenant) 1 (clusterOf s.core).toNat

/-! ### Phases of a core (R105, R106, R159) -/

/-- `XBEGIN`: the scheduler latches a restore point (R536), and the core asks for admission once its array, drains and tile queue are
empty. -/
def Core.xbegin (k : Core) (w : Fields) (order : Nat) : Core :=
  let causes := when (w.bad {} || k.inTransfer) cIllegal ++ when (k.pc == 2047) cInstrBounds
  k.issueWith causes 0 (fun k =>
    if k.arrayIdle && k.tq.isEmpty then
      .done { k with latch := { index := k.pc, regs := k.regs, lanes := k.lanes, norms := k.norms }, phase := .requested order }
    else .wait)

def Chip.xbegin (c : Chip) (v : Env) (id : CoreId) (w : Fields) : Chip :=
  let cl := clusterOf id
  let n := (c.cluster cl).reqOrder
  (c.onCore v id (fun k => k.xbegin w n)).modCluster cl (fun x => { x with reqOrder := n + 1 })

/-- N of R106: the image's admission of the cluster's job. -/
def Chip.admission (c : Chip) (cl : ClusterId) : Nat :=
  match ((c.cluster cl).job.bind c.job).map (fun j => j.image.admission) with
  | some n => n
  | none => 8

/-- A core stands in its transfer phase, or walks a descriptor outside its scratchpad, which counts as one (R140). -/
def Core.inAdmission (k : Core) : Bool :=
  k.inTransfer || (match k.hold with
    | .walk d => bits (fieldLe (k.scratch.read d.toNat 64) 9 1) 4 4 != 0
    | _ => false)

/-- The request that is admitted next: the oldest, the lower core first (R106). -/
def Chip.nextRequest (c : Chip) (cl : ClusterId) : Option CoreId :=
  ((coresOf cl).filterMap (fun id => match (c.core id).phase with
    | .requested n => if (c.core id).preempt == .none && !(c.core id).halted then some (n, id) else none
    | _ => none)).foldl (fun (b : Option (Nat × CoreId)) x => match b with
      | none => some x
      | some y => if x.1 < y.1 then some x else some y) none |>.map (·.2)

/-- Markers of ended streams and words that are due, before any line of the core's streams (R185, R198). -/
def Chip.writeDue (c : Chip) (cl : ClusterId) (id : CoreId) : Chip :=
  let mine := (c.cluster cl).streams.filter (fun s => s.core == id && s.wordDue)
  let m := mine.foldl (fun (m : Memory) s =>
    let m := if s.markDue then s.writeMarkers m else m
    match s.st with
    | .ended st => m.write s.wordAt (completionWord st.toNat 1 s.lines)
    | .parked => m.write s.wordAt (completionWord stOk 2 s.lines)
    | _ => m.write s.wordAt (completionWord stOk 0 s.lines)) (c.core id).scratch
  let c := c.modCore id (fun k => { k with scratch := m })
  c.modCluster cl (fun x => { x with
    streams := (x.streams.filter (fun s => !(s.core == id && s.wordDue && (match s.st with
      | .ended _ => true
      | _ => false)))).map (fun (s : Stream) => if s.core == id then { s with wordDue := false, markDue := false } else s) })

/-- TRANSFER_PHASE_ADMIT (R106). -/
def Chip.admitNext (c : Chip) (cl : ClusterId) : Chip :=
  if (c.cluster cl).gated || decide (c.admission cl ≤ ((coresOf cl).filter (fun id => (c.core id).inAdmission)).length) then c
  else match c.nextRequest cl with
    | none => c
    | some id =>
      let k := c.core id
      if !(k.arrayIdle && k.tq.isEmpty && c.coreRuns id) then c
      else (c.setCore id { k with phase := .transfer, pc := k.pc + 1 }).writeDue cl id

/-- Streams of a core's work item that are not detached; those of a context that is saved belong to that one (R199). -/
def Chip.coreStreams (c : Chip) (id : CoreId) : List Stream :=
  (c.cluster (clusterOf id)).streams.filter (fun s => s.core == id && !s.detached && s.st != .preempted)

/-- A stream shows state 1 or 2. -/
def Stream.settled (s : Stream) : Bool :=
  match s.st with
  | .ended _ => true
  | .parked => true
  | _ => false

/-- `XEND` (R159, R185). -/
def Chip.xend (c : Chip) (v : Env) (id : CoreId) (w : Fields) : Chip :=
  let settled := (c.coreStreams id).all (·.settled)
  c.onCore v id (fun k =>
    k.seqWith (when (w.bad { d := true } || !k.inTransfer) cIllegal) (fun k =>
      if settled then
        .done { k.setReg w.d (k.xferStatus.setWidth 32) with phase := .compute, xferStatus := 0 }
      else .wait))

/-! ### Line delivery (R181, R183, R187 to R190, R196, R324) -/

/-- How a byte of memory is reached: a translated byte, a violation of a kind, or a missing translation. -/
inductive Reach where
  | ok (pa : Nat)
  | bad (kind : Nat)
  | miss (va : Nat)
  deriving DecidableEq, Repr

/-- Reach `n` bytes at an offset of a handle for a stream (R179, R341). -/
def Chip.reach (c : Chip) (cl : ClusterId) (s : Stream) (h : BitVec 512) (off : Int) (n perm : Nat) : List Reach :=
  if off < 0 || !handleOk h off.toNat n perm then [.bad 1]
  else (List.range n).map (fun i =>
    let va := handleBase h + off.toNat + i
    if s.badPages.contains (BitVec.ofNat 36 (va / 4096)) then .bad 4
    else match (c.cluster cl).tlbFind s.tenant va with
      | none => .miss va
      | some e => if (if perm == 0 then e.r else e.w) then .ok (e.phys va) else .bad 2)

def firstMiss (rs : List Reach) : Option Nat := rs.findSome? (fun r => match r with
  | .miss va => some va
  | _ => none)
def firstBad (rs : List Reach) : Option Nat := rs.findSome? (fun r => match r with
  | .bad k => some k
  | _ => none)
def reached (rs : List Reach) : List Nat := rs.filterMap (fun r => match r with
  | .ok pa => some pa
  | _ => none)

/-- A byte as a stream reads it: the write buffer, the cluster cache, then the home (R360, R361, R366). -/
def Chip.streamByte (c : Chip) (cl : ClusterId) (s : Stream) (pa : Nat) : Byte :=
  let x := c.cluster cl
  match x.buffered pa with
  | some b => b
  | none => match x.cached (pa / 64) s.fenceSeq with
    | some l => nth 0 l.data (pa % 64)
    | none => c.mem.bytes.get pa

/-- A line of memory is poisoned as a stream reads it. -/
def Chip.streamPoison (c : Chip) (cl : ClusterId) (s : Stream) (pa : Nat) : Bool :=
  match (c.cluster cl).cached (pa / 64) s.fenceSeq with
  | some l => l.poisoned
  | none => c.mem.poisoned (pa / 64)

/-- Lines read from the home enter the cluster cache (R361, R366). -/
def Chip.fillLines (c : Chip) (cl : ClusterId) (s : Stream) (pas : List Nat) : Chip :=
  (pas.map (· / 64)).eraseDups.foldl (fun (c : Chip) line =>
    if ((c.cluster cl).cached line s.fenceSeq).isSome then c
    else
      let data := c.load (64 * line) 64
      let bad := c.mem.poisoned line
      let c := { c with mem := c.mem.touch (64 * line) 64 }
      c.modCluster cl (fun x => { x.install line data bad (!handleNoAlloc s.src) x.seq with seq := x.seq + 1 })) c

/-- What a unit brings: its bytes, whether poison was met, and the kind of a violation. -/
structure UnitRead where
  bytes : List Byte
  poisoned : Bool := false
  bad : Option Nat := none
  deriving DecidableEq, Repr

/-- Read the source of a unit: zero outside, the pattern of a fill, scratchpad, the sender's bytes, or memory; `at'` is the position of
the unit in its line and in the walk. -/
def Chip.readUnit (c : Chip) (cl : ClusterId) (s : Stream) (u : WalkUnit) (inLine inWalk : Nat) (sender : List Byte) : UnitRead :=
  let n := (dGroup s.desc).2
  if s.kind == .fill then { bytes := (List.range n).map (fun i => nth 0 (slice s.desc 112 8) ((inLine + i) % 8)) }
  else if dPath s.desc == 4 then { bytes := slice sender inWalk n }
  else if u.outside then { bytes := List.replicate n 0 }
  else if srcScratch (dPath s.desc) then { bytes := (c.core s.core).scratch.read u.src.toNat n }
  else
    let rs := c.reach cl s s.src u.src n 0
    match firstBad rs with
    | some k => { bytes := List.replicate n 0, bad := some k }
    | none =>
      let pas := reached rs
      let poisoned := pas.any (c.streamPoison cl s)
      if poisoned && dPath s.desc != 2 then { bytes := markerUnit s.desc, poisoned := true }
      else { bytes := pas.map (c.streamByte cl s), poisoned := poisoned }

/-- Pages of a line that have no translation: the first address, and whether it is written. -/
def Chip.lineMiss (c : Chip) (cl : ClusterId) (s : Stream) (us : List WalkUnit) : Option (Nat × Bool) :=
  let n := (dGroup s.desc).2
  let reads := if s.kind == .fill || srcScratch (dPath s.desc) || dPath s.desc == 4 then none
    else us.findSome? (fun u => if u.outside then none else firstMiss (c.reach cl s s.src u.src n 0))
  match reads with
  | some va => some (va, false)
  | none =>
    if dstScratch (dPath s.desc) then none
    else (us.findSome? (fun u => firstMiss (c.reach cl s s.dst u.dst n 1))).map (fun va => (va, true))

/-- Write units to memory through the write buffer; none when it has no room for every line (R360, R366). -/
def Chip.writeUnits (c : Chip) (cl : ClusterId) (s : Stream) (ws : List (List Reach × UnitRead)) : Option Chip :=
  let cells := ws.flatMap (fun w => if (firstBad w.1).isSome then [] else (reached w.1).zip (w.2.bytes.map (fun b => (b, w.2.poisoned))))
  let x := c.cluster cl
  let fresh := ((cells.map (fun p => p.1 / 64)).eraseDups).filter (fun l => !x.wb.any (fun e => e.line == l && !e.sent))
  if 32 < x.wb.length + fresh.length then none
  else some (c.setCluster cl (cells.foldl (fun (x : Cluster) p => x.enterWrite (.stream cl s.serial) p.1 [p.2.1] p.2.2) x))

/-- A line of a multicast sender is read once into what its receivers take (R190). -/
def Stream.gather (s : Stream) (rs : List UnitRead) : Stream :=
  if s.kind == .multicast then { s with buf := s.buf ++ rs.flatMap (·.bytes) } else s

/-- Deliver a line whose translations are all present. -/
def Chip.deliver (c : Chip) (v : Env) (cl : ClusterId) (s : Stream) (us : List WalkUnit) (sender : List Byte) : Chip :=
  let n := (dGroup s.desc).2
  let start := lineStart s.desc s.lines
  let rs := us.zipIdx.map (fun p => c.readUnit cl s p.1 (p.2 * n) (start + p.2 * n) sender)
  let pas := if s.kind == .fill || srcScratch (dPath s.desc) || dPath s.desc == 4 then []
    else us.flatMap (fun u => if u.outside then [] else reached (c.reach cl s s.src u.src n 0))
  let toMem := !dstScratch (dPath s.desc)
  let dsts := if toMem then us.map (fun u => c.reach cl s s.dst u.dst n 1) else []
  let badKind := match rs.findSome? (·.bad) with
    | some k => some k
    | none => dsts.findSome? firstBad
  let c1 := c.fillLines cl s pas
  let c2 := if toMem then c1.writeUnits cl s (dsts.zip rs)
    else if s.kind == .multicast then some c1
    else some (c1.modCore s.core (fun k =>
      { k with scratch := (us.zip rs).foldl (fun (m : Memory) p => m.write p.1.dst.toNat p.2.bytes) k.scratch }))
  match c2 with
  | none => c
  | some c2 =>
    let poisoned := rs.any (·.poisoned)
    let c3 := c2.modStream cl s.serial (fun (x : Stream) =>
      { x.gather rs with lines := x.lines + 1, badPages := [], turn := x.turn + us.length * n,
                         poisoned := x.poisoned || (poisoned && dPath x.desc != 2) })
    let c4 := match badKind with
      | some k => c3.violation v (some s.tenant) k cl.toNat
      | none => c3
    if poisoned then c4.poisonRead v ((pas.find? (fun a => c.streamPoison cl s a)).getD 0) cl.toNat else c4

/-- Cores that a multicast lists (R190): the core mask in each listed cluster of the sender's sector. -/
def Stream.targets (s : Stream) : List CoreId :=
  let cm := fieldLe s.desc 112 8
  let km := fieldLe s.desc 120 8
  let cl := (clusterOf s.core).toNat
  let cls := if km == 0 then [cl] else ((List.range 64).filter (bitAt km)).map (fun m => cl / 64 * 64 + m)
  cls.flatMap (fun x => ((List.range 64).filter (bitAt cm)).map (fun k => coreAt (BitVec.ofNat 14 x) k))

/-- The multicast key of a sender (bytes 6 to 7) and of a receive (bytes 0 to 1). -/
def Stream.sendKey (s : Stream) : Nat := fieldLe s.desc 6 2
def Stream.recvKey (s : Stream) : Nat := fieldLe s.desc 0 2

/-- The oldest open multicast of the sector with a receive's key that lists its core and has not been taken by it (R190). -/
def Chip.findSender (c : Chip) (cl : ClusterId) (s : Stream) : Option (Nat × Stream) :=
  let cls := (List.range 64).map (fun m => cl.toNat / 64 * 64 + m)
  let cands := cls.flatMap (fun x => ((c.cluster (BitVec.ofNat 14 x)).streams.filter (fun y =>
    y.kind == .multicast && !(match y.st with
      | .ended _ => true
      | _ => false) && y.sendKey == s.recvKey && y.targets.contains s.core && !y.matched.contains s.core && !y.missed)).map (fun y => (x, y)))
  cands.foldl (fun (b : Option (Nat × Stream)) y => match b with
    | none => some y
    | some z => if y.2.opened < z.2.opened then some y else some z) none

/-- A receive that has not met its sender (R190). -/
def Stream.seeks (s : Stream) : Bool :=
  s.kind == .plain && dPath s.desc == 4 && s.sender.isNone && !(match s.st with
    | .ended _ => true
    | _ => false)

/-- A receive takes its sender; one whose byte count differs ends with `BAD_PARAM` (R190). -/
def Chip.matchReceive (c : Chip) (cl : ClusterId) (s : Stream) : Chip :=
  match c.findSender cl s with
  | none => c
  | some (x, y) =>
    let c := c.modStream (BitVec.ofNat 14 x) y.serial (fun (y : Stream) => { y with matched := s.core :: y.matched })
    let c := c.modStream cl s.serial (fun (s : Stream) => { s with sender := some (x, y.serial) })
    if dBytes s.desc != dBytes y.desc then c.endStream cl s.serial stBadParam else c

/-- The engine may move a stream's next line: its cluster runs, it stands in a hardware context and runs, and its core is in its
transfer phase unless the copy is detached. -/
def Chip.canMove (c : Chip) (cl : ClusterId) (s : Stream) : Bool :=
  let k := c.core s.core
  s.st == .running && s.place != .spilled && c.coreRuns s.core && (s.detached || (k.inTransfer && k.preempt != .saved)) &&
  decide (s.lines < dLines s.desc) && (clusterOf s.core == cl)

/-- LINE_DELIVERY (R183). -/
def Chip.lineDelivery (c : Chip) (v : Env) (cl : ClusterId) (n : BitVec 16) : Chip :=
  match c.stream cl n with
  | none => c
  | some s =>
    if !c.canMove cl s then c
    else
      let us := lineUnits s.kind s.desc s.lines
      if dPath s.desc == 4 && s.sender.isNone then
        c.matchReceive cl s
      else if dPath s.desc == 4 then
        let buf := match s.sender with
          | some (x, m) => ((c.stream (BitVec.ofNat 14 x) m).map (·.buf)).getD []
          | none => []
        if buf.length < lineStart s.desc s.lines + us.length * (dGroup s.desc).2 then c else c.deliver v cl s us buf
      else match c.lineMiss cl s us with
        | some (va, write) => c.modStream cl n (fun (s : Stream) => { s with st := .translate (BitVec.ofNat 48 va) write })
        | none => c.deliver v cl s us []

/-- Every line is delivered and every write performed (R366). -/
def Chip.streamComplete (c : Chip) (cl : ClusterId) (s : Stream) : Bool :=
  s.st == .running && decide (dLines s.desc ≤ s.lines) && !(c.cluster cl).outstanding (.stream cl s.serial)

/-- STREAM_END (R185): a sender ends once each target has ended its receive or is missed (R190). -/
def Chip.streamEnd (c : Chip) (cl : ClusterId) (n : BitVec 16) : Chip :=
  match c.stream cl n with
  | none => c
  | some s =>
    let k := c.core s.core
    if !(c.streamComplete cl s) || s.detached || !k.inTransfer then c
    else if s.kind == .multicast && !(s.targets.all (fun t => s.endedTargets.contains t || (s.missed && !s.matched.contains t))) then c
    else c.endStream cl n (if s.missed then stTimeout else if s.poisoned then stFault else stOk)

/-- DETACHED_COPY_END (R188). -/
def Chip.detachedEnd (c : Chip) (v : Env) (cl : ClusterId) (n : BitVec 16) : Chip :=
  match c.stream cl n with
  | none => c
  | some s =>
    if !(c.streamComplete cl s && s.detached) then c
    else ((c.releasePlace s).dropStream cl n).detachedRecord v s (if s.poisoned then stFault else stOk)

/-- PARKED_STREAM_SPILL (R194). -/
def Chip.parkedSpill (c : Chip) (cl : ClusterId) (n : BitVec 16) : Chip :=
  match c.stream cl n with
  | none => c
  | some s =>
    if s.st == .parked && s.place != .spilled && decide (c.mem.spillUse.toNat < c.mem.spillEntries) then
      ({ c with mem := c.mem.spillTake }).modStream cl n (fun (s : Stream) => { s with place := .spilled })
    else c

/-- PARK_LIMIT_EXPIRY (R198). -/
def Chip.parkExpiry (c : Chip) (v : Env) (cl : ClusterId) (n : BitVec 16) : Chip :=
  match c.stream cl n with
  | none => c
  | some s =>
    match c.tenant s.tenant with
    | some t => if s.st == .parked && decide (s.since + t.parkLimit ≤ v.ns) then c.endParked cl n else c
    | none => c

/-- Spilled streams that wait to move, oldest first. -/
def Cluster.waiting (x : Cluster) : List Stream :=
  sortBy (fun a b => decide (a.order ≤ b.order)) (x.streams.filter (fun s => s.place == .spilled &&
    (match s.st with
      | .running => true
      | .translate _ _ => true
      | _ => false)))

def Cluster.setPlace (x : Cluster) (n : BitVec 16) (p : Place) : Cluster :=
  { x with streams := x.streams.map (fun (s : Stream) => if s.serial == n then { s with place := p, turn := 0 } else s) }

/-- SPILL_ROTATION (R193): the stream of context 15 ends its turn after 4 KiB, and the next waiting stream in the cycle takes its place. -/
def Chip.spillRotation (c : Chip) (cl : ClusterId) : Chip :=
  let x := c.cluster cl
  match x.waiting with
  | [] => c
  | w :: ws =>
    match x.streams.find? (fun s => s.place == .hw 15 && !(match s.st with
      | .ended _ => true
      | _ => false)) with
    | some s =>
      if s.st == .parked || decide (4096 ≤ s.turn) then
        let next := ((w :: ws).find? (fun y => decide (s.order < y.order))).getD w
        c.setCluster cl ((x.setPlace s.serial .spilled).setPlace next.serial (.hw 15))
      else c
    | none => ({ c with mem := c.mem.spillFree }).setCluster cl (x.setPlace w.serial (.hw 15))

/-- SPILL_PROMOTION (R193): a free context 0 to 14 takes the oldest waiting stream to stay. -/
def Chip.spillPromotion (c : Chip) (cl : ClusterId) : Chip :=
  let x := c.cluster cl
  match x.waiting, x.freeContexts.filter (fun i => decide (i < 15)) with
  | w :: _, i :: _ => ({ c with mem := c.mem.spillFree }).setCluster cl (x.setPlace w.serial (.hw (BitVec.ofNat 4 i)))
  | _, _ => c

/-- Time in 1/64 ns of a number of microseconds. -/
def usTicks (us : Nat) : Nat := us * 64000

/-- MULTICAST_RECEIVE_TIMEOUT (R190). -/
def Chip.mcRecvTimeout (c : Chip) (v : Env) (cl : ClusterId) (n : BitVec 16) : Chip :=
  match c.stream cl n with
  | none => c
  | some s =>
    let limit := fieldLe s.desc 112 4
    let limit := if limit == 0 then 10000 else limit
    let alive := match s.sender with
      | some (x, m) => (c.stream (BitVec.ofNat 14 x) m).isSome
      | none => (c.findSender cl s).isSome
    if s.kind == .plain && dPath s.desc == 4 && s.st == .running && !alive && decide (s.opened + usTicks limit ≤ v.now) then
      c.endStream cl n stTimeout
    else c

/-- Receives of a sender's targets that have been opened and have met no sender yet. -/
def Chip.seekers (c : Chip) (s : Stream) : List (ClusterId × Stream) :=
  s.targets.flatMap (fun t =>
    ((c.cluster (clusterOf t)).streams.filter (fun r => r.core == t && r.seeks)).map (fun r => (clusterOf t, r)))

/-- MULTICAST_SEND_TIMEOUT (R190): receives that are open take their senders; targets that have opened none are missed. -/
def Chip.mcSendTimeout (c : Chip) (v : Env) (cl : ClusterId) (n : BitVec 16) : Chip :=
  match c.stream cl n with
  | none => c
  | some s =>
    if s.kind == .multicast && s.st == .running && decide (s.opened + usTicks 10000 ≤ v.now) then
      let c := (c.seekers s).foldl (fun (c : Chip) r => c.matchReceive r.1 r.2) c
      match c.stream cl n with
      | none => c
      | some s =>
        if s.targets.all s.matched.contains then c
        else (c.modStream cl n (fun (s : Stream) => { s with missed := true })).streamEnd cl n
    else c

/-- STREAM_PREEMPT_PARK (R199): a running stream of a core that is pre-empted in its transfer phase parks at its next line boundary. -/
def Chip.preemptPark (c : Chip) (cl : ClusterId) (n : BitVec 16) : Chip :=
  match c.stream cl n with
  | none => c
  | some s =>
    if (c.core s.core).preempt == .requested && !s.detached && (match s.st with
      | .running => true
      | .translate _ _ => true
      | _ => false) then c.modStream cl n (fun (s : Stream) => { s with st := .preempted })
    else c

/-- A parked stream resumes (R197). -/
def Chip.resumeStream (c : Chip) (cl : ClusterId) (n : BitVec 16) : Chip :=
  match c.stream cl n with
  | some s => if s.st == .parked then (c.unjoin s.tenant (.stream cl n)).modStream cl n (fun (s : Stream) =>
      { s with st := .running, badPages := [] }) else c
  | none => c

/-! ### The end of a work item (R149, R200) -/

/-- The core goes back to its scheduler: its parked streams end with `FAULT`, without markers or words. -/
def Chip.releaseCore (c : Chip) (id : CoreId) : Chip :=
  let cl := clusterOf id
  let c := (c.coreStreams id).foldl (fun (c : Chip) s =>
    ((if s.settled && s.st != .parked then c else c.releasePlace s).unjoin s.tenant (.stream cl s.serial)).dropStream cl s.serial) c
  let c := match (c.core id).job with
    | some j => c.modJob j (fun (j : Job) => { j with finished := j.finished + 1 })
    | none => c
  c.modCore id (fun k => { k with running := false, job := none, phase := .compute, xferStatus := 0, restorePoint := none })

/-- `END` (R149, R200). -/
def Chip.endItem (c : Chip) (v : Env) (id : CoreId) (w : Fields) : Chip :=
  let settled := (c.coreStreams id).all (·.settled)
  let k := c.core id
  let ready := c.coreRuns id && k.canIssue && !w.bad {} && k.arrayIdle && settled
  let c := c.onCore v id (fun k => k.issueWith (when (w.bad {}) cIllegal) 0 (fun k =>
    if !(k.arrayIdle && settled) then .wait
    else if k.arr.openTile.isSome || !k.tq.isEmpty then .raise cUnfinished
    else .done k))
  if ready && k.arr.openTile.isNone && k.tq.isEmpty then c.releaseCore id else c

end Sys2Proof
end

