-- ==== Sys2Proof/Machine/FabricFlow.lean ====
section
/-! DEFINITION. What ports do in slots: scheduled sends and receipts (R404, R411), forwards (R412 to R415), repair flits (R417), losses
(R418), absent partners (R419), open messages (R420, R503) and sealed channels (R423, R424). -/
namespace Sys2Proof

/-- Scheduled slots of a port are in use: the link is up, the partner is there, neither end is out (R387, R388, R419). -/
def Chip.portOpen (c : Chip) (p : PortId) (linkOut : Bool) : Bool := (c.port p).link == 2 && !(c.port p).absent && !linkOut

/-- The chip sends and accepts scheduled flits (Table 15.6). -/
def Env.scheduling (v : Env) : Bool := v.st == .track || v.st == .locked

/-! ### Sending -/

/-- Position of an entry's engine context among those of its group's operation. -/
def Chip.contextOf (c : Chip) (e : SchedEntry) : Option (Group × CollOp × Nat) :=
  match c.group e.group with
  | none => none
  | some g => match g.op with
    | none => none
    | some op =>
      let k := (BitVec.ofNat 6 e.context.toNat, BitVec.ofNat 8 (bits e.context.toNat 6 8))
      (op.contexts.findIdx? (fun x => x == k)).map (fun i => (g, op, i))

/-- Chunks of a sealed channel that may be sent now (R424): none while 64 wait unacknowledged. -/
def Chip.sealedFull (c : Chip) (g : GroupId) : Bool :=
  match tblFind c.coll.channels g.toNat with
  | some ch => decide (64 ≤ ch.unacked.length)
  | none => false

/-- The next flit of an engine context, with the chip after it (R411, R432). -/
def Chip.nextFlit (c : Chip) (e : SchedEntry) : Option (Flit × Chip) :=
  match c.contextOf e with
  | none => none
  | some (_, op, i) =>
    match op.queue.find? (fun o => o.engine == i) with
    | none => none
    | some o =>
      if o.sent == 0 && c.sealedFull e.group then none
      else match o.flits[o.sent]? with
        | none => none
        | some f =>
          let o1 : OutChunk := { o with sent := o.sent + 1 }
          let whole := decide (o.flits.length ≤ o1.sent)
          let queue := if whole then op.queue.erase o else op.queue.map (fun (y : OutChunk) => if y == o then o1 else y)
          let c := c.modOp e.group (fun (x : CollOp) => { x with queue := queue })
          let c : Chip := if whole && c.sealedGroup e.group then
              { c with coll := { c.coll with channels := tblMod {} c.coll.channels e.group.toNat (fun (ch : Channel) =>
                  { ch with unacked := ch.unacked ++ [{ o with sent := 0 }] }) } }
            else c
          some (f, c)

/-- A scheduled flit goes out: it is kept for repair (R417). -/
def Chip.sendScheduled (c : Chip) (p : PortId) (frame slot : Nat) (f : Flit) : Chip :=
  (c.modPort p (fun x => x.keep frame slot f)).drive p frame slot f

/-- SCHEDULED_SEND (R411): the applying entry's chunk, or an empty flit. A slot that a forward takes is not the entry's (R415). -/
def Chip.scheduledSend (c : Chip) (v : Env) (linkOut : Bool) (p : PortId) (frame slot : Nat) : Chip :=
  let x := c.port p
  if !scheduled slot || x.link != 2 || !v.scheduling then c
  else if x.replay.any (fun s => s.frame == frame && s.slot == slot) then c
  else if x.forwards.any (fun f => f.frame == frame && f.slot == slot) then c
  else if !c.portOpen p linkOut then c.drive p frame slot Flit.empty
  else match x.txEntry frame slot with
    | none => c.drive p frame slot Flit.empty
    | some e =>
      let c := if e.op == 2 then c.poll v e.group else c
      match (if e.op == 2 then c.nextFlit e else none) with
      | some (f, c) => (c.sendScheduled p frame slot f).stampSlot v 0 p frame slot
      | none => (c.drive p frame slot Flit.empty).stampSlot v 2 p frame slot

/-- Some port's receive entry forwards into a slot of an output port (R412). -/
def Chip.forwardDue (c : Chip) (p : PortId) (frame slot : Nat) : Bool :=
  (List.range 64).any (fun i =>
    let q := c.port (BitVec.ofNat 6 i)
    [0, 1].any (fun k => decide (k ≤ frame) && (q.bankAt (frame - k)).rx.any (fun e =>
      e.op == 5 && e.outPort == p && e.outSlot.toNat == slot && e.carry == k && e.applies (frame - k))))

/-- FORWARD_SEND (R412, R414, R415): the flit held for the slot, or kind 2 for one that has not been received. -/
def Chip.forwardSend (c : Chip) (v : Env) (linkOut : Bool) (p : PortId) (frame slot : Nat) : Chip :=
  let x := c.port p
  let held := x.forwards.find? (fun f => f.frame == frame && f.slot == slot)
  if held.isNone && !c.forwardDue p frame slot then c
  else
    let c := c.setPort p { x with forwards := x.forwards.filter (fun f => !(f.frame == frame && f.slot == slot)) }
    if !v.scheduling || !c.portOpen p linkOut then c
    else
      let f := match held with
        | some h => h.flit.getD Flit.damaged
        | none => Flit.damaged
      let c := if (x.txEntry frame slot).isSome then c.modPort p (fun (y : Port) => { y with collide := satInc y.collide 1 }) else c
      (c.sendScheduled p frame slot f).stampSlot v 6 p frame slot

/-! ### Receiving -/

/-- A flit, or its absence, waits for its output slot (R412); at an absent output port it is dropped (R419). -/
def Chip.holdForward (c : Chip) (e : SchedEntry) (frame : Nat) (f : Option Flit) : Chip :=
  c.modPort e.outPort (fun (x : Port) =>
    if x.absent then { x with collide := satInc x.collide 1 }
    else { x with forwards := x.forwards ++ [{ frame := frame + e.carry, slot := e.outSlot.toNat, flit := f }] })

/-- Flits of a chunk gather; the answer is the whole chunk's payload (R401). -/
def Port.gather (p : Port) (e : SchedEntry) (f : Flit) : Port × Option (List Byte) :=
  let same (q : Part) : Bool := q.entry.op == e.op && q.entry.group == e.group && q.entry.context == e.context && q.chunk == f.chunk
  let old := (p.parts.find? same).getD { entry := e, chunk := f.chunk, count := f.count.toNat + 1, flits := [] }
  let flits := (f.flit.toNat, f) :: old.flits.filter (fun q => q.1 != f.flit.toNat)
  let rest := p.parts.filter (fun q => !same q)
  if (List.range old.count).all (fun i => flits.any (fun q => q.1 == i)) then
    ({ p with parts := rest },
     some ((List.range old.count).flatMap (fun i => ((flits.find? (fun q => q.1 == i)).map (fun q => slice q.2.payload 0 240)).getD [])))
  else ({ p with parts := rest ++ [{ old with flits := flits }] }, none)

/-- The stream that serves a receive entry (Table 16.4). -/
def Chip.entryStream (c : Chip) (e : SchedEntry) : Option (ClusterId × Stream) :=
  let cl : ClusterId := BitVec.ofNat 14 (bits e.context.toNat 4 14)
  ((c.cluster cl).streams.find? (fun s => s.place == .hw (BitVec.ofNat 4 e.context.toNat) && (match s.st with
    | .ended _ => false
    | _ => true))).map (fun s => (cl, s))

/-- The chip to which a sealed channel's acknowledgements go: its predecessor in a ring, the root of a broadcast (log 28). -/
def sealedSource (g : Group) : Nat :=
  let i := match g.op with
    | some op => if op.kind == 4 then op.root else (g.rank + g.n - 1) % g.n
    | none => (g.rank + g.n - 1) % g.n
  (nth 0 g.members i).toNat

/-- An open message of a sealed channel (R424, Table 20.15). -/
def Chip.sealedMessage (c : Chip) (v : Env) (gid : GroupId) (type : Nat) (chunk : W32) : Chip :=
  match c.group gid with
  | none => c
  | some g => c.openSend v .sealed (sealedSource g) 0xFF false (openPrefix c.cmd.chip.toNat type 0 gid.toNat chunk.toNat) none

def Chip.modChannel (c : Chip) (g : GroupId) (f : Channel → Channel) : Chip :=
  match tblFind c.coll.channels g.toNat with
  | some ch => { c with coll := { c.coll with channels := tblSet c.coll.channels g.toNat (f ch) } }
  | none => c

/-- A whole chunk of a collective entry: the final receiver of a sealed channel checks its CRC (R424). -/
def Chip.chunkWhole (c : Chip) (v : Env) (p : PortId) (e : SchedEntry) (number : W32) (bs : List Byte) : Chip :=
  if (c.contextOf e).isNone then c
  else if c.sealedGroup e.group then
    let n := bs.length - 4
    if (crc32c (bs.take n)).toNat == fieldLe bs n 4 then
      (c.modChannel e.group (fun (ch : Channel) => { ch with accepted := ch.accepted ++ [number] })).deliverChunk v e.group p bs
    else (c.modPort p (fun (x : Port) => { x with e2e := satInc x.e2e 1 })).sealedMessage v e.group 3 number
  else c.deliverChunk v e.group p bs

/-- A data flit that has arrived whole in a receive slot, at once or by repair. -/
def Chip.placeFlit (c : Chip) (v : Env) (p : PortId) (frame slot : Nat) (f : Flit) (repaired : Bool) : Chip :=
  match (c.port p).rxEntry frame slot with
  | none => c.modPort p (fun (x : Port) => { x with unsched := satInc x.unsched 1 })
  | some e =>
    if e.op == 5 then
      if repaired then
        let out : Flit := { f with kind := 6, tag := BitVec.ofNat 32 ((frame + e.carry) % 2 ^ 20 + 2 ^ 20 * e.outSlot.toNat) }
        c.modPort e.outPort (fun (x : Port) => if x.absent then { x with collide := satInc x.collide 1 }
          else { x with repairs := x.repairs ++ [out] })
      else c.holdForward e frame (some f)
    else
      let r := (c.port p).gather e f
      let c := c.setPort p r.1
      match r.2 with
      | none => c
      | some bs =>
        if e.op == 4 then c.chunkWhole v p e f.chunk bs
        else match c.entryStream e with
          | some (cl, s) => c.modStream cl s.serial (fun (s : Stream) => { s with buf := s.buf ++ bs })
          | none => c

/-- A flit is missing in a receive slot: it waits for repair, and a forward sends kind 2 (R414, R416). -/
def Chip.missFlit (c : Chip) (v : Env) (p : PortId) (frame slot : Nat) : Chip :=
  let c := (c.modPort p (fun x => x.addDamage frame slot)).stampSlot v 3 p frame slot
  match (c.port p).rxEntry frame slot with
  | some e => if e.op == 5 then c.holdForward e frame none else c
  | none => c

/-- Nothing, or an empty flit, has come in a receive slot. -/
def Chip.noFlit (c : Chip) (p : PortId) (frame slot : Nat) : Chip :=
  match (c.port p).rxEntry frame slot with
  | some e => if e.op == 5 then c.holdForward e frame (some Flit.empty) else c
  | none => c

/-- SCHEDULED_RECEIVE (R404, R402, R411). -/
def Chip.scheduledReceive (c : Chip) (v : Env) (linkOut : Bool) (p : PortId) (frame slot : Nat) (a : Arrival) : Chip :=
  if !scheduled slot || (c.port p).link != 2 then c
  else if !c.portOpen p linkOut then c.noFlit p frame slot
  else match receive a with
    | .empty => c.noFlit p frame slot
    | .damagedFec => (c.modPort p (fun x => x.countDamage .damagedFec)).missFlit v p frame slot
    | .damagedLcrc => (c.modPort p (fun x => x.countDamage .damagedLcrc)).missFlit v p frame slot
    | .whole f =>
      if !v.scheduling then c.missFlit v p frame slot
      else if f.kind == 2 then c.missFlit v p frame slot
      else if f.kind == 1 then (c.placeFlit v p frame slot f false).stampSlot v 1 p frame slot
      else c

/-- REPAIR_FLIT_RECEIVE (R417): placed as though it had arrived in its original slot, unless that flit is held whole or lost. -/
def Chip.repairFlitReceive (c : Chip) (v : Env) (p : PortId) (a : Arrival) : Chip :=
  match receive a with
  | .whole f =>
    if f.kind != 6 then c
    else
      let x := c.port p
      match x.damaged.find? (fun d => d.frame % 2 ^ 20 == bits f.tag.toNat 0 20 && d.slot == bits f.tag.toNat 20 12) with
      | none => c
      | some d =>
        (c.setPort p { x with damaged := x.damaged.erase d }).placeFlit v p d.frame d.slot { f with kind := 1, tag := 0 } true
  | .empty => c
  | r => c.modPort p (fun x => x.countDamage r)

/-- FLIT_LOSS (R418): not whole by the end of frame f + 8. -/
def Chip.flitLoss (c : Chip) (v : Env) (p : PortId) (frame slot : Nat) : Chip :=
  let x := c.port p
  match x.damaged.find? (fun d => d.frame == frame && d.slot == slot) with
  | none => c
  | some d =>
    if v.frame ≤ frame + 8 then c
    else
      let c := (c.setPort p { x with damaged := x.damaged.erase d, lost := satInc x.lost 1 }).stampSlot v 5 p frame slot
      match x.rxEntry frame slot with
      | none => c
      | some e =>
        let same (q : Part) : Bool := q.entry.op == e.op && q.entry.group == e.group && q.entry.context == e.context
        let c := match x.parts.find? same with
          | some q => c.modPort p (fun (y : Port) => { y with parts := y.parts.erase q })
          | none => c
        if e.op == 3 then
          (match c.entryStream e with
            | some (cl, s) => c.endParked cl s.serial
            | none => c)
        else if e.op == 4 then
          (match c.contextOf e with
            | some (_, _, i) => c.collLoss v e.group i
            | none => c)
        else c

/-! ### Absent partners (R419) -/

/-- Groups that a port's active bank receives. -/
def Port.groups (p : Port) : List GroupId :=
  ((p.bankAt p.swapFrame).rx.filterMap (fun e => if e.op == 4 then some e.group else none)).eraseDups

/-- PARTNER_ABSENT (R419, R441), with the `hall.send` packets whose messages it discards. -/
def Chip.partnerAbsent (c : Chip) (v : Env) (p : PortId) : Chip × List (RingId × W32) :=
  let x := c.port p
  if x.missed != 3 || x.absent then (c, [])
  else
    let y : Port := { x with absent := true, forwards := [], waiting := [],
                             collide := satInc x.collide x.forwards.length, openDrop := satInc x.openDrop x.waiting.length }
    let c := (c.setPort p y).stamp v 10 (portStateData p 0)
    (x.groups.foldl (fun (c : Chip) g => c.collAbsent v g) c, x.waiting.filterMap (·.sender))

/-- ABSENT_CLEAR (R419): at the first frame boundary after a whole time flit that carries TRACK or LOCKED. -/
def Chip.absentClear (c : Chip) (v : Env) (p : PortId) (partner : BitVec 3) : Chip :=
  let x := c.port p
  if x.absent && x.missed == 0 && (partner == 2 || partner == 3) then
    (c.setPort p { x with absent := false }).stamp v 11 (portStateData p 0)
  else c

/-! ### Open messages (R420, R503) -/

def Chip.dropOpen (c : Chip) (p : PortId) : Chip := c.modPort p (fun (x : Port) => { x with openDrop := satInc x.openDrop 1 })

/-- Deliver an open message to this chip by its type (R503). -/
def Chip.deliverOpen (c : Chip) (v : Env) (p : PortId) (f : Flit) : Chip :=
  let b := f.payload
  let source := fieldLe b 0 4
  match fieldLe b 4 1 with
  | 0 =>
    let base := c.cmd.openBase
    if base == 0 then c.dropOpen p
    else
      let r := c.ringPut base c.cmd.openRecords
        (leBytes 8 v.ns ++ leBytes 4 source ++ leBytes 1 p.toNat ++ leBytes 3 0 ++ slice b 16 224 ++ leBytes 16 0)
      if r.2 then r.1 else r.1.dropOpen p
  | 1 => c.hallTrigger v (fieldLe b 8 8) (fieldLe b 5 1) (bits source 0 20)
  | 2 => c.modChannel (BitVec.ofNat 12 (fieldLe b 6 2)) (fun (ch : Channel) =>
      { ch with inbox := ch.inbox ++ [(BitVec.ofNat 32 (fieldLe b 8 4), false)] })
  | 3 => c.modChannel (BitVec.ofNat 12 (fieldLe b 6 2)) (fun (ch : Channel) =>
      { ch with inbox := ch.inbox ++ [(BitVec.ofNat 32 (fieldLe b 8 4), true)] })
  | _ => c.dropOpen p

/-- A received whole open message (R420). -/
def Chip.takeOpen (c : Chip) (v : Env) (p : PortId) (f : Flit) : Chip :=
  let next (m : Flit) : OpenMsg :=
    { cls := .transit, flit := { m with tag := openTag m.dest (m.hops - 1) m.flood }, since := v.now }
  if f.flood then
    let key := (BitVec.ofNat 32 (fieldLe f.payload 0 4), f.chunk)
    let seen := c.fab.seen.filter (fun s => decide (v.frame ≤ s.2.2 + 64))
    if seen.any (fun s => s.1 == key.1 && s.2.1 == key.2) then c
    else
      let c : Chip := { c with fab := { c.fab with seen := (key.1, key.2, v.frame) :: seen } }
      let c := c.deliverOpen v p f
      if f.hops == 0 then c.dropOpen p else c.floodOut (some p) (next f)
  else if f.dest == c.cmd.chip.toNat then c.deliverOpen v p f
  else if f.hops == 0 then c.dropOpen p
  else match c.route f.dest with
    | some q => c.openWait q (next f)
    | none => c.dropOpen p

/-- OPEN_MESSAGE_RECEIVE (R420). -/
def Chip.openReceive (c : Chip) (v : Env) (p : PortId) (a : Arrival) : Chip :=
  if (c.port p).link != 2 then c
  else match receive a with
    | .whole f => if f.kind == 5 then c.takeOpen v p f else c
    | .empty => c
    | r => c.modPort p (fun x => x.countDamage r)

/-! ### Sealed channels (R424) -/

/-- SEALED_ACKNOWLEDGEMENT: the chunks accepted since the last one. -/
def Chip.sealedAck (c : Chip) (v : Env) (gid : GroupId) : Chip :=
  match tblFind c.coll.channels gid.toNat with
  | none => c
  | some ch =>
    ch.accepted.foldl (fun (c : Chip) n => c.sealedMessage v gid 2 n)
      (c.modChannel gid (fun (ch : Channel) => { ch with accepted := [] }))

/-- SEALED_RESEND_REQUEST: an acknowledgement that has arrived frees its chunk; a resend request queues it ahead of new chunks. -/
def Chip.sealedInbox (c : Chip) (gid : GroupId) (chunk : W32) (resend : Bool) : Chip :=
  match tblFind c.coll.channels gid.toNat with
  | none => c
  | some ch =>
    if !ch.inbox.contains (chunk, resend) then c
    else
      let mine := ch.unacked.filter (fun o => o.number == chunk)
      let c := c.modChannel gid (fun (ch : Channel) =>
        { ch with inbox := ch.inbox.erase (chunk, resend), unacked := ch.unacked.filter (fun o => o.number != chunk) })
      if resend then c.modOp gid (fun (x : CollOp) => { x with queue := mine ++ x.queue }) else c

end Sys2Proof
end

