-- ==== Sys2Proof/Machine/TimeOps.lean ====
section
/-! DEFINITION. Hall time (R375 to R392): the bound, the states, measurements, corrections, roots and PPS. Times are in 1/64 ns. -/
namespace Sys2Proof

/-! ### Registers (Tables 15.2, 15.5, 15.7, 15.8) -/

def HtCfg.word (c : HtCfg) : W64 :=
  BitVec.ofNat 64 (c.hold.toNat * 2 ^ 48 + c.rootBound.toNat * 2 ^ 40 + c.domain.toNat * 2 ^ 32 + c.secondary.toNat * 2 ^ 26 +
    c.primary.toNat * 2 ^ 20 + 4 * b2n c.secEn + 2 * b2n c.priEn + b2n c.root)

def HtCfg.ofWord (w : W64) : HtCfg :=
  let n := w.toNat
  { hold := BitVec.ofNat 16 (bits n 48 16), rootBound := BitVec.ofNat 8 (bits n 40 8), domain := BitVec.ofNat 8 (bits n 32 8),
    secondary := BitVec.ofNat 6 (bits n 26 6), primary := BitVec.ofNat 6 (bits n 20 6), secEn := bitAt n 2, priEn := bitAt n 1,
    root := bitAt n 0 }

/-- A write changes what waits for a frame boundary (R380). -/
def HtCfg.moves (a b : HtCfg) : Bool :=
  a.root != b.root || a.primary != b.primary || a.secondary != b.secondary || a.priEn != b.priEn || a.secEn != b.secEn

/-- A write of HT_CFG (R380): a DOMAIN above 127 is ignored as a whole. -/
def HtRegs.writeCfg (r : HtRegs) (w : W64) : HtRegs :=
  let c := HtCfg.ofWord w
  if 127 < c.domain.toNat then r
  else if r.cfg.moves c then { r with waiting := some c }
  else { r with cfg := c, waiting := none }

/-- A frame boundary: the write that waits takes effect. -/
def HtRegs.boundary (r : HtRegs) : HtRegs :=
  match r.waiting with
  | some c => { r with cfg := c, waiting := none }
  | none => r

def HtPps.word (p : HtPps) : W64 :=
  BitVec.ofNat 64 (p.outOffset.toNat * 2 ^ 34 + p.inOffset.toNat * 16 + 4 * b2n p.inFall + 2 * b2n p.inEn + b2n p.outEn)

/-- A write of HT_PPS (Table 15.8): an offset above 999,999,999 is ignored. -/
def HtRegs.writePps (r : HtRegs) (w : W64) : HtRegs :=
  let n := w.toNat
  let o := bits n 34 30
  let i := bits n 4 30
  { r with pps :=
      { outOffset := if o < 1000000000 then BitVec.ofNat 30 o else r.pps.outOffset
        inOffset := if i < 1000000000 then BitVec.ofNat 30 i else r.pps.inOffset
        inFall := bitAt n 2, inEn := bitAt n 1, outEn := bitAt n 0 } }

def HallTime.link (t : HallTime) (p : PortId) : HtLink := tblGet {} t.links p.toNat
def HallTime.modLink (t : HallTime) (p : PortId) (f : HtLink → HtLink) : HallTime :=
  { t with links := tblMod {} t.links p.toNat f }

/-- The link's scheduled slots are out (R387, R388): the partner advertises OUT, or its offset is past the guard. -/
def HtLink.out (l : HtLink) : Bool := l.partnerOut || l.upState == 1

def HtLink.word (l : HtLink) : W64 :=
  BitVec.ofNat 64 (l.delay.toNat * 2 ^ 44 + l.asym.toNat * 2 ^ 16 + l.uncert.toNat * 2 ^ 8 + 2 * b2n l.out + b2n l.valid)

/-! ### The bound (R385) -/

def HallTime.ns (t : HallTime) : Nat := t.ht.toNat / 64

/-- Growth of the bound in holdover, rounded up: HOLD is in 1/16 ppb. -/
def holdGrowth (hold dt : Nat) : Nat := ceilDiv (hold * dt) 16000000000

/-- e, in 1/64 ns; a chip with no time base shows the largest. -/
def HallTime.e (t : HallTime) (r : HtRegs) : Nat :=
  match t.src with
  | .none => 0xFFFF
  | .pps => r.cfg.rootBound.toNat
  | .link p => let l := t.link p; l.upBound.toNat + 2 + l.uncert.toNat + t.corr.natAbs
  | .holdover e0 since => e0 + holdGrowth r.cfg.hold.toNat (t.ht.toNat - since)
  | .interim e0 since _ => e0 + holdGrowth r.cfg.hold.toNat (t.ht.toNat - since)

/-- E = e + 1 ns. -/
def HallTime.bound (t : HallTime) (r : HtRegs) : Nat := t.e r + 64

def HallTime.holdover (t : HallTime) : Bool := match t.src with
  | .holdover _ _ => true
  | _ => false

/-- HT_STATUS (Table 15.7). -/
def HallTime.status (t : HallTime) (r : HtRegs) : W64 :=
  BitVec.ofNat 64 (min (t.bound r) 0xFFFF * 2 ^ 48 + t.offset.toNat * 2 ^ 32 + t.active.toNat * 2 ^ 26 + t.hops.toNat * 2 ^ 16 +
    128 * b2n t.slewing + 64 * b2n t.stepped + 32 * b2n t.ppsLost + 16 * b2n t.holdover + 8 * b2n r.cfg.root + timeCode t.st)

/-! ### The tree (R378, R379) -/

/-- A link is usable (R378). -/
def HtLink.usable (l : HtLink) : Bool := (l.upState == 3 || l.upRoot) && l.valid && decide (l.upBound.toNat ≤ 64)

/-- The link that the chip follows: the primary while it is usable, else the secondary. -/
def HallTime.preferred (t : HallTime) (r : HtRegs) : Option PortId :=
  if r.cfg.root then none
  else if r.cfg.priEn && (t.link r.cfg.primary).usable then some r.cfg.primary
  else if r.cfg.secEn && (t.link r.cfg.secondary).usable then some r.cfg.secondary
  else none

/-- A link stops being usable while the other is: until the boundary e grows at HOLD (R379). -/
def HallTime.noteLoss (t : HallTime) (r : HtRegs) : HallTime :=
  match t.src, t.preferred r with
  | .link p, some q => if !(t.link p).usable then { t with src := .interim (t.e r) t.ht.toNat q } else t
  | _, _ => t

/-- UPSTREAM_SWITCH (R379): at a frame boundary; HT does not step. -/
def HallTime.upstreamSwitch (t : HallTime) (r : HtRegs) : Option (HallTime × PortId) :=
  match t.src, t.preferred r with
  | .link p, some q => if p != q then
      some ({ t with src := .link q, active := q, corr := (t.link q).offset, slewing := decide ((t.link q).offset ≠ 0) }, q) else none
  | .interim _ _ _, some q =>
    some ({ t with src := .link q, active := q, corr := (t.link q).offset, slewing := decide ((t.link q).offset ≠ 0) }, q)
  | _, _ => none

/-- HOLDOVER_ENTRY (R379): the last usable link is lost. -/
def HallTime.holdoverEntry (t : HallTime) (r : HtRegs) : HallTime :=
  match t.src with
  | .link _ => if (t.preferred r).isNone then { t with src := .holdover (t.e r) t.ht.toNat } else t
  | .interim e0 since _ => if (t.preferred r).isNone then { t with src := .holdover e0 since } else t
  | _ => t

/-- HOLDOVER_EXIT (R379): a usable link, at the next frame boundary. -/
def HallTime.holdoverExit (t : HallTime) (r : HtRegs) : HallTime :=
  match t.src, t.preferred r with
  | .holdover _ _, some q =>
    { t with src := .link q, active := q, corr := (t.link q).offset, slewing := decide ((t.link q).offset ≠ 0) }
  | _, _ => t

/-! ### Corrections (R390) -/

/-- An offset c = local - reference is corrected: a forward step in UNSET and OUT when behind by more than 1 µs, else a slew. -/
def HallTime.correct (t : HallTime) (c : Int) : HallTime :=
  if (t.st == .unset || t.st == .out) && decide (c < -64000) then
    { t with ht := BitVec.ofNat 70 (min (t.ht.toNat + c.natAbs) (2 ^ 70 - 1)), corr := 0, slewing := false, stepped := true }
  else { t with corr := c, slewing := decide (c ≠ 0) }

/-- SLEW_COMPLETE (R390). -/
def HallTime.slewComplete (t : HallTime) : HallTime :=
  if t.slewing && t.corr == 0 then { t with slewing := false, slewed := 0 } else t

/-- Slew limit by state, in ppm. -/
def slewPpm : TimeState → Nat
  | .track => 10
  | .locked => 10
  | _ => 1000

/-- The counter advances by `dt`, slewing the correction in progress; it holds at its end (R375, R390, R549). -/
def HallTime.advance (t : HallTime) (dt : Nat) : HallTime :=
  let acc := t.slewed + (if t.corr == 0 then 0 else dt * slewPpm t.st)
  let k := min (acc / 1000000) t.corr.natAbs
  let step := if 0 < t.corr then dt - k else dt + k
  { t with ht := BitVec.ofNat 70 (min (t.ht.toNat + step) (2 ^ 70 - 1))
           corr := if 0 < t.corr then t.corr - k else t.corr + k
           slewed := if t.corr == 0 then 0 else acc % 1000000 }

/-! ### Time flits (R382, R384, R388) -/

/-- What slot 0 of a frame carries (R382). -/
def HallTime.flitOf (t : HallTime) (r : HtRegs) (p : PortId) : SentTime :=
  let f := frameOf t.ht.toNat
  let up := match t.src with
    | .link q => q == p
    | _ => false
  { origin := t.ht.toNat, bound := BitVec.ofNat 16 (min (t.e r) 0xFFFF), state := t.st, root := r.cfg.root, holdover := t.holdover,
    frame := BitVec.ofNat 48 f, sync := !up, announce := f % 1024 == 0 }

/-- TIME_FLIT_SEND (R382): in every state but UNSET. -/
def HallTime.timeFlitSend (t : HallTime) (r : HtRegs) (p : PortId) (up : Bool) : HallTime :=
  if t.st == .unset || !up then t else t.modLink p (fun (l : HtLink) => { l with lastSent := some (t.flitOf r p) })

/-- The median of up to 8 means: of an even number the lower of the middle two (log 29). -/
def medianOf (xs : List Int) : Int :=
  let s := sortBy (fun a b => decide (a ≤ b)) xs
  nth 0 s ((s.length - 1) / 2)

/-- A peer-delay exchange (R384): a measurement more than 2 ns from DELAY is discarded. -/
def HtLink.measureDelay (l : HtLink) (x : DelayExchange) : HtLink :=
  let mean : Int := (((x.t2 : Int) - x.t1) + ((x.t4 : Int) - x.t3)) / 2
  let m := mean + l.asym.toInt
  if l.valid && decide (128 < (m - (l.delay.toNat : Int)).natAbs) then { l with missed := l.missed + 1 }
  else
    let means := (m.toNat :: (if l.valid then l.means else [])).take 8
    let d := medianOf (means.map (fun (n : Nat) => (n : Int)))
    { l with means := means, delay := BitVec.ofNat 20 d.toNat, valid := true, missed := 0 }

/-- The offset of a partner's time flit (R388): past 6 ns PARTNER_OUT is set at once. -/
def HtLink.measureOffset (l : HtLink) (f : TimeFlit) (frame : Nat) : HtLink :=
  let o : Int := (f.arrival : Int) - f.origin - l.delay.toNat
  let l := { l with offset := o, measured := some frame }
  if 384 < o.natAbs then { l with partnerOut := true, goodSince := false }
  else if o.natAbs < 128 then { l with goodSince := true }
  else l

/-- A whole time flit at a port: the partner's advertised values, the delay and the offset. -/
def HtLink.take (l : HtLink) (f : TimeFlit) (frame : Nat) : HtLink :=
  let l := { l with upBound := f.bound, upState := f.state, upRoot := f.root, upHold := f.holdover, missing := 0, heard := some frame }
  let l := match f.announce with
    | some a => { l with upHops := a.2 }
    | none => l
  let l := match f.delay with
    | some x => l.measureDelay x
    | none => { l with missed := l.missed + 1 }
  if l.valid then l.measureOffset f frame else l

/-- OFFSET of HT_STATUS, saturating. -/
def satOffset (c : Int) : W16 := BitVec.ofInt 16 (max (-32768) (min 32767 c))

/-- The upstream's time flit corrects local HT; the first one acquires it (R378, R386, R390). -/
def HallTime.follow (t : HallTime) (r : HtRegs) (p : PortId) : HallTime :=
  let l := t.link p
  let first := t.st == .unset && t.preferred r == some p
  let t := if first then { t with src := .link p, active := p } else t
  match t.src with
  | .link q =>
    if q == p && l.valid && l.measured == some (frameOf t.ht.toNat) then
      let u := { t with offset := satOffset l.offset, hops := l.upHops + 1 }.correct l.offset
      if first then { u with st := .out } else u
    else t
  | _ => t

/-- TIME_FLIT_RECEIVE in hall time (R384, R388). -/
def HallTime.timeFlitReceive (t : HallTime) (r : HtRegs) (refclk : Bool) (p : PortId) (a : TimeArrival) : HallTime :=
  match a with
  | .flit f =>
    if f.foreignOption then t.modLink p (fun (l : HtLink) => { l with missing := 0, missed := l.missed + 1 })
    else
      let t1 := t.modLink p (fun l => l.take f (frameOf t.ht.toNat))
      let t2 := if refclk || t.st != .unset then t1.follow r p else t1
      t2.noteLoss r
  | _ => t.modLink p (fun (l : HtLink) => { l with missing := l.missing + 1, missed := l.missed + 1 })

/-- PARTNER_OUT_CLEAR (R388). -/
def HallTime.partnerOutClear (t : HallTime) (p : PortId) : HallTime :=
  t.modLink p (fun (l : HtLink) => if l.partnerOut && l.goodSince then { l with partnerOut := false, goodSince := false } else l)

/-- DELAY_VALID_EXPIRY (R384). -/
def HallTime.delayExpiry (t : HallTime) (r : HtRegs) (p : PortId) : HallTime :=
  if 16 ≤ (t.link p).missed && (t.link p).valid then
    (t.modLink p (fun (l : HtLink) => { l with valid := false, means := [] })).noteLoss r
  else t

/-! ### States (R386, R387) -/

/-- A root with PPS lock counts as LOCKED. -/
def HallTime.rootLock (t : HallTime) (r : HtRegs) : Bool := r.cfg.root && t.src == .pps

/-- The count stands at its end (R549). -/
def HallTime.ended (t : HallTime) : Bool := t.ht == BitVec.allOnes 70

def HallTime.enterOut (t : HallTime) (r : HtRegs) : HallTime :=
  if (t.st == .track || t.st == .locked) && !t.rootLock r && decide (384 < t.bound r) then { t with st := .out, ppsOut := false } else t

def HallTime.enterTrack (t : HallTime) (r : HtRegs) : HallTime :=
  if t.st == .locked && !t.rootLock r && decide (128 < t.bound r) && decide (t.bound r ≤ 384) then { t with st := .track } else t

def HallTime.enterLocked (t : HallTime) (r : HtRegs) : HallTime :=
  if (t.st == .track || t.st == .out) && (decide (t.bound r < 128) || t.rootLock r) && !t.ended then { t with st := .locked } else t

/-- HT_END (R549). -/
def HallTime.htEnd (t : HallTime) : HallTime := if t.ended then { t with st := .out, ppsOut := false } else t

/-! ### PPS (R391, R392) -/

def secondUnits : Nat := 64000000000

/-- `hall.time` names the second of the next edge: only a root in UNSET or OUT takes it. -/
def HallTime.name (t : HallTime) (r : HtRegs) (n : Nat) : HallTime :=
  let root := match r.waiting with
    | some c => c.root
    | none => r.cfg.root
  if root && (t.st == .unset || t.st == .out) then { t with named := some n, edges := 0 } else t

/-- Offset of local HT from the nearest instant congruent to IN_OFFSET. -/
def ppsOffset (ht offset : Nat) : Int :=
  let d := (ht + secondUnits - offset * 64 % secondUnits) % secondUnits
  if 2 * d < secondUnits then d else (d : Int) - secondUnits

/-- PPS_IN_EDGE (R391), with whether the edge is accepted. -/
def HallTime.ppsEdge (t : HallTime) (r : HtRegs) (refclk rising : Bool) : HallTime × Bool :=
  if !r.cfg.root || !r.pps.inEn || rising == r.pps.inFall || !refclk then (t, false)
  else match t.named with
    | some n =>
      let target := (n * 1000000000 + r.pps.inOffset.toNat) * 64
      let t1 := ({ t with st := if t.st == .unset then .out else t.st } : HallTime).correct ((t.ht.toNat : Int) - target)
      ({ t1 with named := none, edges := 1, lastEdge := some t1.ht.toNat, ppsLost := false }, true)
    | none =>
      let d := ppsOffset t.ht.toNat r.pps.inOffset.toNat
      if t.edges == 0 || decide (6400 < d.natAbs) then (t, false)
      else
        let t1 := t.correct d
        ({ t1 with edges := t.edges + 1, lastEdge := some t1.ht.toNat, ppsLost := false, src := .pps, hops := 0 }, true)

/-- PPS_LOST (R391): 1.5 s without an accepted edge. -/
def HallTime.loseTick (t : HallTime) (r : HtRegs) : HallTime :=
  match t.lastEdge with
  | some e =>
    if r.cfg.root && !t.ppsLost && decide (e + 96000000000 ≤ t.ht.toNat) then
      { t with ppsLost := true, src := .holdover (t.e r) t.ht.toNat }
    else t
  | none => t

/-- PPS_OUT_EDGE (R392, R564): a rising edge at each instant congruent to OUT_OFFSET within the last 10 ns, and low again 1 ms later. -/
def HallTime.ppsOutEdge (t : HallTime) (r : HtRegs) (rising : Bool) : HallTime :=
  if rising then
    let d := (t.ht.toNat + secondUnits - r.pps.outOffset.toNat * 64 % secondUnits) % secondUnits
    if r.pps.outEn && (t.st == .track || t.st == .locked) && !t.ppsOut && decide (d < 640) then
      { t with ppsOut := true, ppsRose := t.ht.toNat - d }
    else t
  else if t.ppsOut && decide (t.ppsRose + 64000000 ≤ t.ht.toNat) then { t with ppsOut := false }
  else t

/-! ### Reads (R11, R376, R502) -/

/-- Number of a master in the latches of HT_FRAC. -/
def Master.num : Master → Nat
  | .manager => 0
  | .cocoon => 1
  | .debug => 2
  | .app a => 3 + a.toNat

/-- HT_NOW_READ (R502). -/
def HallTime.readNow (t : HallTime) (m : Master) : HallTime × W64 :=
  ({ t with frac := tblSet t.frac m.num (BitVec.ofNat 6 t.ht.toNat) }, BitVec.ofNat 64 t.ns)
def HallTime.readFrac (t : HallTime) (m : Master) : W64 := (tblGet 0 t.frac m.num).setWidth 64

/-! ### Barriers (R393 to R397) -/

/-- Cores that wait on an entry. -/
def Chip.barWaiting (c : Chip) (e : BitVec 12) : Nat :=
  c.cores.countP (fun p => p.2.hold == Hold.barw e false)

/-- An entry is released, and with it the cores of its tenant that wait on it, saved ones too (R165, R394, R395,
R397). -/
def Chip.releaseBarrier (c : Chip) (v : Env) (e : BitVec 12) (late : Bool) : Chip :=
  let b := c.barrier e
  let c := c.setBarrier e { b with st := .released, generation := b.generation + 1, late := late, unlocked := v.st != .locked }
  let c := { c with cores := c.cores.map (fun (p : Nat × Core) =>
    if p.2.hold == Hold.barw e false && p.2.tenant.isSome && p.2.tenant == b.owner then (p.1, { p.2 with hold := .barw e true }) else p) }
  let free (s : SavedCore) : SavedCore :=
    if s.core.hold == Hold.barw e false then { s with core := { s.core with hold := .barw e true } } else s
  let c : Chip := { c with jobs := tblMap c.jobs (fun _ (j : Job) =>
    if some j.tenant == b.owner then { j with saved := tblMap j.saved (fun _ s => free s) } else j) }
  c.stamp v 24 e.toNat

/-- BARRIER_INSTANT_RELEASE (R394): not in UNSET (R397). -/
def Chip.barrierInstant (c : Chip) (v : Env) (e : BitVec 12) : Chip :=
  let b := c.barrier e
  if b.st == .armed && decide (b.instant.toNat ≤ v.ns) && v.st != .unset then c.releaseBarrier v e false else c

/-- A forward step that passes armed instants releases their entries, late (R394). -/
def Chip.stepBarriers (c : Chip) (v : Env) (before : Nat) : Chip :=
  c.barriers.foldl (fun (c : Chip) (p : Nat × Barrier) =>
    if p.2.st == .armed && decide (before < p.2.instant.toNat) && decide (p.2.instant.toNat ≤ v.ns) && v.st != .unset then
      c.releaseBarrier v (BitVec.ofNat 12 p.1) true else c) c

/-- The bytes of an entry (Table 15.9). -/
def Chip.barrierBytes (c : Chip) (e : BitVec 12) : List Byte :=
  let b := c.barrier e
  leBytes 8 b.instant.toNat ++ leBytes 2 b.generation.toNat ++
  leBytes 2 (b.tenant.toNat + 2 ^ 15 * b2n b.claimed) ++
  leBytes 1 (match b.st with
    | .idle => 0
    | .armed => 1
    | .released => 2) ++
  leBytes 1 (b2n b.late + 2 * b2n b.unlocked) ++ leBytes 2 (min (c.barWaiting e) 0xFFFF)

/-- `BARW` may issue without waiting: the entry is the core's tenant's, and released; or its armed instant has come in the sector replica (R394,
R395). -/
def Chip.barrierOpen (c : Chip) (v : Env) (k : Core) (e : BitVec 12) : Bool :=
  let b := c.barrier e
  k.tenant.isSome && b.owner == k.tenant &&
  (b.st == .released || (b.st == .armed && decide (b.instant.toNat ≤ v.ns) && v.st != .unset))

/-- BARW_RELEASE (R396): cores of a sector that wait on the entry go on. -/
def Chip.barwRelease (c : Chip) (v : Env) (sec : SectorId) (e : BitVec 12) : Chip :=
  { c with cores := c.cores.map (fun (p : Nat × Core) =>
      let id : CoreId := BitVec.ofNat 20 p.1
      if sectorOf id == sec && c.coreRuns id &&
          (p.2.hold == Hold.barw e true || (p.2.hold == Hold.barw e false && c.barrierOpen v p.2 e)) then
        (p.1, { p.2 with hold := .none, pc := p.2.pc + 1 }) else p) }

/-- WAITHT_RELEASE (R396): local HT has reached the value. -/
def Chip.waithtRelease (c : Chip) (v : Env) (id : CoreId) : Chip :=
  match (c.core id).hold with
  | .waitht t =>
    if c.coreRuns id && decide (t.toNat ≤ v.ns) then c.modCore id (fun (k : Core) => { k with hold := .none, pc := k.pc + 1 }) else c
  | _ => c

end Sys2Proof
end

