-- ==== Sys2Proof/Machine/Ops.lean ====
section
/-! DEFINITION. How a command's effect on a part of the state becomes its effect on the whole. Every meaning is one of these
operations over an operation on the chip or on hall time. -/
namespace Sys2Proof.Machine

/-- What an event reads of time. -/
def State.env (s : State) : Env :=
  { ht := s.time.ht.toNat, now := s.now, e := s.time.e s.htRegs, st := s.time.st,
    status := s.time.status s.htRegs, fresh := s.fresh }

/-- An effect on the chip. -/
def State.onChip (s : State) (f : Chip → Chip) : State := { s with chip := f s.chip }

/-- An effect on one core, while its clocks run. -/
def State.onCore (s : State) (id : CoreId) (f : Core → Core) : State := s.onChip (fun c => c.onCore s.env id f)

/-- An effect on hall time. -/
def State.onTime (s : State) (f : HallTime → HtRegs → HallTime) : State := { s with time := f s.time s.htRegs }

/-- The link of a port is out of the time tree (R387). -/
def State.linkOut (s : State) (p : PortId) : Bool := (s.time.link p).out

/-- A command that goes on with a next state. -/
abbrev Out := Host.Outcome State Fault Refusal

end Sys2Proof.Machine
end

