-- ==== Sys2Proof/Machine/ExecArray.lean ====
section
/-! DEFINITION. Meanings of the events of a core's array (chapters 03 and 04). -/
namespace Sys2Proof.Machine

/-- PASS_START (R91). -/
def execPassStart (c : CoreId) (par : ParityHit) (s : State) : Out :=
  .next (s.onCore c (fun k => k.passStart par))

/-- PRODUCT_ENTRY (R62). -/
def execProductEntry (c : CoreId) (dryRows dryCols : BitVec 4) (par : ParityHit) (s : State) : Out :=
  .next (s.onCore c (fun k => k.productEntry dryRows dryCols par))

/-- OVERFLOW_REPEAT (R66). -/
def execOverflowRepeat (c : CoreId) (s : State) : Out :=
  .next (s.onCore c (fun k => k.overflowRepeat))

/-- DEFERRED_SWAP (R72). -/
def execDeferredSwap (c : CoreId) (s : State) : Out :=
  .next (s.onCore c (fun k => k.deferredSwap))

/-- DRAIN_READ (R72). -/
def execDrainRead (c : CoreId) (held : BitVec 4) (par : ParityHit) (s : State) : Out :=
  .next (s.onCore c (fun k => k.drainReadEvent held par))

/-- DRAIN_OUTPUT (R77). -/
def execDrainOutput (c : CoreId) (s : State) : Out :=
  .next (s.onCore c (fun k => k.drainOutputEvent))

/-- PARITY_RESTART (R113). -/
def execParityRestart (c : CoreId) (s : State) : Out :=
  .next (s.onCore c (fun k => k.parityRestart))

end Sys2Proof.Machine
end

