-- ==== Sys2Proof/Machine/Cmd.lean ====
section
/-! DEFINITION. Rings, packets, class queues and replies (R481 to R494). -/
namespace Sys2Proof

/-! ### Rings -/

def Ring.csize (r : Ring) : Nat := 2 ^ r.clog.toNat
def Ring.rsize (r : Ring) : Nat := 2 ^ r.rlog.toNat
/-- STALLED (R484): no reply slot is free. -/
def Ring.stalled (r : Ring) : Bool := r.enabled && decide (r.rsize ≤ (r.rhead - r.rtail).toNat)

def Chip.ring (c : Chip) (n : RingId) : Ring := tblGet {} c.cmd.rings n.toNat
def Chip.modRing (c : Chip) (n : RingId) (f : Ring → Ring) : Chip :=
  { c with cmd := { c.cmd with rings := tblSet c.cmd.rings n.toNat (f (c.ring n)) } }

/-- The tenant of a ring; none for the owner's (R481). -/
def ringTenant (n : RingId) : Option TenantId := if n.toNat < 16 then none else some (BitVec.ofNat 12 (n.toNat - 16))
def tenantRing (t : TenantId) : RingId := BitVec.ofNat 13 (t.toNat + 16)

/-- A write of TAIL, the doorbell (R483). -/
def Ring.doorbell (r : Ring) (v : W32) : Ring :=
  if !r.enabled then r
  else if r.csize < (v - r.head).toNat then { r with overrun := true }
  else { r with tail := v }

/-- A write of CBASE (Table 20.2); a BASE that is not 256-byte aligned is ignored (log 35). -/
def Ring.writeCbase (r : Ring) (w : W64) : Ring :=
  let n := w.toNat
  let log := bits n 1 4
  let on := bitAt n 0
  if r.enabled then { r with enabled := on }
  else
    let r := { r with
      cbase := if bitAt n 7 then r.cbase else BitVec.ofNat 45 (bits n 7 45)
      clog := if 4 ≤ log && log ≤ 12 then BitVec.ofNat 4 log else r.clog }
    if on then { r with enabled := true, tail := 0, head := 0, rtail := 0, rhead := 0 } else r

/-- A write of RBASE (Table 20.2). -/
def Ring.writeRbase (r : Ring) (w : W64) : Ring :=
  let n := w.toNat
  let log := bits n 1 4
  if r.enabled then r
  else { r with rbase := BitVec.ofNat 45 (bits n 7 45), rlog := if 4 ≤ log && log ≤ 12 then BitVec.ofNat 4 log else r.rlog }

def Ring.cbaseWord (r : Ring) : W64 := BitVec.ofNat 64 (r.cbase.toNat * 128 + r.clog.toNat * 2 + b2n r.enabled)
def Ring.rbaseWord (r : Ring) : W64 := BitVec.ofNat 64 (r.rbase.toNat * 128 + r.rlog.toNat * 2)
def Ring.statWord (r : Ring) : W64 :=
  BitVec.ofNat 64 (r.dropped.toNat * 2 ^ 32 + 4 * b2n r.stalled + 2 * b2n r.overrun + b2n r.enabled)

/-! ### Packets (Table 20.3) -/

def Pkt.n (k : Pkt) (off len : Nat) : Nat := fieldLe k.bytes off len
def Pkt.op (k : Pkt) : Nat := k.n 0 2
def Pkt.tag (k : Pkt) : Nat := k.n 2 2
def Pkt.tenant (k : Pkt) : TenantId := BitVec.ofNat 12 (k.n 6 2)
def Pkt.ordered (k : Pkt) : Bool := bitAt (k.n 4 1) 0
/-- The tenant whose virtual addresses the packet's addresses are; none on an owner ring, whose addresses are physical. -/
def Pkt.space (k : Pkt) : Option TenantId := ringTenant k.ring

/-- A row of Table 20.6: opcode, class, level, and the parameter bytes in use. -/
structure OpRow where
  code : Nat
  cls : QClass
  owner : Bool
  used : List (Nat × Nat)

def opRowsLow : List OpRow := [
  ⟨0x0000, .q0, false, []⟩, ⟨0x0001, .q0, false, []⟩, ⟨0x0002, .q3, false, [(32, 48)]⟩, ⟨0x0003, .q0, false, [(32, 2)]⟩,
  ⟨0x0004, .q2, true, [(32, 10), (48, 20)]⟩, ⟨0x0005, .q2, true, [(32, 1)]⟩, ⟨0x0006, .c, true, []⟩,
  ⟨0x0100, .q2, true, [(32, 8)]⟩, ⟨0x0101, .q2, true, [(32, 2)]⟩, ⟨0x0102, .q2, false, [(32, 3), (36, 12)]⟩,
  ⟨0x0103, .q0, true, [(32, 2)]⟩,
  ⟨0x0200, .q2, false, [(32, 18), (56, 8)]⟩, ⟨0x0201, .q1, false, [(32, 3), (36, 2), (40, 14), (56, 20)]⟩,
  ⟨0x0202, .q1, false, [(32, 3), (36, 20)]⟩, ⟨0x0203, .q1, false, [(32, 4)]⟩, ⟨0x0204, .q1, false, [(32, 4)]⟩,
  ⟨0x0205, .q1, false, [(32, 2)]⟩,
  ⟨0x0300, .q2, false, [(32, 10)]⟩, ⟨0x0301, .q0, false, [(32, 4)]⟩, ⟨0x0302, .q0, false, [(32, 4)]⟩,
  ⟨0x0303, .q2, false, [(32, 16)]⟩, ⟨0x0304, .q0, false, [(32, 3), (36, 4)]⟩, ⟨0x0305, .q2, false, [(32, 9), (48, 8)]⟩,
  ⟨0x0306, .q2, false, [(32, 2)]⟩]

def opRowsMid : List OpRow := [
  ⟨0x0400, .c, true, [(32, 24)]⟩, ⟨0x0401, .q0, false, [(32, 3), (40, 8)]⟩, ⟨0x0402, .q1, true, [(32, 24)]⟩,
  ⟨0x0403, .q2, true, [(32, 3)]⟩, ⟨0x0404, .q2, true, [(32, 8)]⟩, ⟨0x0405, .q0, true, [(32, 6), (40, 8)]⟩,
  ⟨0x0406, .q0, true, [(32, 2)]⟩,
  ⟨0x0500, .q2, false, [(32, 8)]⟩, ⟨0x0501, .q2, false, [(32, 2)]⟩, ⟨0x0502, .q1, false, [(32, 2), (40, 8)]⟩,
  ⟨0x0503, .q0, false, [(32, 2)]⟩,
  ⟨0x0600, .q2, false, [(32, 2), (40, 12)]⟩, ⟨0x0601, .q1, false, [(32, 2), (40, 24)]⟩, ⟨0x0602, .q0, false, [(32, 2)]⟩,
  ⟨0x0700, .q3, false, [(32, 2), (40, 16)]⟩, ⟨0x0701, .q3, false, [(40, 9), (50, 14)]⟩, ⟨0x0702, .q3, false, [(40, 8)]⟩,
  ⟨0x0703, .q3, false, [(32, 2), (40, 8)]⟩,
  ⟨0x0800, .q2, false, [(32, 2), (40, 12), (56, 8)]⟩, ⟨0x0801, .q3, false, [(40, 20)]⟩]

def opRowsHigh : List OpRow := [
  ⟨0x0900, .c, true, []⟩, ⟨0x0901, .q2, true, [(32, 3), (36, 36)]⟩,
  ⟨0x0A00, .q0, true, [(32, 8)]⟩, ⟨0x0A01, .q2, true, [(32, 16)]⟩, ⟨0x0A02, .q2, true, [(32, 2)]⟩,
  ⟨0x0B00, .q2, true, [(32, 36)]⟩, ⟨0x0B01, .q3, true, [(32, 1), (36, 4)]⟩, ⟨0x0B02, .q0, true, [(32, 3)]⟩,
  ⟨0x0F00, .q3, true, [(32, 9), (48, 8)]⟩, ⟨0x0F01, .q2, true, [(32, 5)]⟩, ⟨0x0F02, .q3, true, [(32, 8)]⟩]

/-- Table 20.6. -/
def opRows : List OpRow := opRowsLow ++ opRowsMid ++ opRowsHigh

def opRow (code : Nat) : Option OpRow := opRows.find? (fun r => r.code == code)

/-- A parameter whose reserved values leave no row of the command (Table 20.6): the operations of `hall.barrier`, `hall.channel`,
`memory.stream` and `debug.service`, the kind of `device.reset`, the field of `repair.fuse`. -/
def subBad (code : Nat) (bs : List Byte) : Bool :=
  match code with
  | 0x0401 => decide (4 < fieldLe bs 34 1)
  | 0x0403 => decide (1 < fieldLe bs 34 1)
  | 0x0304 => decide (1 < fieldLe bs 34 1)
  | 0x0F01 => decide (1 < fieldLe bs 36 1)
  | 0x0005 => decide (2 < fieldLe bs 32 1)
  | 0x0A02 => decide (1 < fieldLe bs 32 1)
  | _ => false

/-- Bytes 32 to 255 that no parameter uses are zero. -/
def paramsClear (used : List (Nat × Nat)) (bs : List Byte) : Bool :=
  (List.range 224).all (fun i => nth 0 bs (32 + i) == 0 || used.any (fun u => decide (u.1 ≤ 32 + i) && decide (32 + i < u.1 + u.2)))

/-- The header's own rules: version, reserved fields, alignment of the reply buffer, and none of it in a datagram (R485, R487). -/
def headerBad (bs : List Byte) (peer : Bool) : Bool :=
  fieldLe bs 5 1 != 1 || bits (fieldLe bs 4 1) 1 7 != 0 || bits (fieldLe bs 6 2) 12 4 != 0 || !zeroBytes bs 20 12 ||
  fieldLe bs 8 8 % 64 != 0 || (peer && fieldLe bs 8 8 != 0)

/-- The check before queueing (R487): a refusal, or the packet's class. -/
def packetCheck (ring : RingId) (bs : List Byte) (peer : Bool) : Nat × QClass :=
  if headerBad bs peer then (stBadParam, .q0)
  else match opRow (fieldLe bs 0 2) with
    | none => (stBadOpcode, .q0)
    | some r =>
      if !paramsClear r.used bs || subBad r.code bs then (stBadParam, r.cls)
      else match ringTenant ring with
        | none => (stOk, r.cls)
        | some t => if fieldLe bs 6 2 != t.toNat || r.owner then (stDenied, r.cls) else (stOk, r.cls)

/-! ### Replies (Table 20.4) -/

/-- A reply: status, retry-after, body from byte 32 on, and reply data. -/
structure Reply where
  status : Nat
  hint : Nat := 0
  body : List Byte := []
  data : List Byte := []

/-- The retry-after hint of a `BUSY` of the firmware (log 34). -/
def busyHint (k : Pkt) : Nat := max 1 (Config.busyHint k.index.toNat).toNat
def Pkt.busy (k : Pkt) : Reply := { status := stBusy, hint := busyHint k }

def replyBytes (k : Pkt) (r : Reply) (time : Nat) : List Byte :=
  slice k.bytes 0 4 ++ leBytes 2 r.status ++ leBytes 2 0 ++ leBytes 4 r.hint ++ leBytes 4 r.data.length ++ leBytes 8 time ++
  leBytes 4 k.index.toNat ++ leBytes 4 0 ++ slice r.body 0 96

/-- Write the replies of a ring that wait while slots are free; RHEAD is written last (R484, R488). -/
def Chip.flushReplies (c : Chip) (v : Env) (n : RingId) : Nat → Chip
  | 0 => c
  | fuel + 1 =>
    let r := c.ring n
    match r.unsent with
    | [] => c
    | b :: rest =>
      if r.rsize ≤ (r.rhead - r.rtail).toNat then c
      else
        let bytes := b.take 16 ++ leBytes 8 v.ns ++ b.drop 24
        let c := c.store (r.rbase.toNat * 128 + 128 * (r.rhead.toNat % r.rsize)) bytes
        Chip.flushReplies (c.modRing n (fun (x : Ring) => { x with rhead := x.rhead + 1, unsent := rest })) v n fuel

/-- One reply: its data to the reply buffer, as much as fits, then its 128 bytes, or a datagram to the peer (R485, R488). -/
def Chip.putReply (c : Chip) (v : Env) (k : Pkt) (r : Reply) : Chip :=
  let buf := k.n 8 8
  let c := if buf != 0 then c.awrite k.space buf (r.data.take (k.n 16 4)) else c
  match k.peer with
  | some _ => { c with cmd := { c.cmd with datagram := replyBytes k r v.ns ++ r.data.take 16384 } }
  | none =>
    let c := c.modRing k.ring (fun (x : Ring) => { x with unsent := x.unsent ++ [replyBytes k r v.ns] })
    c.flushReplies v k.ring (c.ring k.ring).unsent.length

/-! ### Class queues (R489 to R491) -/

def QClass.depth : QClass → Nat
  | .c => 16
  | .q0 => 64
  | .q1 => 64
  | .q2 => 32
  | .q3 => 16

def QClass.ringDepth : QClass → Nat
  | .c => 2
  | .q0 => 8
  | .q1 => 8
  | .q2 => 4
  | .q3 => 2

/-- Entries queued in a class (Table 20.14). -/
def Chip.queued (c : Chip) (q : QClass) : Nat := c.cmd.queue.countP (fun k => k.cls == q && !k.blocked)

/-- The class queue, or the ring's part of it, is full (R490). -/
def Chip.classFull (c : Chip) (k : Pkt) : Bool :=
  decide (k.cls.depth ≤ c.queued k.cls) ||
  decide (k.cls.ringDepth ≤ c.cmd.queue.countP (fun x => x.cls == k.cls && !x.blocked && x.ring == k.ring))

/-- A packet of the ring that came before `k` has not been replied to (R491). -/
def Chip.earlierOpen (c : Chip) (k : Pkt) : Bool :=
  !(c.ring k.ring).unsent.isEmpty ||
  (c.cmd.queue ++ c.cmd.waiting).any (fun x => x.ring == k.ring && decide (0 < (k.index - x.index).toInt))

/-- Ordered packets that nothing holds back any more are queued in their place, or answered `BUSY` (R490, R491). -/
def Chip.unblock (c : Chip) (v : Env) (n : RingId) : Nat → Chip
  | 0 => c
  | fuel + 1 =>
    match c.cmd.queue.find? (fun k => k.ring == n && k.blocked && !c.earlierOpen k) with
    | none => c
    | some k =>
      if c.classFull k then
        Chip.unblock (({ c with cmd := { c.cmd with queue := c.cmd.queue.erase k } }).putReply v k k.busy) v n fuel
      else
        let f (x : Pkt) : Pkt := if x == k then { x with blocked := false, since := v.now } else x
        Chip.unblock { c with cmd := { c.cmd with queue := c.cmd.queue.map f } } v n fuel

/-- A reply, and what waited for it. -/
def Chip.reply (c : Chip) (v : Env) (k : Pkt) (r : Reply) : Chip := (c.putReply v k r).unblock v k.ring 4096

/-- A write of RTAIL: replies that wait find slots (R484). -/
def Chip.writeRtail (c : Chip) (v : Env) (n : RingId) (x : W32) : Chip :=
  let c := c.modRing n (fun (r : Ring) => { r with rtail := x })
  (c.flushReplies v n (c.ring n).unsent.length).unblock v n 4096

/-- The management pair runs firmware (R524, R540, R543). -/
def Chip.pairRuns (c : Chip) : Bool :=
  c.sys.ended.getLsbD 1 && !c.sys.mpLost && c.sys.pairStarting.isNone && !c.sys.failQuiet

/-- Firmware, or the cocoon controller in its place, reads a packet of a class (R540, R543). -/
def Chip.mayRead (c : Chip) (q : QClass) : Bool :=
  c.sys.ended.getLsbD 1 && !c.sys.failQuiet && (c.sys.mpLost || c.sys.pairStarting.isNone || q == .c)

/-- The family is served before READY (R525). -/
def earlyFamily (ring : RingId) (op : Nat) : Bool :=
  (ringTenant ring).isNone && (op / 256 == 0x00 || op / 256 == 0x04 || op / 256 == 0x0A)

/-- A packet that has passed its checks: answered, held back, refused for room, or queued. -/
def Chip.enqueue (c : Chip) (v : Env) (k : Pkt) : Chip :=
  if !c.sys.ready && !earlyFamily k.ring k.op then c.reply v k k.busy
  else if k.ordered && c.earlierOpen k then { c with cmd := { c.cmd with queue := c.cmd.queue ++ [{ k with blocked := true }] } }
  else if c.classFull k then c.reply v k k.busy
  else { c with cmd := { c.cmd with queue := c.cmd.queue ++ [k] } }

/-- PACKET_READ (R483, R484, R487). -/
def Chip.packetRead (c : Chip) (v : Env) (n : RingId) : Chip :=
  let r := c.ring n
  if !decide (n.toNat < 4112) || !r.enabled || r.head == r.tail || r.stalled then c
  else
    let a := r.cbase.toNat * 128 + 256 * (r.head.toNat % r.csize)
    let bs := c.load a 256
    let net := c.cmd.net.find? (fun x => x.ring == n && x.index == r.head)
    let ck := packetCheck n bs net.isSome
    if !c.mayRead ck.2 then c
    else
      let c1 := c.modRing n (fun (x : Ring) => { x with head := x.head + 1 })
      let c1 := { c1 with cmd := { c1.cmd with net := c1.cmd.net.filter (fun x => !(x.ring == n && x.index == r.head)) } }
      if c.mem.poisonIn a 256 || !c.mem.populated a then c1.modRing n (fun (x : Ring) => { x with dropped := satInc x.dropped 1 })
      else
        let k : Pkt := { ring := n, index := r.head, bytes := bs, cls := ck.2, since := v.now, peer := net.map (fun x => (x.mac, x.udp)) }
        if c.sys.mpLost && k.cls != .c then c1.reply v k { status := stAbsent }
        else if ck.1 != stOk then c1.reply v k { status := ck.1 } else c1.enqueue v k

/-- MANAGEMENT_DATAGRAM (R485): from a listed peer, into ring 0 or the tenant's ring. -/
def Chip.datagramIn (c : Chip) (mac : BitVec 48) (udp : W16) (bs : List Byte) : Chip :=
  let drop := c.modRing 0 (fun (x : Ring) => { x with dropped := satInc x.dropped 1 })
  let ring : Option RingId :=
    if c.cmd.peers.contains (mac, udp) then some 0
    else (c.tenants.find? (fun p => !p.2.onApps && p.2.peerMac == mac && p.2.peerUdp == udp)).map (fun p => BitVec.ofNat 13 (16 + p.1))
  if !c.pairRuns then c
  else match ring with
    | none => drop
    | some n =>
      let r := c.ring n
      if bs.length != 256 || !r.enabled then drop
      else if r.csize ≤ (r.tail - r.head).toNat then c.modRing n (fun (x : Ring) => { x with overrun := true })
      else
        let c := c.store (r.cbase.toNat * 128 + 256 * (r.tail.toNat % r.csize)) bs
        let c := c.modRing n (fun (x : Ring) => { x with tail := x.tail + 1 })
        { c with cmd := { c.cmd with net := c.cmd.net ++ [{ ring := n, index := r.tail, mac := mac, udp := udp }] } }

/-- QUEUE_AGING (R489): 1 ms in its queue. -/
def Chip.queueAging (c : Chip) (v : Env) (p : PktRef) : Chip :=
  let f (k : Pkt) : Pkt :=
    if k.ring == p.ring && k.index == p.index && k.cls != .c && !k.blocked && decide (k.since + 64000000 ≤ v.now) then
      { k with aged := true } else k
  { c with cmd := { c.cmd with queue := c.cmd.queue.map f } }

/-- Packets that may be taken: no packet of the same ring and class is held back before them (R491). -/
def eligible : List Pkt → List Pkt → List Pkt
  | _, [] => []
  | before, k :: ks =>
    let rest := eligible (k :: before) ks
    if k.blocked || before.any (fun b => b.blocked && b.ring == k.ring && b.cls == k.cls) then rest else k :: rest

/-- The packet that the management processor takes next: the oldest aged one, else the lowest class (R489). -/
def Chip.nextPkt (c : Chip) : Option Pkt :=
  let es := (eligible [] c.cmd.queue).filter (fun k => k.cls != .c)
  match es.find? (·.aged) with
  | some k => some k
  | none => [QClass.q0, .q1, .q2, .q3].findSome? (fun q => es.find? (fun k => k.cls == q))

/-- A packet is the next of its server. -/
def Chip.isNext (c : Chip) (k : Pkt) : Bool :=
  if k.cls == .c then ((eligible [] c.cmd.queue).find? (fun x => x.cls == .c)) == some k && !c.sys.failQuiet
  else c.pairRuns && c.nextPkt == some k

/-- Take a packet of an opcode from its queue. -/
def Chip.takePkt (c : Chip) (p : PktRef) (op : Nat) (sub : Pkt → Bool) : Option (Pkt × Chip) :=
  match c.cmd.queue.find? (fun k => k.ring == p.ring && k.index == p.index && k.op == op && sub k) with
  | none => none
  | some k => if c.isNext k then some (k, { c with cmd := { c.cmd with queue := c.cmd.queue.erase k } }) else none

/-- Commands that hold an outstanding entry until their reply (R493). -/
def opWaits (op : Nat) : Bool :=
  op == 0x0202 || op == 0x0601 || op == 0x0402 || op == 0x0203 || op == 0x0303 || op == 0x0405 || op / 256 == 0x07

/-- Run a command: its body answers the chip after it and its reply, or none when the packet waits. -/
def Chip.command (c : Chip) (v : Env) (p : PktRef) (op : Nat) (sub : Pkt → Bool) (body : Chip → Pkt → Chip × Option Reply) : Chip :=
  match c.takePkt p op sub with
  | none => c
  | some (k, c1) =>
    if opWaits op && decide (1024 ≤ c1.cmd.waiting.length) then c1.reply v k k.busy
    else match body c1 k with
      | (c2, some r) => c2.reply v k r
      | (c2, none) => { c2 with cmd := { c2.cmd with waiting := c2.cmd.waiting ++ [k] } }

/-- Run a command that replies at once. -/
def Chip.commandNow (c : Chip) (v : Env) (p : PktRef) (op : Nat) (sub : Pkt → Bool) (body : Chip → Pkt → Chip × Reply) : Chip :=
  c.command v p op sub (fun c k => let r := body c k; (r.1, some r.2))

/-- A packet whose byte at an offset names an operation. -/
def subAt (off val : Nat) (k : Pkt) : Bool := k.n off 1 == val

/-- A command with one operation. -/
def anySub (_ : Pkt) : Bool := true

/-- Reply to the packets that wait and that a test selects. -/
def Chip.finishWaiting (c : Chip) (v : Env) (sel : Pkt → Bool) (r : Reply) : Chip :=
  (c.cmd.waiting.filter sel).foldl (fun (c : Chip) k =>
    ({ c with cmd := { c.cmd with waiting := c.cmd.waiting.erase k } }).reply v k r) c

/-! ### Objects that commands name -/

def ok : Reply := { status := stOk }
def refuse (st : Nat) : Reply := { status := st }
/-- A `BUSY` that waits on a condition with no expected time (R490). -/
def busy0 : Reply := { status := stBusy }
/-- Microseconds, rounded up, to an instant of HT in ns. -/
def usTo (v : Env) (t : Nat) : Nat := ceilDiv (t - v.ns) 1000

/-- The job that a packet names: unknown is `BAD_PARAM`, another tenant's, on a tenant ring, `DENIED` (R353). -/
def Chip.jobOf (c : Chip) (k : Pkt) (h : Nat) : Except Nat (JobId × Job) :=
  if 4096 ≤ h then .error stBadParam
  else match c.job (BitVec.ofNat 12 h) with
    | none => .error stBadParam
    | some j => if j.tenant == k.tenant || k.space.isNone then .ok (BitVec.ofNat 12 h, j) else .error stDenied

/-- The group that a packet names. -/
def Chip.groupOf (c : Chip) (k : Pkt) (h : Nat) : Except Nat (GroupId × Group) :=
  if 4096 ≤ h then .error stBadParam
  else match c.group (BitVec.ofNat 12 h) with
    | none => .error stBadParam
    | some g => if g.tenant == k.tenant || k.space.isNone then .ok (BitVec.ofNat 12 h, g) else .error stDenied

/-- An instant of HT within one second of its end (R549), that second included. -/
def nearEnd (t : Nat) : Bool := decide (2 ^ 64 - 1 - 1000000000 ≤ t)

end Sys2Proof
end

