-- ==== Sys2Proof/Machine/CoreOps.lean ====
section
/-! DEFINITION. Instructions that read more than their core: bucket selection (R172), generators (R69, R131), time and barriers (R376,
R395, R396), and the walk of a descriptor (R136 to R140). -/
namespace Sys2Proof

/-! ### Bucket selection (R172) -/

/-- The dimensions of a core's image. -/
def Chip.coreDims (c : Chip) (id : CoreId) : List Dimension :=
  match ((c.core id).job.bind c.job).map (fun (j : Job) => j.image.dims) with
  | some ds => ds
  | none => []

/-- Smallest bucket at or above a size. -/
def Dimension.bucket (d : Dimension) (v : W32) : Option Nat := d.sizes.findIdx? (fun b => decide (v.toNat ≤ b.toNat))

/-- `BSEL` (R172). -/
def Core.bsel (k : Core) (dims : List Dimension) (w : Fields) : Core :=
  k.seqWith (when (w.bad { d := true, a := true, b := true, imm := 3 }) cIllegal) (fun k =>
    match dims[w.imm.toNat % 4]? with
    | none => .raise cBucket
    | some d =>
      match d.bucket (k.reg w.a) with
      | none => .raise cBucket
      | some i => .done ((k.setReg w.d (nth 0 d.sizes i)).setReg w.b (BitVec.ofNat 32 i)))

/-! ### Generators (R69, R131) -/

def Core.vseed (k : Core) (w : Fields) : Core :=
  k.seedOp w false false (fun k a => { k with lanes := loadGens k.scratch a })
def Core.vseedSt (k : Core) (w : Fields) : Core :=
  k.seedOp w true false (fun k a => { k with scratch := k.scratch.write a (genBytes k.lanes) })
def Core.cseed (k : Core) (w : Fields) : Core :=
  k.seedOp w false true (fun k a =>
    { k with arr := { k.arr with
        cells := k.arr.cells.zipIdx.map (fun (p : Cell × Nat) => { p.1 with lfsr := nth 1 (loadGens k.scratch a) p.2 }) } })
def Core.cseedSt (k : Core) (w : Fields) : Core :=
  k.seedOp w true true (fun k a => { k with scratch := k.scratch.write a (genBytes (k.arr.cells.map (·.lfsr))) })

/-! ### Time (R376, R395, R396) -/

/-- An instruction that holds the core unless it goes on at once. -/
def Core.holdWith (k : Core) (causes : List Nat) (go : Bool) (h : Hold) : Core :=
  k.issueWith (causes ++ when (k.pc == 2047) cInstrBounds) 0 (fun k =>
    .done (if go then { k with pc := k.pc + 1 } else { k with hold := h }))

/-- `HTRD` latches the upper half; `HTRD.H` returns it. -/
def Core.htrd (k : Core) (v : Env) (upper : Bool) (w : Fields) : Core :=
  k.seq (when (w.bad { d := true, mod := 1 } || bitAt w.mod.toNat 0 != upper) cIllegal) (fun k =>
    if upper then k.setReg w.d k.htHi
    else ({ k with htHi := BitVec.ofNat 32 (v.ns / 2 ^ 32) } : Core).setReg w.d (BitVec.ofNat 32 v.ns))

/-- `WAITHT`: goes on at once when the instant has passed. -/
def Core.waitht (k : Core) (v : Env) (w : Fields) : Core :=
  let t := k.regN w.b * 2 ^ 32 + k.regN w.a
  k.holdWith (when (w.bad { a := true, b := true }) cIllegal) (decide (t ≤ v.ns)) (.waitht (BitVec.ofNat 64 t))

/-- `BARW` (R395). -/
def Chip.barw (c : Chip) (v : Env) (id : CoreId) (w : Fields) : Chip :=
  let e := w.imm.setWidth 12
  let go := c.barrierOpen v (c.core id) e
  c.onCore v id (fun k => k.holdWith (when (w.bad { imm := 0xFFF }) cIllegal) go (.barw e false))

/-! ### Descriptor mode (R136 to R140) -/

def vdOp (d : List Byte) : Nat := fieldLe d 8 1
def vdFmt (d : List Byte) : Fmt := (Fmt.ofCode (bits (fieldLe d 9 1) 0 4)).getD .fp32
def vdSpace (d : List Byte) : Nat := bits (fieldLe d 9 1) 4 4
def vdBase (d : List Byte) : Nat := bits (fieldLe d 0 8) 0 52
def vdCount (d : List Byte) (k : Nat) : Nat := fieldLe d (16 + 4 * k) 4
def vdStride (d : List Byte) (k : Nat) : Int := signedOf 32 (fieldLe d (32 + 4 * k) 4)
def vdOperand (d : List Byte) : Nat := fieldLe d 48 8
def vdResult (d : List Byte) : Nat := fieldLe d 56 2
def vdTotal (d : List Byte) : Nat := vdCount d 0 * vdCount d 1 * vdCount d 2 * vdCount d 3

/-- A reserved code, field or space (R138). -/
def vdBad (d : List Byte) : Bool :=
  vdOp d == 0 || decide (9 < vdOp d) || decide (8 < bits (fieldLe d 9 1) 0 4) || decide (3 < vdSpace d) ||
  bits (fieldLe d 0 8) 52 12 != 0 || !zeroBytes d 10 6 || !zeroBytes d 44 4 || !zeroBytes d 58 6

/-- Bit address of element `e` of the walk from a base, dimension 0 innermost (R137). -/
def vdBit (d : List Byte) (base e : Nat) : Int :=
  let i0 := e % vdCount d 0
  let r := e / vdCount d 0
  let i1 := r % vdCount d 1
  let r := r / vdCount d 1
  8 * ((base : Int) + vdStride d 0 * i1 + vdStride d 1 * (r % vdCount d 2 : Nat) + vdStride d 2 * (r / vdCount d 2 : Nat)) +
    (i0 * (vdFmt d).width : Nat)

/-- A byte address lies in a space: 4 KiB of scratchpad, the 64 KiB array of the cluster cache, 16 KiB of instruction store, populated
memory (Table 05.4). -/
def Chip.inSpace (c : Chip) (space : Nat) (a : Int) : Bool :=
  decide (0 ≤ a) && (match space with
    | 0 => decide (a < 4096)
    | 1 => decide (a < 65536)
    | 2 => decide (a < 16384)
    | _ => c.mem.populated a.toNat)

/-- The bytes of a space as a core's engine sees them. -/
def Chip.spaceMem (c : Chip) (id : CoreId) (space : Nat) : Memory :=
  match space with
  | 0 => (c.core id).scratch
  | 1 => (c.cluster (clusterOf id)).cacheMem
  | 2 => (c.cluster (clusterOf id)).store
  | _ => c.mem.bytes

/-- A write of a byte to a space; a write to the cache's array drops the lines that it held (log 30). -/
def Chip.spacePut (c : Chip) (id : CoreId) (space a : Nat) (b : Byte) : Chip :=
  match space with
  | 0 => c.modCore id (fun (k : Core) => { k with scratch := k.scratch.set a b })
  | 1 => c.modCluster (clusterOf id) (fun (x : Cluster) => { x with cacheMem := x.cacheMem.set a b, cache := [] })
  | 2 => c.modCluster (clusterOf id) (fun (x : Cluster) => { x with store := x.store.set a b })
  | _ => c.store a [b]

/-- Bytes that an element of `width` bits at a bit address covers. -/
def coveredBytes (bit : Int) (width : Nat) : List Int :=
  let lo := bit / 8
  (List.range (((bit + width - 1) / 8 - lo).toNat + 1)).map (fun (i : Nat) => lo + i)

/-- Read an element. -/
def Chip.spaceElem (c : Chip) (id : CoreId) (space : Nat) (bit : Int) (width : Nat) : Nat :=
  let m := c.spaceMem id space
  bits (ofLe ((coveredBytes bit width).map (fun a => m.get a.toNat))) (bit % 8).toNat width

/-- Write an element. -/
def Chip.spaceWrite (c : Chip) (id : CoreId) (space : Nat) (bit : Int) (width x : Nat) : Chip :=
  let m := c.spaceMem id space
  let as := coveredBytes bit width
  let old := ofLe (as.map (fun a => m.get a.toNat))
  let sh := (bit % 8).toNat
  let new := old - bits old sh width * 2 ^ sh + x % 2 ^ width * 2 ^ sh
  (as.zip (leBytes as.length new)).foldl (fun (c : Chip) p => c.spacePut id space p.1.toNat p.2) c

/-- Every byte of an element lies in its space. -/
def Chip.elemInside (c : Chip) (space : Nat) (bit : Int) (width : Nat) : Bool :=
  (coveredBytes bit width).all (c.inSpace space)

/-- Element `e` of a 64-bit pattern stream; `word k` is its 64-bit word k. -/
def streamElem (word : Nat → Nat) (e width : Nat) : Nat :=
  let b := e * width
  bits (word (b / 64) + word (b / 64 + 1) * 2 ^ 64) (b % 64) width

/-- The pattern of operations 1 to 4: the constant, or the states of the generator from the seed on (log 31). -/
def vdPattern (d : List Byte) (e : Nat) : Nat :=
  let word (k : Nat) : Nat :=
    if vdOp d == 1 || vdOp d == 3 then vdOperand d else (lfsrSteps k (BitVec.ofNat 64 (vdOperand d))).toNat
  streamElem word e (vdFmt d).width

/-- Elements that the walk reaches before it leaves its space; a copy must stay inside with both bases (R138). -/
def Chip.vdReached (c : Chip) (d : List Byte) : Nat :=
  let inside (e : Nat) : Bool :=
    c.elemInside (vdSpace d) (vdBit d (vdBase d) e) (vdFmt d).width &&
    (vdOp d != 7 || c.elemInside (vdSpace d) (vdBit d (vdOperand d) e) (vdFmt d).width)
  ((List.range (vdTotal d)).find? (fun e => !inside e)).getD (vdTotal d)

/-- Addresses of a list that element `e` covers. -/
def vdCovers (d : List Byte) (l : List Nat) (e : Nat) : List Nat :=
  l.filter (fun a => (coveredBytes (vdBit d (vdBase d) e) (vdFmt d).width).contains (a : Int))

/-- The memory after a walk of `n` elements. -/
def Chip.vdEffect (c : Chip) (id : CoreId) (d : List Byte) (n : Nat) : Chip :=
  let w := (vdFmt d).width
  let sp := vdSpace d
  match vdOp d with
  | 1 => (List.range n).foldl (fun (c : Chip) e => c.spaceWrite id sp (vdBit d (vdBase d) e) w (vdPattern d e)) c
  | 2 => (List.range n).foldl (fun (c : Chip) e => c.spaceWrite id sp (vdBit d (vdBase d) e) w (vdPattern d e)) c
  | 5 => (List.range n).foldl (fun (c : Chip) e => c.spaceWrite id sp (vdBit d (vdBase d) e) w 0) c
  | 7 => (List.range n).foldl (fun (c : Chip) e =>
      c.spaceWrite id sp (vdBit d (vdOperand d) e) w (c.spaceElem id sp (vdBit d (vdBase d) e) w)) c
  | _ => c

/-- Elements that differ: by contents in a check (R139), by what the memory fails to hold in a march. -/
def Chip.vdFailing (c : Chip) (id : CoreId) (d : List Byte) (f : WalkFindings) (n : Nat) : List Nat :=
  let w := (vdFmt d).width
  match vdOp d with
  | 3 => (List.range n).filter (fun e => c.spaceElem id (vdSpace d) (vdBit d (vdBase d) e) w != vdPattern d e)
  | 4 => (List.range n).filter (fun e => c.spaceElem id (vdSpace d) (vdBit d (vdBase d) e) w != vdPattern d e)
  | 5 => (List.range n).filter (fun e => !(vdCovers d f.failing e).isEmpty)
  | _ => []

/-- The bytes of a walk in its order, for operation 8. -/
def Chip.vdBytes (c : Chip) (id : CoreId) (d : List Byte) (n : Nat) : List Byte :=
  let w := (vdFmt d).width
  leBytes (ceilDiv (n * w) 8)
    (packBits w ((List.range n).map (fun e => c.spaceElem id (vdSpace d) (vdBit d (vdBase d) e) w)))

/-- The result record (Table 05.6). -/
def vdRecord (status mismatches first corrected uncorrectable crc elements : Nat) : List Byte :=
  leBytes 1 status ++ leBytes 3 0 ++ leBytes 4 (min mismatches (2 ^ 32 - 1)) ++ leBytes 8 first ++ leBytes 4 corrected ++
  leBytes 4 uncorrectable ++ leBytes 4 crc ++ leBytes 4 elements

/-- The walk: its effect, then its record (R138, R139). -/
def Chip.vdWalk (c : Chip) (id : CoreId) (d : List Byte) (f : WalkFindings) : Chip :=
  let put (c : Chip) (r : List Byte) : Chip :=
    c.modCore id (fun (k : Core) => { k with scratch := k.scratch.write (vdResult d) r })
  if vdBad d then put c (vdRecord 3 0 0 0 0 0 0)
  else
    let n := c.vdReached d
    let failing := c.vdFailing id d f n
    let scrub := vdOp d == 6
    let bad := if scrub then ((List.range n).flatMap (vdCovers d f.uncorrectable)).eraseDups else []
    let fixed := if scrub then ((List.range n).flatMap (vdCovers d f.corrected)).eraseDups else []
    let misses := if vdOp d == 9 then f.badPasses else failing.length
    let first := match bad, failing with
      | a :: _, _ => a
      | [], e :: _ => (vdBit d (vdBase d) e / 8).toNat
      | [], [] => 0
    let crc := if vdOp d == 8 then (crcFrom 0x82F63B78#32 (~~~(BitVec.ofNat 32 (vdOperand d))) (c.vdBytes id d n)).toNat else 0
    let status := if n < vdTotal d then 4 else if !bad.isEmpty then 2 else if misses != 0 then 1 else 0
    put (c.vdEffect id d n) (vdRecord status misses first fixed.length bad.length crc n)

/-- `VDESC` (R136): the walk begins; it counts for admission outside the scratchpad (R140). -/
def Chip.vdesc (c : Chip) (v : Env) (id : CoreId) (w : Fields) : Chip :=
  let full := decide (c.admission (clusterOf id) ≤ ((coresOf (clusterOf id)).filter (fun i => (c.core i).inAdmission)).length)
  c.onCore v id (fun k =>
    let a := k.regN w.a
    let d := k.scratch.read a 64
    let res := (vdResult d, 32)
    let causes := when (!k.service || w.bad { a := true }) cIllegal ++
      when (outOfScratch (a, 64) || outOfScratch res) cBounds ++ when (vdResult d % 32 != 0) cAlign
    if vdSpace d != 0 && full && causes.isEmpty then k
    else k.holdWith causes false (.walk (BitVec.ofNat 12 a)))

/-- DESCRIPTOR_WALK_END (R139). -/
def Chip.descriptorWalkEnd (c : Chip) (id : CoreId) (f : WalkFindings) : Chip :=
  match (c.core id).hold with
  | .walk a =>
    if c.coreRuns id then
      (c.vdWalk id ((c.core id).scratch.read a.toNat 64) f).modCore id (fun (k : Core) => { k with hold := .none, pc := k.pc + 1 })
    else c
  | _ => c

end Sys2Proof
end

