-- ==== Sys2Proof/Machine/JobOps.lean ====
section
/-! DEFINITION. Work items and their cores: hand-over (R106, R169, R171), pre-emption and the context area (R110 to R112, R141, R165,
R166, R199), cores taken out of service and spares (R164, R531 to R536). -/
namespace Sys2Proof

/-! ### Jobs and their cores -/

/-- Clusters of a job by job cluster index (R169). -/
def Job.clusters (j : Job) : List ClusterId := j.quads.flatMap clustersOfQuad

/-- Cores of a job in a quad, or in all of them. -/
def Job.coresIn (j : Job) (quad : Option Nat) : List CoreId :=
  ((j.quads.filter (fun q => quad.isNone || quad == some q)).flatMap clustersOfQuad).flatMap coresOf

/-- Context area of a core: 8 KiB per core in core-identifier order (Table 20.6). -/
def Job.ctxOf (j : Job) (id : CoreId) : Nat :=
  let cls := sortBy (fun a b => decide (a ≤ b)) (j.clusters.map (·.toNat))
  let i := (cls.findIdx? (fun x => x == (clusterOf id).toNat)).getD 0
  j.ctx.toNat + 8192 * (64 * i + id.toNat % 64)

/-- Home core of a work item (R169). -/
def Job.home (j : Job) (item : Nat) : Option CoreId :=
  let cls := j.clusters
  match j.image.assign with
  | some es => match es[item]? with
    | some e => (cls[e.toNat / 64]?).map (fun cl => coreAt cl (e.toNat % 64))
    | none => none
  | none => if cls.isEmpty then none else (cls[item / 64 % cls.length]?).map (fun cl => coreAt cl (item % 64))

/-! ### The context area (Tables 04.4, 05.7, 06.17) -/

/-- The instruction word of a pass (R142, Table 06.6). -/
def Pass.word (p : Pass) : Nat :=
  (0x20 + p.op.toNat) * 2 ^ 56 + p.w.mod.toNat * 2 ^ 48 + p.w.f1.toNat * 2 ^ 44 + p.w.f2.toNat * 2 ^ 40 + p.w.d.toNat * 2 ^ 36 +
  p.w.a.toNat * 2 ^ 32 + p.w.b.toNat * 2 ^ 28 + p.w.c.toNat * 2 ^ 24 + p.w.imm.toNat

/-- Array context record (Table 04.4). -/
def Core.arrayRecord (k : Core) : List Byte :=
  let a := k.arr
  let inB := (nth {} a.cells 0).inB
  let t := a.info inB
  let sets (b : Bool) : List CellSet := a.cells.map (fun x => x.part b)
  let rep := match a.restart with
    | some r => ((a.passes[r.pass]?).map (fun p => p.overflows.toNat)).getD 0
    | none => 0
  let rows := match a.drains with
    | d :: _ => packBits 3 d.rows
    | [] => 0
  let body := (sets false).flatMap (fun s => leBytes 6 s.w.toNat) ++ (sets true).flatMap (fun s => leBytes 6 s.w.toNat) ++
    a.cells.flatMap (fun x => leBytes 8 x.lfsr.toNat) ++ leBytes 2 (tileStatus a.infoA (a.anySpecial false)).toNat ++
    leBytes 2 (tileStatus a.infoB (a.anySpecial true)).toNat ++ leBytes 6 (specialBits (sets false)) ++
    leBytes 6 (specialBits (sets true)) ++
    leBytes 1 (b2n inB + 2 * b2n a.infoA.fixed + 4 * b2n a.infoB.fixed + 8 * b2n t.wide + 16 * b2n a.restart.isSome +
      32 * b2n t.accThrough) ++
    leBytes 1 (rep % 4) ++ leBytes 2 rows ++ leBytes 4 k.repeats.toNat ++ leBytes 4 k.fallbacks.toNat ++
    leBytes 2 k.restarts.toNat ++ leBytes 2 k.restores.toNat ++ leBytes 4 (if t.accThrough then t.mb.toNat else 0) ++
    leBytes 2 a.infoA.repTotal.toNat ++ leBytes 2 a.infoB.repTotal.toNat
  slice body 0 384

/-- Vector context record (Table 05.7). -/
def Core.vectorRecord (k : Core) : List Byte :=
  let qs := k.tq.filter (·.visible)
  let entry (e : TqEntry) : List Byte :=
    (List.range 16).flatMap (fun i => leBytes 4 (nth 0 e.vals i).toNat) ++ leBytes 2 e.status.toNat ++ leBytes 1 e.fmt.toNat ++ leBytes 1 1
  slice (k.lanes.flatMap (fun l => leBytes 8 l.toNat) ++ slice (qs.flatMap entry) 0 272 ++ leBytes 1 qs.length ++
    slice (qs.map (·.scale)) 0 4) 0 416

def NormSlot.bytes (n : NormSlot) : List Byte :=
  slice (leBytes 16 n.sumsq.toNat ++ leBytes 4 n.nonfinite.toNat ++ leBytes 4 n.maxmag.toNat ++ leBytes 4 n.repeats.toNat ++
    leBytes 4 n.fallbacks.toNat ++ leBytes 2 n.tag.toNat ++ leBytes 1 (b2n n.bound + 2 * b2n n.sat)) 0 48

def NormSlot.ofBytes (bs : List Byte) : NormSlot :=
  { sumsq := BitVec.ofNat 128 (fieldLe bs 0 16), nonfinite := BitVec.ofNat 32 (fieldLe bs 16 4),
    maxmag := BitVec.ofNat 32 (fieldLe bs 20 4), repeats := BitVec.ofNat 32 (fieldLe bs 24 4),
    fallbacks := BitVec.ofNat 32 (fieldLe bs 28 4), tag := BitVec.ofNat 16 (fieldLe bs 32 2),
    bound := bitAt (fieldLe bs 34 1) 0, sat := bitAt (fieldLe bs 34 1) 1 }

/-- The context area from byte 384 on (Table 06.17). -/
def Core.contextTail (k : Core) (id : CoreId) : List Byte :=
  let pass (p : Pass) : List Byte := slice (leBytes 8 p.word ++ leBytes 4 p.dv.toNat ++ leBytes 4 p.av.toNat ++ leBytes 4 p.bv.toNat ++
    leBytes 4 p.cv.toNat ++ leBytes 4 p.mv.toNat ++ leBytes 4 0 ++ slice p.drec 0 64) 0 96
  let control := k.pc.toNat + 65536 * b2n k.inTransfer + 131072 * b2n k.halted
  let part1 := slice (k.vectorRecord ++ (List.range 16).flatMap (fun r => leBytes 4 (k.regN (BitVec.ofNat 4 r))) ++ leBytes 4 control ++
    (List.range 10).flatMap (fun n => leBytes 4 (k.statusWord id n).toNat)) 0 640
  let part2 := slice (match k.arr.drains with
    | d :: _ => slice d.drec 0 64
    | [] => []) 0 128
  let part3 := slice ((k.arr.passes.take 2).flatMap pass) 0 192 ++ slice (k.norms.flatMap NormSlot.bytes) 0 704
  part1 ++ part2 ++ part3 ++ slice (k.handles.flatMap (fun h => leBytes 64 h.toNat)) 0 1024 ++ k.scratch.read 0 4096 ++
    List.replicate 1024 0

/-- Handle table of a context area (R178). -/
def handlesOf (bs : List Byte) : List (BitVec 512) := (List.range 16).map (fun i => BitVec.ofNat 512 (fieldLe bs (2048 + 64 * i) 64))

/-- What a saved core reads back from its area (R112, R141, R166); what the area cannot hold stands beside it (log 18). -/
def Core.readContext (k : Core) (bs : List Byte) : Core :=
  let va := cellValues bs 0
  let vb := cellValues bs 96
  let cells := k.arr.cells.zipIdx.map (fun (p : Cell × Nat) =>
    { p.1 with
      a := { cellSetOf (nth 0 va p.2) (fieldLe bs 324 6) p.2 with draw := p.1.a.draw }
      b := { cellSetOf (nth 0 vb p.2) (fieldLe bs 330 6) p.2 with draw := p.1.b.draw }
      lfsr := BitVec.ofNat 64 (fieldLe bs (192 + 8 * p.2) 8) })
  let control := fieldLe bs 864 4
  { k with
    arr := { k.arr with cells := cells }
    lanes := (List.range 16).map (fun i => BitVec.ofNat 64 (fieldLe bs (384 + 8 * i) 8))
    regs := Vector.ofFn (fun (r : Fin 16) => if r.val == 0 then 0 else BitVec.ofNat 32 (fieldLe bs (800 + 4 * r.val) 4))
    pc := BitVec.ofNat 11 control
    halted := bitAt control 17
    cvt := BitVec.ofNat 4 (fieldLe bs 868 4)
    excCause := BitVec.ofNat 8 (fieldLe bs 872 4)
    excCode := BitVec.ofNat 8 (fieldLe bs 872 4 / 256)
    excIndex := BitVec.ofNat 11 (fieldLe bs 872 4 / 65536)
    repeats := BitVec.ofNat 32 (fieldLe bs 876 4)
    fallbacks := BitVec.ofNat 32 (fieldLe bs 880 4)
    restarts := BitVec.ofNat 16 (fieldLe bs 884 4)
    restores := BitVec.ofNat 16 (fieldLe bs 884 4 / 65536)
    norms := (List.range 4).map (fun i => NormSlot.ofBytes (slice bs (1344 + 48 * i) 48))
    handles := handlesOf bs
    scratch := Memory.write [] 0 (slice bs 3072 4096) }

/-! ### Work items -/

/-- The forward of the next step waits for a chrysalis that is being copied (R34). -/
def Job.waitsCopy (j : Job) : Bool := match j.chrysalis with
  | some x => x.next
  | none => false

/-- WORK_ITEM_START (R106, R107, R169, R171, R178, R536): the scheduler hands an item to an idle core of its cluster, in exact mode to
its home core. -/
def Chip.workItemStart (c : Chip) (id : CoreId) (item : Nat) : Chip :=
  let cl := clusterOf id
  let k := c.core id
  match (c.cluster cl).job with
  | none => c
  | some h => match c.job h with
    | none => c
    | some j => match j.home item with
      | none => c
      | some home =>
        if !j.launched || j.waitsCopy || j.paused.contains (quadOf cl) || decide (j.items ≤ item) || j.started.contains item || clusterOf home != cl ||
            (j.exact && home != id) || k.running || k.service || k.outOfService || (c.cluster cl).withdrawn || !c.coreRuns id then c
        else
          let v := nth ⟨[], 0, 0, 0⟩ j.image.variants j.variant
          let area := c.vread j.tenant (j.ctxOf id) 8192
          (c.setCore id { k with
            running := true, job := some h, tenant := some j.tenant, item := BitVec.ofNat 32 item, exact := j.exact
            pc := v.entry, regs := j.regs, phase := .compute, xferStatus := 0, hold := .none, halted := false
            handles := handlesOf area
            latch := { index := v.entry, regs := j.regs, lanes := k.lanes, norms := k.norms }
            restorePoint := none, restorePend := false, failed := false }).setJob h { j with started := j.started ++ [item] }

/-- CORE_RESET (R69, R131, R144, R526): a core comes back to service; its scratchpad is left. -/
def Chip.coreReset (c : Chip) (id : CoreId) : Chip :=
  let k := c.core id
  if k.outOfService && !(c.cluster (clusterOf id)).withdrawn then c.setCore id { scratch := k.scratch, tenant := k.tenant } else c

/-! ### Pre-emption -/

/-- A pre-emption reaches a core: it issues nothing further (R110, R165); source 39. -/
def Chip.deliverPreempt (c : Chip) (v : Env) (id : CoreId) : Chip :=
  if (c.core id).preempt == .none && (c.core id).running then
    (c.modCore id (fun (k : Core) => { k with preempt := .requested })).stamp v 39 (clusterOf id).toNat
  else c

/-- PREEMPT_REQUEST: a request that no open step holds back (R446) arrives. -/
def Chip.preemptRequest (c : Chip) (v : Env) (id : CoreId) : Chip :=
  if c.coll.heldPreempts.contains (id, []) && c.coreRuns id then
    ({ c with coll := { c.coll with heldPreempts := c.coll.heldPreempts.erase (id, []) } }).deliverPreempt v id
  else c

/-- The array stands at a pass boundary: no attempt runs, or the pass is held at its latch (R110). -/
def ArrayState.atBoundary (a : ArrayState) : Bool :=
  (match a.restart with
    | some r => r.settled
    | none => !a.attemptRuns) && a.drains.all (fun d => d.pipe.isEmpty)

/-- What the core waits for lets the context be written: an instruction that has issued ends first (R118, R165, R365). -/
def Core.canSave (k : Core) : Bool :=
  (match k.hold with
    | .none => true
    | .waitht _ => true
    | .barw _ _ => true
    | _ => false) && k.tq.all (·.visible) && k.arr.atBoundary && !k.restorePend

/-- PREEMPT_BOUNDARY (R110, R111, R199): the array record is written; in the transfer phase once every stream stands. -/
def Chip.preemptBoundary (c : Chip) (id : CoreId) : Chip :=
  let k := c.core id
  let still := (c.cluster (clusterOf id)).streams.all (fun s => s.core != id || s.detached || s.settled || s.st == .preempted)
  match k.job.bind c.job with
  | none => c
  | some j =>
    if k.preempt == .requested && k.canSave && (!k.inTransfer || still) then
      (c.setCore id { k with preempt := .saved, phase := if k.inTransfer then .transfer else .compute }).vwrite j.tenant
        (j.ctxOf id) k.arrayRecord
    else c

/-- PREEMPT_DISCARD (R110): the running attempt is discarded, its anchor unchanged, and its pass marked for restart. -/
def Core.preemptDiscard (k : Core) : Core :=
  if k.preempt == .requested && k.arr.restart.isNone && k.arr.attemptRuns && !k.restorePend then
    ({ k with arr := k.arr.askRestart 0 .preempt } : Core).settleRestart
  else k

/-- Pre-emption of the job's cores in a quad has ended: none of them runs an item. -/
def Chip.quadSaved (c : Chip) (j : Job) (quad : Option Nat) : Bool := (j.coresIn quad).all (fun i => !(c.core i).running)

/-- The quad of `program.preempt` and `program.resume`: 0xFFFF names all. -/
def Pkt.quad (k : Pkt) : Option Nat := if k.n 34 2 == 0xFFFF then none else some (k.n 34 2)

/-- Replies of `program.preempt` whose contexts are saved (Table 20.6). -/
def Chip.preemptReplies (c : Chip) (v : Env) : Chip :=
  (c.cmd.waiting.filter (fun k => k.op == 0x0203)).foldl (fun (c : Chip) k =>
    match c.job (BitVec.ofNat 12 (k.n 32 2)) with
    | some j => if c.quadSaved j k.quad then c.finishWaiting v (fun x => x == k) ok else c
    | none => c.finishWaiting v (fun x => x == k) ok) c

/-- A core that holds no work item any more: its array and queues are empty. -/
def Core.idle (k : Core) : Core :=
  { k with running := false, preempt := .none, hold := .none, phase := .compute, tq := [], restorePend := false,
           arr := { ArrayState.init with cells := k.arr.cells.map (fun (x : Cell) => { lfsr := x.lfsr }) } }

/-- The rest of the context area is written and the core is free (R141, R166). -/
def Chip.saveContext (c : Chip) (id : CoreId) (h : JobId) (j : Job) : Chip :=
  let k := c.core id
  let area := j.ctxOf id
  let saved : SavedCore := { core := { k with preempt := .none }, area := BitVec.ofNat 48 area }
  let c := c.vwrite j.tenant (area + 384) (k.contextTail id)
  (c.setCore id k.idle).modJob h (fun (j : Job) => { j with saved := tblSet j.saved id.toNat saved })

/-- CONTEXT_SAVE_DONE (R166). -/
def Chip.contextSaveDone (c : Chip) (v : Env) (id : CoreId) : Chip :=
  match (c.core id).job with
  | none => c
  | some h => match c.job h with
    | none => c
    | some j => if (c.core id).preempt == .saved then (c.saveContext id h j).preemptReplies v else c

/-- A saved core is restored on its core: its record before its first instruction, a pass that was discarded from its first product,
`WAITHT` and `BARW` done if their instant or release has passed (R112, R165, R199). -/
def Chip.restoreCore (c : Chip) (h : JobId) (j : Job) (id : CoreId) (s : SavedCore) : Chip :=
  let bs := c.vread j.tenant s.area.toNat 8192
  let k := s.core.readContext bs
  let a := match k.arr.restart with
    | some r => if r.settled && r.kind == .preempt then { k.arr with restart := none } else k.arr
    | none => k.arr
  let k : Core := { k with arr := a, exact := j.exact, cycles := (c.core id).cycles }
  let k : Core := match k.hold with
    | .barw _ true => { k with hold := .none, pc := k.pc + 1 }
    | _ => { k with hold := .none }
  let c := (c.setCore id k).modCluster (clusterOf id) (fun x => { x with
    streams := x.streams.map (fun (t : Stream) => if t.core == id && t.st == .preempted then { t with st := .running } else t) })
  c.modJob h (fun (j : Job) => { j with saved := tblErase j.saved id.toNat })

/-! ### Repair entries, spares and withdrawal (R531 to R538) -/

/-- An entry of the repair table (Table 22.7), with the stamp of a repair that is applied (source 31). -/
def Chip.addRepair (c : Chip) (v : Env) (kind state replacement location : Nat) : Chip :=
  let e : RepairEntry := { kind := BitVec.ofNat 8 kind, state := BitVec.ofNat 8 state, replacement := BitVec.ofNat 16 replacement,
                           location := BitVec.ofNat 32 location, time := BitVec.ofNat 64 v.ns }
  let c : Chip := { c with sys := { c.sys with repairs := if c.sys.repairs.length < 16384 then c.sys.repairs ++ [e] else c.sys.repairs } }
  if state == 1 then c.stamp v 31 0 else c

/-- The supervisor of a tenant is notified (R343, R538). -/
def Chip.notify (c : Chip) (t : TenantId) : Chip := c.modTenant t (fun (n : Tenant) => { n with notices := n.notices + 1 })

/-- A core stops where it stands; its streams go with it. -/
def Chip.stopCore (c : Chip) (id : CoreId) : Chip :=
  let cl := clusterOf id
  let c := ((c.cluster cl).streams.filter (fun s => s.core == id)).foldl (fun (c : Chip) s =>
    ((if s.settled && s.st != .parked then c else c.releasePlace s).unjoin s.tenant (.stream cl s.serial)).dropStream cl s.serial) c
  let c := match (c.core id).tenant with
    | some t => c.unjoin t (.core id)
    | none => c
  c.modCore id (fun k => { k.idle with job := none, restorePoint := none, xferStatus := 0 })

/-- A quad is withdrawn: it runs no work item, its jobs stop there and their supervisors are notified (R534). -/
def Chip.withdrawQuad (c : Chip) (q : Nat) : Chip :=
  let c := (clustersOfQuad q).foldl (fun (c : Chip) cl =>
    (((coresOf cl).filter (fun i => (c.core i).running)).foldl Chip.stopCore c).modCluster cl (fun x => { x with withdrawn := true })) c
  match c.jobs.find? (fun p => p.2.quads.contains q) with
  | some p => c.notify p.2.tenant
  | none => c

/-- Physical position of a logical core: its own number until a repair maps it elsewhere (R23). -/
def Cluster.position (x : Cluster) (k : Nat) : BitVec 7 := tblGet (BitVec.ofNat 7 k) x.positions k

/-- A spare position of a cluster that works and carries no logical core. -/
def Cluster.freeSpare (x : Cluster) : Option (BitVec 7) :=
  [64, 65].find? (fun s => !x.failedPos.contains s && (List.range 64).all (fun k => x.position k != s))

/-- The physical core of a logical one leaves: a spare takes its place, or the entry shows that none is left and the quad is
withdrawn (R531, R534, Table 22.7). -/
def Chip.replaceCore (c : Chip) (v : Env) (id : CoreId) : Chip :=
  let cl := clusterOf id
  let x := c.cluster cl
  let k := id.toNat % 64
  let x1 : Cluster := { x with failedPos := x.failedPos ++ [x.position k], working := x.working - 1 }
  match x.freeSpare with
  | some s => (c.setCluster cl { x1 with positions := tblSet x.positions k s }).addRepair v 1 1 s.toNat id.toNat
  | none => ((c.setCluster cl x1).addRepair v 1 2 0 id.toNat).withdrawQuad (quadOf cl)

/-- TILE_RESTORE (R536): a second array fault of the tile makes the core failed, and the item resumes on a spare. -/
def Chip.tileRestore (c : Chip) (v : Env) (id : CoreId) : Chip :=
  let k := c.core id
  if !c.coreRuns id || !k.restorePend then c
  else if k.failed then (c.modCore id (fun k => { k.tileRestore with failed := false })).replaceCore v id
  else c.modCore id Core.tileRestore

/-- What a halted core had queued has run: no pass is left, and no drain can go on (R164). -/
def Core.drained (k : Core) : Bool :=
  (k.arr.passes.isEmpty || k.arr.cells.any (·.waits)) && k.arr.drains.all (fun d => d.pipe.isEmpty && !d.reserved)

/-- CORE_OUT_OF_SERVICE (R164, R531, R535): the context is saved, a core record is written, and the failed part is replaced. -/
def Chip.coreOut (c : Chip) (v : Env) (id : CoreId) : Chip :=
  let k := c.core id
  if !k.halted || k.excCause == 0 || k.restorePend || k.preempt != .none || k.outOfService || !k.drained then c
  else
    let c := match k.job with
      | some h => match c.job h with
        | some j => (c.vwrite j.tenant (j.ctxOf id) k.arrayRecord).saveContext id h j
        | none => c
      | none => c
    let c := match k.tenant with
      | some t => (c.faultRecord v t stFault 0 0 0 (2 ^ 64 - 1) (k.statusWord id 1).toNat id.toNat 0xFFFFFFFF).1
      | none => c
    (c.modCore id (fun k => { k.idle with outOfService := true, job := none })).replaceCore v id

end Sys2Proof
end

