-- ==== Sys2Proof/Machine/CmdTenant.lean ====
section
/-! DEFINITION. The tenant commands (R266, R272, R337, R348 to R351, R355, R495) and the ownership map. -/
namespace Sys2Proof

/-! ### The ownership map (R337, Table 13.4) -/

def Chip.setOwn (c : Chip) (n e : Nat) : Chip := c.store (4096 * c.xlt.ownBase.toNat + 2 * n) (leBytes 2 e)
def ownedBy (t : TenantId) (super : Bool) : Nat := 0x8000 + 0x2000 * b2n super + t.toNat

/-- Granules that the map gives to a tenant. -/
def Chip.granulesOf (c : Chip) (t : TenantId) : List Nat :=
  let base := 4096 * c.xlt.ownBase.toNat
  c.mem.bytes.filterMap (fun (x : Host.Cell) =>
    let n := (x.1 - base) / 2
    if base ≤ x.1 && x.1 < base + 6291456 && (x.1 - base) % 2 == 1 && bitAt x.2.toNat 7 && c.ownEntry n % 4096 == t.toNat
    then some n else none)

/-- Granules that a range covers. -/
def granulesIn (a n : Nat) : List Nat := (List.range (ceilDiv (a % granule + n) granule)).map (fun i => a / granule + i)

/-- Zero a range; its lines lose their poison (R324). -/
def Chip.zeroRange (c : Chip) (a n : Nat) : Chip :=
  { c with
    mem := { c.mem with bytes := c.mem.bytes.zero a n
                        poison := c.mem.poison.filter (fun l => !(decide (a ≤ 64 * l) && decide (64 * l + 64 ≤ a + n))) }
    reservations := c.reservations.filter (fun p => !(decide (a < 64 * p.2 + 64) && decide (64 * p.2 < a + n))) }

/-- Zero a granule and mark it free. -/
def Chip.freeGranule (c : Chip) (n : Nat) : Chip := (c.zeroRange (granule * n) granule).setOwn n 0

/-- Granules of a tier: first and count by range. -/
def MemState.tierRanges (m : MemState) : Nat → List (Nat × Nat)
  | 1 => [(0, tier1End / granule)]
  | 2 => [(tier2Base / granule, m.tier2Bytes / granule)]
  | _ => (List.range 4).map (fun p => ((tier3Base + p * tier2Base) / granule, (nth 0 m.t3Cap p).toNat / granule))

/-- Whole granules of a tier. -/
def MemState.tierGranules (m : MemState) (tier : Nat) : Nat := (m.tierRanges tier).foldl (fun a r => a + r.2) 0

/-! ### Invalidation (R347) -/

/-- An access that has been translated and has not completed. -/
def Access.inFlight (a : Access) : Bool :=
  match a.stage with
  | .memory => true
  | .home => true
  | .value _ => true
  | _ => false

/-- Drop what overlaps a range of a tenant's addresses: TLB entries, the walkers' entries of the tenant, and what running walks would
install; the answer names the accesses and buffered writes that used a dropped entry. -/
def Chip.inval (c : Chip) (t : TenantId) (base len : Nat) : Chip × List (CoreId × BitVec 48 × Nat) × List (ClusterId × Nat) :=
  let hits (va size : Nat) : Bool := len == 0 || overlap va size base len
  let dropped (e : TlbEntry) : Bool := e.tenant == t && hits e.va.toNat (2 ^ e.log2.toNat)
  let accesses := c.cores.filterMap (fun (p : Nat × Core) =>
    match p.2.hold with
    | .access a => if p.2.tenant == some t && a.inFlight && hits a.va.toNat 4 then some (BitVec.ofNat 20 p.1, a.va, a.since) else none
    | _ => none)
  let writes := c.clusters.flatMap (fun (p : Nat × Cluster) =>
    let ds := p.2.tlb.filter dropped
    (p.2.wb.filter (fun e => ds.any (fun d => decide (d.pa.toNat ≤ 64 * e.line) && decide (64 * e.line < d.pa.toNat + 2 ^ d.log2.toNat)))).map
      (fun e => ((BitVec.ofNat 14 p.1 : ClusterId), e.line)))
  let walkers := tblMap c.xlt.walkers (fun _ (w : Walker) =>
    { w with cache := w.cache.filter (fun x => x.1 != t)
             walks := w.walks.map (fun (k : Walk) =>
               if k.tenant == t && hits (k.page.toNat * 4096) 4096 then { k with stale := true } else k) })
  ({ c with
     clusters := tblMap c.clusters (fun _ (x : Cluster) => { x with tlb := x.tlb.filter (fun e => !dropped e) })
     xlt := { c.xlt with walkers := walkers } }, accesses, writes)

/-- A waiting invalidation is complete. -/
def Chip.invalDone (c : Chip) (w : InvalWait) : Bool :=
  w.accesses.all (fun x => match (c.core x.1).hold with
    | .access a => !(a.inFlight && a.va == x.2.1 && a.since == x.2.2)
    | _ => true) &&
  w.writes.all (fun x => !(c.cluster x.1).wb.any (fun e => e.line == x.2))

/-- Replies of the invalidations that are complete. -/
def Chip.invalReplies (c : Chip) (v : Env) : Chip :=
  let done := c.cmd.invals.filter c.invalDone
  if done.isEmpty then c
  else
    ({ c with cmd := { c.cmd with invals := c.cmd.invals.filter (fun w => !done.contains w) } }).finishWaiting v
      (fun k => k.op == 0x0303 && done.any (fun w => w.ring == k.ring && w.index == k.index)) ok

/-! ### `tenant.bind` -/

/-- A binding record (Table 20.7) with the quads of its list. -/
structure Binding where
  id : Nat
  count : Nat
  quads : List Nat
  rec_ : List Byte
  deriving DecidableEq, Repr

def Chip.readBinding (c : Chip) (a : Nat) : Binding :=
  let r := c.load a 128
  let n := fieldLe r 2 2
  { id := fieldLe r 0 2, count := n, rec_ := r,
    quads := (List.range (min n 4096)).map (fun i => c.loadLe (fieldLe r 8 8 + 2 * i) 2) }

def Binding.f (b : Binding) (off n : Nat) : Nat := fieldLe b.rec_ off n
def Binding.apps (b : Binding) : List AppId :=
  ((List.range 128).filter (fun i => bitAt (b.f 64 16) i)).map (fun i => BitVec.ofNat _ i)
/-- Granules that hold the root table and the fault ring, which the command marks SUPER. -/
def Binding.supers (b : Binding) : List Nat := (granulesIn (b.f 16 8) 4096 ++ granulesIn (b.f 24 8) (64 * (b.f 32 4 + 1))).eraseDups

/-- A value outside Tables 13.9 and 20.7. -/
def Chip.bindBad (c : Chip) (b : Binding) : Bool :=
  let size := b.f 32 4
  let notif := b.f 56 8
  let clog := b.f 104 1 % 16
  let rlog := b.f 104 1 / 16
  let inside (a n : Nat) : Bool := (granulesIn a n).all b.supers.contains
  decide (4095 < b.id) || (c.tenant (BitVec.ofNat 12 b.id)).isSome || b.count == 0 || decide (4096 < b.count) || !distinct b.quads ||
  b.quads.any (fun q => decide (4095 < q) || (clustersOfQuad q).any (fun cl => (c.cluster cl).withdrawn)) ||
  decide (60000000 < b.f 4 4) || b.f 16 8 % 4096 != 0 || b.f 24 8 % 64 != 0 || !powTwoIn size 6 16 ||
  decide (65536 < b.f 48 2 + b.f 50 2) || decide (3 < b.f 52 1) || !zeroBytes b.rec_ 53 3 || !zeroBytes b.rec_ 105 23 ||
  notif % 4 == 3 || bits notif 2 14 != 0 || bits notif 34 14 != 0 ||
  (bitAt (b.f 52 1) 1 && !zeroBytes b.rec_ 80 8) || b.f 88 8 % 256 != 0 || b.f 96 8 % 128 != 0 ||
  !(4 ≤ clog && clog ≤ 12) || !(4 ≤ rlog && rlog ≤ 12) || b.supers.any (fun n => decide (3145728 ≤ n)) ||
  !inside (b.f 88 8) (256 * 2 ^ clog) || !inside (b.f 96 8) (128 * 2 ^ rlog)

/-- A listed quad, granule or application core belongs to another, or a granule to the owner. -/
def Chip.bindDenied (c : Chip) (b : Binding) : Bool :=
  c.tenants.any (fun p => p.1 != b.id && (b.quads.any p.2.quads.contains || b.apps.any p.2.apps.contains)) ||
  b.supers.any (fun n => let e := c.ownEntry n; bitAt e 14 || (bitAt e 15 && e % 4096 != b.id))

/-- Free memory does not cover the quotas, or the norm tags are another's (R266, R350). -/
def Chip.bindShort (c : Chip) (b : Binding) : Bool :=
  (List.range 3).any (fun k =>
    decide (c.mem.tierGranules (k + 1) < c.tenants.foldl (fun a p => a + nth 0 p.2.quotas k) 0 + b.f (36 + 4 * k) 4)) ||
  c.tenants.any (fun p => overlap p.2.normFirst.toNat p.2.normCount.toNat (b.f 48 2) (b.f 50 2))

/-- The tenant that a record sets up (R349). -/
def Binding.tenant (b : Binding) : Tenant :=
  { quads := b.quads, root := b.f 16 8, ring := b.f 24 8, ringSize := b.f 32 4,
    quotas := [b.f 36 4, b.f 40 4, b.f 44 4], normFirst := BitVec.ofNat 16 (b.f 48 2), normCount := BitVec.ofNat 16 (b.f 50 2),
    class0 := bitAt (b.f 52 1) 0, onApps := bitAt (b.f 52 1) 1,
    parkLimit := 1000 * (if b.f 4 4 == 0 then 10000 else b.f 4 4),
    notifKind := BitVec.ofNat 2 (b.f 56 1), notifId := BitVec.ofNat 16 (b.f 58 2), notifPort := BitVec.ofNat 2 (b.f 60 1),
    notifFn := BitVec.ofNat 16 (b.f 62 2), apps := b.apps, peerMac := BitVec.ofNat 48 (b.f 80 6), peerUdp := BitVec.ofNat 16 (b.f 86 2),
    supers := b.supers }

/-- `tenant.bind` (R349, R350, R495). -/
def Chip.bind (c : Chip) (k : Pkt) : Chip × Reply :=
  let b := c.readBinding (k.n 32 8)
  if 4096 ≤ c.tenants.length then (c, refuse stTenantFull)
  else if c.bindDenied b then (c, refuse stDenied)
  else if c.bindBad b then (c, refuse stBadParam)
  else if c.bindShort b then (c, refuse stCapacity)
  else
    let t : TenantId := BitVec.ofNat 12 b.id
    let c := b.supers.foldl (fun (c : Chip) n => c.setOwn n (ownedBy t true)) (c.setTenant t b.tenant)
    let ring : Ring := { cbase := BitVec.ofNat 45 (b.f 88 8 / 128), clog := BitVec.ofNat 4 (b.f 104 1), enabled := true,
                         rbase := BitVec.ofNat 45 (b.f 96 8 / 128), rlog := BitVec.ofNat 4 (b.f 104 1 / 16) }
    (c.modRing (tenantRing t) (fun (r : Ring) => { ring with dropped := r.dropped, overrun := r.overrun }), ok)

/-! ### `tenant.unbind` (R351) -/

/-- A core, stream or moult of the tenant is at work. -/
def Chip.tenantBusy (c : Chip) (t : TenantId) (n : Tenant) : Bool :=
  (n.quads.flatMap clustersOfQuad).any (fun cl =>
    (coresOf cl).any (fun i => (c.core i).running) || (c.cluster cl).streams.any (fun s => s.tenant == t)) ||
  c.jobs.any (fun p => p.2.tenant == t && p.2.moult.isSome)

/-- Scratchpads and cached lines of a quad are zeroed, and its cores belong to nobody. -/
def Chip.scrubQuad (c : Chip) (q : Nat) : Chip :=
  (clustersOfQuad q).foldl (fun (c : Chip) cl =>
    { c with
      clusters := if (tblFind c.clusters cl.toNat).isSome then
          tblMod {} c.clusters cl.toNat (fun (x : Cluster) => { x with cache := [], cacheMem := [], job := none })
        else c.clusters
      cores := c.cores.map (fun (p : Nat × Core) =>
        if clusterOf (BitVec.ofNat 20 p.1) == cl then
          (p.1, { p.2 with scratch := [], tenant := none, job := none, handles := List.replicate 16 0 }) else p) }) c

/-- Barrier entries of a tenant return to IDLE and unclaimed (R393). -/
def Chip.unclaim (c : Chip) (t : TenantId) : Chip :=
  { c with barriers := tblMap c.barriers (fun _ (b : Barrier) => if b.owner == some t then { b with claimed := false, st := .idle } else b) }

/-- Groups of a tenant are released with their contexts and channels (R427). -/
def Chip.freeGroups (c : Chip) (t : TenantId) : Chip :=
  let mine := (c.coll.groups.filter (fun p => p.2.tenant == t)).map (·.1)
  { c with coll := { c.coll with groups := c.coll.groups.filter (fun p => p.2.tenant != t)
                                 channels := c.coll.channels.filter (fun p => !mine.contains p.1) } }

def Chip.unbind (c : Chip) (k : Pkt) : Chip × Reply :=
  let id := k.n 32 2
  let t : TenantId := BitVec.ofNat 12 id
  match if 4095 < id then none else c.tenant t with
  | none => (c, refuse stBadParam)
  | some n =>
    if c.tenantBusy t n then (c, busy0)
    else
      let areas := (c.jobs.filter (fun p => p.2.tenant == t)).flatMap (fun p =>
        (List.range (2048 * p.2.quads.length / 4)).map (fun i => p.2.ctx.toNat + 4096 * i))
      let c := areas.foldl (fun (c : Chip) a => match c.physOf t a with
        | some e => c.zeroRange (e.phys a) 4096
        | none => c) c
      let c := (n.quads.foldl Chip.scrubQuad (c.inval t 0 0).1)
      let c := (c.granulesOf t).foldl Chip.freeGranule c
      let c := (c.unclaim t).freeGroups t
      let c := c.modRing (tenantRing t) (fun (r : Ring) => { r with enabled := false, unsent := [] })
      let mine (x : Pkt) : Bool := x.ring == tenantRing t
      ({ c with
         tenants := tblErase c.tenants id
         jobs := c.jobs.filter (fun p => p.2.tenant != t)
         cmd := { c.cmd with queue := c.cmd.queue.filter (fun x => !mine x)
                             waiting := c.cmd.waiting.filter (fun x => !mine x)
                             left := c.cmd.left.filter (fun p => p.2.1 != t) } }, ok)

/-! ### `tenant.guard`, `tenant.query` -/

/-- `tenant.guard` (R272). -/
def Chip.guard (c : Chip) (k : Pkt) : Chip × Reply :=
  let a := k.n 40 8
  let limit := k.n 36 4
  match c.groupOf k (k.n 32 2) with
  | .error _ => (c, refuse stBadParam)
  | .ok (gid, g) =>
    if 1 < k.n 34 1 || limit == 0 || 0x7F800000 < limit || a % 32 != 0 || 2 ^ 48 ≤ a then (c, refuse stBadParam)
    else
      let clip := k.n 34 1 == 1
      match g.guard with
      | none => ((c.vwrite g.tenant a (List.replicate 32 0)).modGroup gid (fun (g : Group) =>
          { g with guard := some { addr := a, clip := clip, limit := BitVec.ofNat 32 limit } }), ok)
      | some r => (c.modGroup gid (fun (g : Group) => { g with guard := some { r with next := some (a, clip, BitVec.ofNat 32 limit) } }), ok)

/-- `tenant.query`: violation count, quads held, bytes used of each quota (log 37). -/
def Chip.tenantQuery (c : Chip) (k : Pkt) : Chip × Reply :=
  let id := k.n 32 2
  match if 4095 < id then none else c.tenant (BitVec.ofNat 12 id) with
  | none => (c, refuse stBadParam)
  | some n => (c, { status := stOk, body := leBytes 4 n.violations.toNat ++ leBytes 4 n.quads.length ++
      (List.range 3).flatMap (fun i => leBytes 8 (granule * nth 0 n.used i)) })

end Sys2Proof
end

