-- ==== Sys2Proof/Machine/CmdMemory.lean ====
section
/-! DEFINITION. The memory commands (R197, R214, R328 to R331, R344, R347). -/
namespace Sys2Proof

/-! ### Tables and granules that firmware writes (R329, R331, log 38) -/

/-- The first free granule of a range. -/
def Chip.freeIn (c : Chip) (first : Nat) : Nat → Option Nat
  | 0 => none
  | n + 1 => if c.ownEntry first == 0 then some first else Chip.freeIn c (first + 1) n

/-- The first free granule of a tier. -/
def Chip.freeGranuleOf (c : Chip) (tier : Nat) : Option Nat := (c.mem.tierRanges tier).findSome? (fun r => c.freeIn r.1 r.2)

/-- Take a free granule of a tier for a tenant. -/
def Chip.takeGranule (c : Chip) (t : TenantId) (tier : Nat) (super : Bool) : Option (Nat × Chip) :=
  (c.freeGranuleOf tier).map (fun g => (g, c.setOwn g (ownedBy t super)))

/-- Take several; none when the tier has fewer. -/
def Chip.takeGranules (c : Chip) (t : TenantId) (tier : Nat) : Nat → Option (List Nat × Chip)
  | 0 => some ([], c)
  | n + 1 => match c.takeGranule t tier false with
    | none => none
    | some (g, c) => (Chip.takeGranules c t tier n).map (fun p => (g :: p.1, p.2))

/-- An entry that points to a next-level table (Table 13.2). -/
def pointsToTable (e : Nat) : Bool := bitAt e 0 && bitAt e 1

/-- Address of the level 1 entry of a virtual address, through tables that are present. -/
def Chip.leafSlot (c : Chip) (va : Nat) : Nat → Nat → Option Nat
  | 0, _ => none
  | 1, table => some (table + 8 * bits va 21 9)
  | l + 2, table =>
    let e := c.loadLe (table + 8 * bits va (12 + 9 * (l + 2)) 9) 8
    if pointsToTable e then Chip.leafSlot c va (l + 1) (bits e 12 40 * 4096) else none

/-- Write the 2 MiB leaf of a virtual address; a table that is missing is made in a fresh granule of tier 1 marked SUPER. -/
def Chip.mapLeaf (t : TenantId) (va pa : Nat) : Nat → Nat → Chip → Chip
  | 0, _, c => c
  | 1, table, c => c.storeLe (table + 8 * bits va 21 9) 8 (pa + 0x1D)
  | l + 2, table, c =>
    let ea := table + 8 * bits va (12 + 9 * (l + 2)) 9
    let e := c.loadLe ea 8
    if pointsToTable e then Chip.mapLeaf t va pa (l + 1) (bits e 12 40 * 4096) c
    else match c.takeGranule t 1 true with
      | none => c
      | some (g, c) =>
        let c := ((c.zeroRange (granule * g) granule).modTenant t (fun (n : Tenant) => { n with supers := n.supers ++ [g] }))
        Chip.mapLeaf t va pa (l + 1) (granule * g) (c.storeLe ea 8 (granule * g + 3))

/-- Map a region at its virtual base. -/
def Chip.mapRegion (c : Chip) (t : TenantId) (root : Nat) (r : Region) : Chip :=
  r.granules.zipIdx.foldl (fun (c : Chip) p => Chip.mapLeaf t (r.va.toNat + granule * p.2) (granule * p.1) 3 root c) c

/-- Clear V in the leaves of a region (R331). -/
def Chip.unmapRegion (c : Chip) (root : Nat) (r : Region) : Chip :=
  r.granules.zipIdx.foldl (fun (c : Chip) p =>
    match c.leafSlot (r.va.toNat + granule * p.2) 3 root with
    | none => c
    | some ea =>
      let e := c.loadLe ea 8
      if bitAt e 0 && bits e 12 40 * 4096 == granule * p.1 then c.storeLe ea 8 (e - 1) else c) c

/-! ### `memory.place` (R328, R329) -/

/-- An entry of a placement table (Table 12.12). -/
structure PlaceEntry where
  size : Nat
  tier : Nat
  demotable : Bool
  priority : Nat
  slowdown : Nat
  va : Nat
  bad : Bool

def placeEntry (b : List Byte) : PlaceEntry :=
  let size := fieldLe b 0 8
  let tier := fieldLe b 8 1
  let flags := fieldLe b 9 1
  let va := fieldLe b 16 8
  { size := size, tier := tier, demotable := bitAt flags 0, priority := fieldLe b 10 2, slowdown := fieldLe b 12 4, va := va,
    bad := size % granule != 0 || tier == 0 || decide (3 < tier) || bits flags 2 6 != 0 || bits flags 0 2 == 3 ||
      (bitAt flags 0 && tier != 1) || va % granule != 0 || decide (2 ^ 48 ≤ va) || !zeroBytes b 24 8 }

def placeHeaderBad (h : List Byte) : Bool :=
  fieldLe h 0 4 != 0x45434C50 || fieldLe h 4 2 != 1 || fieldLe h 6 2 == 0 || decide (4096 < fieldLe h 6 2) || !zeroBytes h 8 24

/-- Which entries step 3 of R329 demotes: index and entry in demotion order, with the room left in tier 2 and the shortfall that
remains. -/
def demote : List (Nat × PlaceEntry) → Nat → Nat → List Nat × Nat
  | [], _, short => ([], short)
  | (i, e) :: es, room, short =>
    if short == 0 then ([], 0)
    else if e.tier == 1 && e.demotable && decide (e.size ≤ room) then
      let r := demote es (room - e.size) (short - e.size)
      (i :: r.1, r.2)
    else demote es room short

/-- Bytes that a list of entries wants of a tier. -/
def demandOf (es : List PlaceEntry) (tier : Nat) : Nat := (es.filter (fun e => e.tier == tier)).foldl (fun a e => a + e.size) 0

/-- Bytes of a tenant's quota that are free in a tier. -/
def Tenant.freeQuota (n : Tenant) (tier : Nat) : Nat := granule * (nth 0 n.quotas (tier - 1) - nth 0 n.used (tier - 1))

/-- Entries in demotion order: ascending priority, the lower index first. -/
def demotionOrder (es : List PlaceEntry) : List (Nat × PlaceEntry) :=
  sortBy (fun a b => decide (a.2.priority < b.2.priority) || (a.2.priority == b.2.priority && decide (a.1 ≤ b.1)))
    (es.zipIdx.map (fun p => (p.2, p.1)))

/-- Allocate and map the entries, with the tier that each goes to; none when memory has no free granule left. -/
def Chip.placeAll (t : TenantId) (h : JobId) (root : Nat) : List (PlaceEntry × Nat) → Chip → Option Chip
  | [], c => some c
  | (e, tier) :: es, c =>
    match c.takeGranules t tier (e.size / granule) with
    | none => none
    | some (gs, c) =>
      let r : Region := { granules := gs, tier := tier, va := BitVec.ofNat 48 e.va }
      let c := (c.mapRegion t root r).modTenant t (fun (n : Tenant) => { n with used := modNth n.used (tier - 1) (· + gs.length) })
      Chip.placeAll t h root es (c.modJob h (fun (j : Job) => { j with regions := j.regions ++ [r], placed := true }))

/-- `memory.place`. -/
def Chip.place (c : Chip) (k : Pkt) : Chip × Reply :=
  match c.jobOf k (k.n 40 2) with
  | .error s => (c, refuse s)
  | .ok (h, j) =>
    let a := k.n 32 8
    let hd := c.aread k.space a 32
    let n := fieldLe hd 6 2
    if placeHeaderBad hd then (c, refuse stBadParam)
    else
      let raw := c.aread k.space (a + 32) (32 * n)
      let es := (List.range n).map (fun i => placeEntry (slice raw (32 * i) 32))
      if es.any (·.bad) || j.placed then (c, refuse stBadParam)
      else match c.tenant j.tenant with
        | none => (c, refuse stBadParam)
        | some t =>
          let short (tier : Nat) : Nat := demandOf es tier - t.freeQuota tier
          if 0 < max (short 2) (short 3) then (c, { status := stCapacity, body := leBytes 8 (max (short 2) (short 3)) })
          else
            let d := demote (demotionOrder es) (t.freeQuota 2 - demandOf es 2) (short 1)
            if 0 < d.2 then (c, { status := stCapacity, body := leBytes 8 d.2 })
            else
              let targets := es.zipIdx.map (fun p => (p.1, if d.1.contains p.2 then 2 else p.1.tier))
              match Chip.placeAll j.tenant h t.root targets c with
              | none => (c, { status := stCapacity, body := leBytes 8 0 })
              | some c1 =>
                let moved := d.1.filterMap (fun i => es[i]?)
                (c1, { status := stOk, body := leBytes 8 (moved.foldl (fun a e => a + e.size) 0) ++ leBytes 4 moved.length ++
                  leBytes 4 (min (moved.foldl (fun a e => a + e.slowdown) 0) (2 ^ 32 - 1)) })

/-! ### `memory.release` (R331) -/

/-- A work item, stream or moult of a job, or an operation of its tenant, is open. -/
def Chip.jobOpen (c : Chip) (h : JobId) (j : Job) : Bool :=
  (j.coresIn none).any (fun i => (c.core i).running && (c.core i).job == some h) || !j.saved.isEmpty ||
  j.clusters.any (fun cl => (c.cluster cl).job == some h && !(c.cluster cl).streams.isEmpty) || j.moult.isSome
def Chip.opsOpen (c : Chip) (t : TenantId) : Bool :=
  c.coll.groups.any (fun p => p.2.tenant == t && (match p.2.op with
    | some op => op.cur.isSome
    | none => false))

/-- Unmap, invalidate, zero and free regions, in the order of R331. -/
def Chip.releaseRegions (c : Chip) (t : TenantId) (root : Nat) (rs : List Region) : Chip :=
  let c := rs.foldl (fun (c : Chip) r => ((c.unmapRegion root r).inval t r.va.toNat (granule * r.granules.length)).1) c
  let c := rs.foldl (fun (c : Chip) r => r.granules.foldl Chip.freeGranule c) c
  c.modTenant t (fun (n : Tenant) =>
    { n with used := rs.foldl (fun u r => modNth u (r.tier - 1) (· - r.granules.length)) n.used })

def releaseReply (rs : List Region) : Reply :=
  { status := stOk, body := leBytes 8 (granule * rs.foldl (fun a r => a + r.granules.length) 0) ++ leBytes 4 rs.length }

/-- The regions that a handle names: a job's, or those that a stopped one has left. -/
def Chip.placedOf (c : Chip) (k : Pkt) (h : Nat) : Except Nat (TenantId × List Region × Option Job) :=
  match c.jobOf k h, tblFind c.cmd.left h with
  | .ok (_, j), _ => .ok (j.tenant, j.regions, some j)
  | .error _, some (t, rs) => if t == k.tenant || k.space.isNone then .ok (t, rs, none) else .error stDenied
  | .error s, none => .error s

def Chip.release (c : Chip) (k : Pkt) : Chip × Reply :=
  let h := k.n 32 2
  match c.placedOf k h with
  | .error s => (c, refuse s)
  | .ok (t, rs, j) =>
    let isOpen := c.opsOpen t || (match j with
      | some j => c.jobOpen (BitVec.ofNat 12 h) j
      | none => false)
    if isOpen then (c, busy0)
    else
      let root := match c.tenant t with
        | some n => n.root
        | none => 0
      let c := c.releaseRegions t root rs
      let c := c.modJob (BitVec.ofNat 12 h) (fun (j : Job) => { j with regions := [], placed := false })
      ({ c with cmd := { c.cmd with left := tblErase c.cmd.left h } }, releaseReply rs)

/-! ### Faults, invalidation, streams, tensors -/

/-- The requesters joined to the record that a packet names by serial. -/
def Chip.joined (c : Chip) (k : Pkt) : Option (List Requester) :=
  (c.tenant k.tenant).bind (fun n => (n.faults.find? (fun f => f.serial.toNat == k.n 32 4)).map (·.reqs))

/-- Drop the record that a packet names. -/
def Chip.closeFault (c : Chip) (k : Pkt) : Chip :=
  c.modTenant k.tenant (fun (n : Tenant) => { n with faults := n.faults.filter (fun f => f.serial.toNat != k.n 32 4) })

/-- `memory.resume` (R344): every joined access and stream walks again. -/
def Chip.memResume (c : Chip) (k : Pkt) : Chip × Reply :=
  match c.joined k with
  | none => (c, refuse stBadParam)
  | some rs =>
    (rs.foldl (fun (c : Chip) (r : Requester) => match r with
      | .core id => c.modCore id (fun x => match x.hold with
          | .access a => if a.stage == .faulted then { x with hold := .access { a with stage := .translate } } else x
          | _ => x)
      | .stream cl n => c.resumeStream cl n) (c.closeFault k), ok)

/-- `memory.end` (R344): every joined access ends. -/
def Chip.memEnd (c : Chip) (v : Env) (k : Pkt) : Chip × Reply :=
  match c.joined k with
  | none => (c, refuse stBadParam)
  | some rs =>
    (rs.foldl (fun (c : Chip) (r : Requester) => match r with
      | .core id => c.endAccess v id
      | .stream cl n => c.endParked cl n) (c.closeFault k), ok)

/-- `memory.inval` (R347): it replies once no access and no buffered write is left that used a dropped entry. -/
def Chip.memInval (c : Chip) (k : Pkt) : Chip × Option Reply :=
  match c.tenant k.tenant with
  | none => (c, some (refuse stBadParam))
  | some _ =>
    let r := c.inval k.tenant (k.n 32 8) (k.n 40 8)
    if r.2.1.isEmpty && r.2.2.isEmpty then (r.1, some ok)
    else
      let w : InvalWait := { ring := k.ring, index := k.index, accesses := r.2.1, writes := r.2.2 }
      ({ r.1 with cmd := { r.1.cmd with invals := r.1.cmd.invals ++ [w] } }, none)

/-- The stream that a `memory.stream` packet names. -/
def Chip.streamOf (c : Chip) (k : Pkt) : Except Nat (ClusterId × Stream) :=
  if 16384 ≤ k.n 32 2 then .error stBadParam
  else
    let cl : ClusterId := BitVec.ofNat 14 (k.n 32 2)
    match (c.cluster cl).streams.find? (fun s => s.tag == k.n 36 4) with
    | none => .error stBadParam
    | some s =>
      if k.space.isSome && s.tenant != k.tenant then .error stDenied
      else if s.st == .parked then .ok (cl, s) else .error stBadParam

def Chip.streamResume (c : Chip) (k : Pkt) : Chip × Reply :=
  match c.streamOf k with
  | .error s => (c, refuse s)
  | .ok (cl, s) => (c.resumeStream cl s.serial, ok)

def Chip.streamEndCmd (c : Chip) (k : Pkt) : Chip × Reply :=
  match c.streamOf k with
  | .error s => (c, refuse s)
  | .ok (cl, s) => (c.endParked cl s.serial, ok)

/-- A T4 header that the commands refuse (R214, Table 08.4): addresses are 64-byte aligned and below 2^48. -/
def tensorBad (h : List Byte) : Bool :=
  let f (off n : Nat) : Nat := fieldLe h off n
  let fmt := bits (f 6 1) 0 4
  let mx := fmt == Fmt.mxfp6.code || fmt == Fmt.mxfp4.code
  let col := bitAt (f 7 1) 1
  let addrs := [f 24 8, f 32 8, f 40 8, f 48 8, f 56 8, f 64 8]
  f 0 4 != 0x34544D42 || f 4 2 != 1 || bits (f 6 1) 4 4 != 0 || (Fmt.ofCode fmt).isNone || bits (f 7 1) 2 6 != 0 ||
  f 8 4 == 0 || f 12 4 == 0 || decide (1048576 < f 12 4) || decide (f 8 4 * f 12 4 < f 16 4) || !zeroBytes h 72 56 ||
  addrs.any (fun a => a % 64 != 0 || decide (2 ^ 48 ≤ a)) || (if mx then f 32 8 == 0 else f 32 8 != 0) ||
  (if col then f 56 8 == 0 || f 64 8 == 0 else f 56 8 != 0 || f 64 8 != 0)

/-- `memory.tensor` (R213, R214): a companion has its weight's stride. -/
def Chip.tensor (c : Chip) (k : Pkt) : Chip × Reply :=
  let h := c.aread k.space (k.n 32 8) 128
  let w := c.aread k.space (k.n 48 8) 128
  if 1 < k.n 40 1 || tensorBad h then (c, refuse stBadParam)
  else if k.n 40 1 == 0 then (c, if k.n 48 8 == 0 then ok else refuse stBadParam)
  else if tensorBad w || bitAt (fieldLe w 7 1) 0 != bitAt (fieldLe h 7 1) 0 then (c, refuse stBadParam)
  else (c, ok)

end Sys2Proof
end

