-- ==== Sys2Proof/Machine/Digest.lean ====
section
/-! DEFINITION. Digests of regions (R460 to R464) and the seed function (R457). -/
namespace Sys2Proof

/-- Chunk hash H(r, i) of a region of length L (R460). -/
def chunkHash (region i len : Nat) (bs : List Byte) : Nat := sha128 (leBytes 4 region ++ leBytes 4 i ++ leBytes 8 len ++ bs)

/-- The digest of one region (R461). -/
def regionDigest (region : Nat) (bs : List Byte) : Nat :=
  (List.range (max 1 (ceilDiv bs.length 4096))).foldl (fun (a : Nat) i =>
    (a + chunkHash region i bs.length ((bs.drop (4096 * i)).take 4096)) % 2 ^ 128) 0

/-- The digest of a range, with whether it meets poison (R463); the address follows the ring. -/
def Chip.digestOf (c : Chip) (t : Option TenantId) (region a len : Nat) : Nat × Bool :=
  (regionDigest region (c.aread t a len), match t with
    | some t => c.vpoison t a len
    | none => c.mem.poisonIn a len)

/-- The program digest: the image with bytes 160 to 175 taken as zero (R464). -/
def programDigest (bs : List Byte) : Nat := regionDigest 0 (bs.take 160 ++ List.replicate 16 0 ++ bs.drop 176)

/-- A 64-bit seed of the seed block (R457, Table 18.3). -/
def seedOf (job step layer core index purpose rank : Nat) : W64 :=
  let x := sha64 (leBytes 8 job ++ leBytes 6 step ++ leBytes 2 layer ++ leBytes 4 core ++ leBytes 1 index ++ leBytes 1 purpose ++
    leBytes 3 rank ++ leBytes 7 0)
  BitVec.ofNat 64 (if x == 0 then 1 else x)

end Sys2Proof
end

