-- ==== Sys2Proof/Machine/Moult.lean ====
section
/-! DEFINITION. What the moult computes for one layer (R231 to R257): the plan's entries, tensors and their checks, scores, reduced
lanes, the blocks dropped and grown, the new layout. -/
namespace Sys2Proof

/-! ### Plans (Tables 09.1, 09.2) -/

/-- A layer entry. -/
structure PlanLayer where
  weight : Nat
  records : Nat
  regions : List Nat
  size : Nat
  companions : List Nat
  sieve : Nat
  fraction : Nat
  policy : Nat
  mix : Nat
  flags : Nat
  init : Nat
  scale : Nat
  cap : Nat
  number : Nat

def PlanLayer.ofBytes (e : List Byte) : PlanLayer :=
  let f (off n : Nat) : Nat := fieldLe e off n
  { weight := f 0 8, records := f 8 8, regions := [f 16 8, f 24 8], size := f 32 8,
    companions := ((List.range 4).map (fun i => f (40 + 8 * i) 8)).takeWhile (· != 0), sieve := f 72 8, fraction := f 80 2,
    policy := f 84 1, mix := f 85 1, flags := f 86 1, init := f 87 1, scale := f 88 4, cap := f 92 4, number := f 96 2 }

def PlanLayer.rechoose (l : PlanLayer) : Bool := bitAt l.flags 0
def PlanLayer.full (l : PlanLayer) : Bool := bitAt l.flags 1
def PlanLayer.allDead (l : PlanLayer) : Bool := bitAt l.flags 2
def PlanLayer.sieved (l : PlanLayer) : Bool := bitAt l.flags 3

def Plan.layer (p : Plan) (i : Nat) : PlanLayer := PlanLayer.ofBytes (nth [] p.layers i)

/-- A layer entry breaks Table 09.2 or R236; the stride of a tensor is that of its slot of parity `par`. -/
def Chip.layerBad (c : Chip) (t : TenantId) (par : Nat) (e : List Byte) : Bool :=
  let f (off n : Nat) : Nat := fieldLe e off n
  let l := PlanLayer.ofBytes e
  let wide (a : Nat) : Bool := bitAt (c.vreadLe t (a + 128 * par + 7) 1) 0
  let comps := (List.range 4).map (fun i => f (40 + 8 * i) 8)
  l.weight % 256 != 0 || l.records % 128 != 0 || l.regions.any (· % 64 != 0) || l.companions.any (· % 256 != 0) || l.sieve % 8 != 0 ||
  (comps.drop l.companions.length).any (· != 0) || f 82 2 != 0 || decide (2 < l.policy) || decide (1 < l.init) || decide (16 ≤ l.flags) ||
  !zeroBytes e 98 30 || (!l.sieved && l.sieve != 0) || (!l.allDead && l.cap == 0) ||
  ((l.policy != 1 || l.rechoose) && !l.sieved) || (l.full && !wide l.weight) || l.companions.any (fun a => wide a != wide l.weight)

/-- The plan at an address of a ring: header and layer entries, or none when R236 refuses it. -/
def Chip.readPlan (c : Chip) (space : Option TenantId) (t : TenantId) (a par : Nat) : Option Plan :=
  let h := c.aread space a 64
  let n := fieldLe h 6 2
  if a % 64 != 0 || fieldLe h 0 4 != 0x544C4F4D || fieldLe h 4 2 != 1 || n == 0 || 4096 < n || 4096 ≤ fieldLe h 8 2 ||
      !zeroBytes h 11 5 || fieldLe h 16 8 % 8 != 0 || !zeroBytes h 24 40 then none
  else
    let es := (List.range n).map (fun i => c.aread space (a + 64 + 128 * i) 128)
    if es.any (c.layerBad t par) || !distinct (es.map (fun e => fieldLe e 0 8)) then none
    else some { addr := BitVec.ofNat 64 a, space := space, group := BitVec.ofNat 12 (fieldLe h 8 2), sumExp := nth 0 h 10,
                word := BitVec.ofNat 48 (fieldLe h 16 8), layers := es }

/-! ### Tensors (Table 08.4, R206 to R212) -/

/-- A T4 tensor by its header. -/
structure Tensor where
  head : List Byte
  fmt : Fmt
  wide : Bool
  column : Bool
  mb : Nat
  kb : Nat
  n : Nat
  values : Nat
  scales : Nat
  descs : Nat
  rows : Nat
  cols : Nat
  perm : Nat

def Tensor.stride (x : Tensor) : Nat := if x.wide then 16 else 8

def Tensor.ofBytes (h : List Byte) : Tensor :=
  let f (off n : Nat) : Nat := fieldLe h off n
  { head := h, fmt := (Fmt.ofCode (bits (f 6 1) 0 4)).getD .fp32, wide := bitAt (f 7 1) 0, column := bitAt (f 7 1) 1, mb := f 8 4, kb := f 12 4,
    n := f 16 4, values := f 24 8, scales := f 32 8, descs := f 40 8, rows := f 48 8, cols := f 56 8, perm := f 64 8 }

def Chip.tensorAt (c : Chip) (t : TenantId) (a : Nat) : Tensor := Tensor.ofBytes (c.vread t a 128)

/-- 4-byte words of an array. -/
def Chip.words (c : Chip) (t : TenantId) (a n : Nat) : List Nat :=
  let bs := c.vread t a (4 * n)
  (List.range n).map (fun i => fieldLe bs (4 * i) 4)

/-- Live blocks in row order: block index and descriptor (R209, R210, R239). -/
def Chip.blocksOf (c : Chip) (t : TenantId) (x : Tensor) : List (Nat × Nat) :=
  let rp := c.words t x.rows (x.mb + 1)
  let ds := c.words t x.descs x.n
  (List.range x.mb).flatMap (fun a => (List.range (nth 0 rp (a + 1) - nth 0 rp a)).map (fun i =>
    let d := nth 0 ds (nth 0 rp a + i)
    (a * x.kb + bits d 0 20, d)))

def patternOf (d : Nat) : Nat := bits d 20 7

/-- The column view of blocks in row order: pointers and permutation (R211). -/
def columnView (kb : Nat) (idx : List Nat) : List Nat × List Nat :=
  let perm := (List.range kb).flatMap (fun b => (idx.zipIdx.filter (fun p => p.1 % kb == b)).map (·.2))
  ((List.range (kb + 1)).map (fun b => idx.countP (fun i => decide (i % kb < b))), perm)

/-- The row pointers of blocks in row order (R210). -/
def rowPointers (mb kb : Nat) (idx : List Nat) : List Nat :=
  (List.range (mb + 1)).map (fun a => idx.countP (fun i => decide (i / kb < a)))

/-- The descriptors and pointers of a tensor pass the moult's checks (R214). -/
def Chip.tensorSound (c : Chip) (t : TenantId) (x : Tensor) : Bool :=
  let rp := c.words t x.rows (x.mb + 1)
  let ds := c.words t x.descs x.n
  let bs := c.blocksOf t x
  let idx := bs.map (·.1)
  let cv := columnView x.kb idx
  ds.all (fun d => blockKind d x.wide != .invalid && decide (bits d 0 20 < x.kb)) && nth 0 rp 0 == 0 && nth 0 rp x.mb == x.n &&
  (List.range x.mb).all (fun a => decide (nth 0 rp a ≤ nth 0 rp (a + 1))) &&
  (List.range (x.n - 1)).all (fun j => decide (nth 0 idx j < nth 0 idx (j + 1))) &&
  (!x.column || (c.words t x.cols (x.kb + 1) == cv.1 && c.words t x.perm x.n == cv.2))

/-- Stored values and scale bytes of a tensor. -/
structure Stored where
  values : List Byte
  scales : List Byte

def Chip.stored (c : Chip) (t : TenantId) (x : Tensor) : Stored :=
  let n := x.stride * x.n
  { values := c.vread t x.values (x.fmt.elemBytes n), scales := if x.fmt.isMx then c.vread t x.scales (ceilDiv n 32) else [] }

/-- The value at a position (R42). -/
def Stored.value (s : Stored) (f : Fmt) (p : Nat) : FVal := decodeScaled f (nth 0 s.scales (p / 32)).toNat (unpack f s.values p)

/-- Scores of the live blocks (R245). -/
def Chip.scoreLive (c : Chip) (t : TenantId) (x : Tensor) : List ScoreRec :=
  let s := c.stored t x
  (c.blocksOf t x).zipIdx.map (fun p =>
    let r := scoreBlock (blockGrid (blockKind p.1.2 x.wide) (fun v => s.value x.fmt (x.stride * p.2 + v)))
    { score := BitVec.ofNat 32 r.1, pattern := BitVec.ofNat 8 r.2 })

/-! ### Candidates and lanes (R239, R240, R246) -/

/-- The current layer record's candidates, as block indices. -/
def Chip.candidates (c : Chip) (t : TenantId) (l : PlanLayer) (par kb : Nat) : List Nat :=
  let r := c.vread t (l.records + 64 * par) 64
  (List.range (fieldLe r 8 4)).map (fun k =>
    let a := fieldLe r 40 8 + 8 * k
    c.vreadLe t a 4 * kb + c.vreadLe t (a + 4) 4)

/-- Row-order numbers of the live 2:4 blocks. -/
def twoFour (blocks : List (Nat × Nat)) : List Nat := (blocks.zipIdx.filter (fun p => patternOf p.1.2 != 126)).map (·.2)

/-- The sieve records of a layer's lanes: the candidates, then the live 2:4 blocks under re-choice. -/
def Chip.sieveLanes (c : Chip) (t : TenantId) (l : PlanLayer) (cands : Nat) (blocks : List (Nat × Nat)) : List ScoreRec :=
  if !l.sieved then []
  else
    let js := if l.rechoose then (twoFour blocks).map (cands + ·) else []
    (List.range cands ++ js).map (fun k =>
      let r := c.vread t (l.sieve + 8 * k) 8
      { score := BitVec.ofNat 32 (fieldLe r 0 4), pattern := nth 0 r 4 })

/-- Key of a lane (Table 09.6). -/
def ScoreRec.key (r : ScoreRec) : W64 := BitVec.ofNat 64 (r.score.toNat * 128 + (127 - r.pattern.toNat % 128))
/-- Pattern of a key. -/
def keyPattern (k : W64) : Nat := 127 - k.toNat % 128

/-- Check words: digests of the descriptor array and of the live score records, with the plan index as region number. -/
def Chip.checkWords (c : Chip) (t : TenantId) (i : Nat) (x : Tensor) (live : List ScoreRec) : List W64 :=
  let d := regionDigest i (c.vread t x.descs (4 * x.n))
  let e := regionDigest i (live.flatMap (fun r => scoreRecord (r.score.toNat, r.pattern.toNat)))
  [BitVec.ofNat 64 d, BitVec.ofNat 64 (d / 2 ^ 64), BitVec.ofNat 64 e, BitVec.ofNat 64 (e / 2 ^ 64)]

/-- The reduction of a layer's lanes over the score group (R246, R247): `own` is none when the chip withholds (R241). -/
def reduceLanes (s : Int) (own : Option (List ScoreRec)) (lanes : Nat) (words : List W64) (p : PeerLanes) : Reduced :=
  let dummy : ScoreRec := { score := 0, pattern := 0 }
  let sum (k : Nat) : ExactRec :=
    let mine := match own with
      | some rs => ExactRec.zero.enter s (f32 (nth dummy rs k).score.toNat)
      | none => ExactRec.zero
    mine.add (nth ExactRec.zero p.scores k)
  let key (k : Nat) : W64 :=
    let mine : W64 := match own with
      | some rs => (nth dummy rs k).key
      | none => 0
    if mine.toNat < (nth 0 p.keys k).toNat then nth 0 p.keys k else mine
  let agree (i : Nat) : Bool := nth 0 p.checkMin i == nth 0 p.checkMax i && nth 0 words i == nth 0 p.checkMin i
  { scores := (List.range lanes).map (fun k => BitVec.ofNat 32 (toF32 ((sum k).value s false 0)))
    keys := (List.range lanes).map key
    count := if lanes == 0 then 1 else (sum 0).count.toNat
    agree := (List.range 4).all agree }

/-! ### Random streams (R242, Table 09.4) -/

/-- The generator of a purpose of a layer, for the instar that is opened. -/
def moultSeed (job : Nat) (instar layer purpose : Nat) : W64 := seedOf job instar layer 0 0 (purpose + 1) 0

/-- 32-bit keys by two draws each, the first giving the low half. -/
def drawKeys : W64 → List Nat → List (Nat × Nat)
  | _, [] => []
  | g, i :: is =>
    let a := lfsrDraw g
    let b := lfsrDraw a.2
    (i, a.1 + 65536 * b.1) :: drawKeys b.2 is

/-- `n` draws and the generator after them. -/
def drawMany : Nat → W64 → List Nat × W64
  | 0, g => ([], g)
  | n + 1, g =>
    let a := lfsrDraw g
    let r := drawMany n a.2
    (a.1 :: r.1, r.2)

/-- The `n` indices of the highest keys; among equal keys the lower index. -/
def topKeys (n : Nat) (ks : List (Nat × Nat)) : List Nat :=
  ((sortBy (fun a b => decide (b.2 < a.2) || (a.2 == b.2 && decide (a.1 ≤ b.1))) ks).take n).map (·.1)

/-- The candidates among dead blocks (R239). -/
def chooseCandidates (l : PlanLayer) (seed : W64) (dead : List Nat) : List Nat :=
  if l.allDead || dead.length ≤ l.cap then dead
  else sortBy (fun a b => decide (a ≤ b)) (topKeys l.cap (drawKeys seed dead))

/-! ### Drop and grow (R249 to R252) -/

/-- Drop order: NaN below every number, among equal scores the lower index. -/
def dropLe (a b : Nat × FVal) : Bool :=
  if a.2.isNan then !b.2.isNan || decide (a.1 ≤ b.1)
  else if b.2.isNan then false
  else a.2.lt b.2 || (!b.2.lt a.2 && decide (a.1 ≤ b.1))

/-- Gradient rank, of scores that are not NaN. -/
def gradLe (a b : Nat × FVal) : Bool := b.2.lt a.2 || (!a.2.lt b.2 && decide (a.1 ≤ b.1))

/-- Numbers of blocks: dropped D*, and grown by gradient rank Gg. -/
def growCounts (l : PlanLayer) (n candidates finite : Nat) : Nat × Nat :=
  let d := min (l.fraction * n / 65536) (if l.policy == 1 then candidates else finite)
  (d, if l.policy == 0 then d else if l.policy == 2 then d * l.mix / 256 else 0)

/-- Phase 4 of a layer: candidates and blocks by block index. `seed p` is the generator of purpose p. -/
def LayerRun.dropGrow (r : LayerRun) (l : PlanLayer) (blocks : List (Nat × Nat)) (cands : List Nat) (seed : Nat → W64) : LayerRun :=
  let red := r.reduced.getD ⟨[], [], 0, true⟩
  let scored := cands.zipIdx.map (fun p => (p.1, f32 (nth 0 red.scores p.2).toNat))
  let keyOf (i : Nat) : Nat := ((cands.zipIdx.find? (fun p => p.1 == i)).map (fun p => keyPattern (nth 0 red.keys p.2))).getD 0
  let usable := if l.sieved then scored.filter (fun p => !p.2.isNan) else scored
  let counts := growCounts l blocks.length cands.length usable.length
  let livs := blocks.zipIdx.map (fun p => (p.1.1, f32 (nth ({ score := 0, pattern := 0 } : ScoreRec) r.live p.2).score.toNat))
  let gone := (sortBy dropLe livs).take counts.1
  let grad := ((sortBy gradLe usable).take counts.2).map (·.1)
  let rest := sortBy (fun a b => decide (a ≤ b)) (cands.filter (fun i => !grad.contains i))
  let rnd := topKeys (counts.1 - counts.2) (if counts.1 == counts.2 then [] else drawKeys (seed 2) rest)
  let grown := sortBy (fun a b => decide (a ≤ b)) (grad ++ rnd)
  let pats := (drawMany grown.length (seed 3)).1
  let born := grown.zipIdx.map (fun p =>
    let pat := if l.full then 126 else if l.sieved then keyOf p.1 else nth 0 pats p.2 * 90 / 65536
    ({ index := p.1, pattern := BitVec.ofNat 8 pat, old := none } : NewBlock))
  let kept := (blocks.zipIdx.filter (fun p => !gone.any (fun x => x.1 == p.1.1))).map (fun p =>
    ({ index := p.1.1, pattern := BitVec.ofNat 8 (patternOf p.1.2), old := some p.2 } : NewBlock))
  { r with
    mask := sortBy (fun a b => decide (a.index ≤ b.index)) (kept ++ born)
    dropped := gone.length, grownGrad := grad.length, grownRand := rnd.length
    nonFinite := gone.countP (fun x => !x.2.isFin) }

/-- Phase 5 of a layer (R252). -/
def LayerRun.rechooseAll (r : LayerRun) (l : PlanLayer) (blocks : List (Nat × Nat)) (cands : Nat) : LayerRun :=
  if !l.rechoose then r
  else
    let red := r.reduced.getD ⟨[], [], 0, true⟩
    let js := twoFour blocks
    let f (b : NewBlock) : NewBlock :=
      match b.old.bind (fun j => js.findIdx? (· == j)) with
      | none => b
      | some k =>
        let p := keyPattern (nth 0 red.keys (cands + k))
        if p < 90 && p != b.pattern.toNat then { b with pattern := BitVec.ofNat 8 p, rechosen := true } else b
    let mask := r.mask.map f
    { r with mask := mask, rechosen := mask.countP (·.rechosen) }

/-! ### The new layout (R238, R253 to R257) -/

/-- Where the value at a position of the new layout comes from. -/
inductive Origin where
  | pad
  | fresh (v : FVal)
  | old (p : Nat)

/-- Grid positions of a pattern's values in value order (R206). -/
def livePositions (p : Nat) : List Nat :=
  if p == 126 then List.range 16
  else (List.range 4).flatMap (fun r => let c := rowCols (nth 0 (patternCodes p) r); [4 * r + c.1, 4 * r + c.2])

/-- Old positions of a new block's values; none where a position is new. -/
def NewBlock.sources (b : NewBlock) (blocks : List (Nat × Nat)) (stride : Nat) : List (Option Nat) :=
  (livePositions b.pattern.toNat).map (fun q => b.old.bind (fun j =>
    ((livePositions (patternOf (nth (0, 0) blocks j).2)).findIdx? (· == q)).map (fun v => stride * j + v)))

/-- Initial value of a draw (R255). -/
def initValue (l : PlanLayer) (draw : Nat) : FVal :=
  let d : Int := (draw : Int) - 32768
  (f32 l.scale).mul (.fin (decide (d < 0)) d.natAbs (-15))

/-- Initial values by block index: grown blocks first, then re-chosen ones, each in ascending index. -/
def freshValues (l : PlanLayer) (seed : W64) (mask : List NewBlock) (srcs : NewBlock → List (Option Nat)) : List (Nat × List FVal) :=
  let order := mask.filter (fun b => b.old.isNone) ++ mask.filter (fun b => b.old.isSome && b.rechosen)
  (order.foldl (fun (a : List (Nat × List FVal) × W64) b =>
    let n := (srcs b).countP (·.isNone)
    if l.init == 0 then (a.1 ++ [(b.index, List.replicate n .zero)], a.2)
    else
      let ds := drawMany n a.2
      (a.1 ++ [(b.index, ds.1.map (initValue l))], ds.2)) ([], seed)).1

/-- New positions take the values of a list in turn. -/
def fillFresh : List (Option Nat) → List FVal → List Origin
  | [], _ => []
  | some p :: ss, vs => .old p :: fillFresh ss vs
  | none :: ss, v :: vs => .fresh v :: fillFresh ss vs
  | none :: ss, [] => .fresh .zero :: fillFresh ss []

/-- Origins of every position of the new layout. -/
def origins (mask : List NewBlock) (srcs : NewBlock → List (Option Nat)) (stride : Nat) (vals : List (Nat × List FVal)) : List Origin :=
  mask.flatMap (fun b =>
    let o := fillFresh (srcs b) (((vals.find? (fun p => p.1 == b.index)).map (·.2)).getD [])
    o ++ List.replicate (stride - o.length) .pad)

/-- Bring a companion's origins: every new position is +0 (R256). -/
def Origin.cleared : Origin → Origin
  | .fresh _ => .fresh .zero
  | o => o

/-- A group of an MX tensor is unchanged: a whole old group at the same offsets (R254). -/
def sameGroup (os : List Origin) (total : Nat) : Option Nat :=
  match os with
  | .old b :: _ =>
    if b % 32 == 0 && min 32 (total - b) == os.length && os.zipIdx.all (fun p => match p.1 with
        | .old q => q == b + p.2
        | .pad => true
        | .fresh _ => false) then some b else none
  | _ => none

/-- Value and scale bytes of the new layout. -/
def Stored.rebuild (s : Stored) (f : Fmt) (total : Nat) (os : List Origin) : Stored :=
  let exact (o : Origin) : FVal := match o with
    | .old p => s.value f p
    | .fresh v => v
    | .pad => .zero
  if f.isMx then
    let groups := (List.range (ceilDiv os.length 32)).map (fun q => (os.drop (32 * q)).take 32)
    let rs := groups.map (fun g => match sameGroup g total with
      | some b => ((nth 0 s.scales (b / 32)).toNat, (List.range g.length).map (fun i => unpack f s.values (b + i)))
      | none =>
        let r := mxQuantise f (g.map (fun o => (exact o, .rn))) false
        (r.1, r.2.1))
    { values := packElems f (rs.flatMap (·.2)), scales := rs.map (fun r => BitVec.ofNat 8 r.1) }
  else
    { values := packElems f (os.map (fun o => match o with
        | .old p => unpack f s.values p
        | .fresh v => (encode f v .rn false).1
        | .pad => 0)), scales := [] }

/-- Arrays one after another, each at the next 64-byte boundary. -/
def layOut : Nat → List (List Byte) → List (Nat × List Byte)
  | _, [] => []
  | a, x :: xs => let o := 64 * ceilDiv a 64; (o, x) :: layOut (o + x.length) xs

/-- A header of the new parity (R253): other fields as they were. -/
def Tensor.newHead (x : Tensor) (n instar : Nat) (values scales descs rows cols perm : Nat) : List Byte :=
  slice x.head 0 16 ++ leBytes 4 n ++ leBytes 4 instar ++ leBytes 8 values ++ leBytes 8 (if x.fmt.isMx then scales else 0) ++ leBytes 8 descs ++
  leBytes 8 rows ++ leBytes 8 cols ++ leBytes 8 perm ++ slice x.head 72 56

/-- Poison the lines of a tenant's range. -/
def Chip.vpoisonRange (c : Chip) (t : TenantId) (a n : Nat) : Chip :=
  (List.range (n / 64 + 2)).foldl (fun (c : Chip) i =>
    let va := 64 * (a / 64 + i)
    if a + n ≤ va then c
    else match c.physOf t va with
      | some e => { c with mem := c.mem.poisonLine (e.phys va / 64) }
      | none => c) c

/-- The lines of a copied tensor that take poison from their sources (R324): of a block's values, and in an MX tensor of its group. -/
def Chip.copyPoison (c : Chip) (t : TenantId) (x : Tensor) (mask : List NewBlock) (values : Nat) : Chip :=
  let w := x.stride * x.fmt.width
  let dirty := mask.map (fun b => match b.old with
    | some j => c.vpoison t (x.values + j * w / 8) (ceilDiv w 8) ||
        (x.fmt.isMx && c.vpoison t (x.scales + x.stride * j / 32) 1)
    | none => false)
  let near (k : Nat) : Bool :=
    if x.fmt.isMx then (List.range (32 / x.stride)).any (fun i => nth false dirty (k / (32 / x.stride) * (32 / x.stride) + i))
    else nth false dirty k
  ((List.range mask.length).filter near).foldl (fun (c : Chip) k => c.vpoisonRange t (values + k * w / 8) (ceilDiv w 8)) c

/-- Phases 6 to 8 of a layer: the arrays that fit are written, and with all of them the headers of the new parity; the answer is the
layer with the bytes used, and its status. -/
def Chip.rebuildLayer (c : Chip) (t : TenantId) (l : PlanLayer) (r : LayerRun) (par instar : Nat) (seed : Nat → W64) : Chip × LayerRun :=
  let x := c.tensorAt t (l.weight + 128 * par)
  let blocks := c.blocksOf t x
  let st := x.stride
  let srcs (b : NewBlock) : List (Option Nat) := b.sources blocks st
  let os := origins r.mask srcs st (freshValues l (seed 4) r.mask srcs)
  let idx := r.mask.map (·.index)
  let word (ns : List Nat) : List Byte := ns.flatMap (leBytes 4)
  let cv := columnView x.kb idx
  let w := (c.stored t x).rebuild x.fmt (st * x.n) os
  let comps := l.companions.map (fun a => c.tensorAt t (a + 128 * par))
  let cs := comps.map (fun (y : Tensor) => (c.stored t y).rebuild y.fmt (st * x.n) (os.map Origin.cleared))
  let lists := [word (r.mask.map (fun b => b.pattern.toNat * 2 ^ 20 + b.index % x.kb)), word (rowPointers x.mb x.kb idx)] ++
    (if x.column then [word cv.1, word cv.2] else []) ++ [w.values] ++ (if x.fmt.isMx then [w.scales] else []) ++
    (comps.zip cs).flatMap (fun p => [p.2.values] ++ (if p.1.fmt.isMx then [p.2.scales] else []))
  let base := nth 0 l.regions (instar % 2)
  let placed := layOut 0 lists
  let fits := placed.takeWhile (fun p => decide (p.1 + p.2.length ≤ l.size))
  let c1 := fits.foldl (fun (c : Chip) p => c.vwrite t (base + p.1) p.2) c
  let used := match fits.reverse with
    | p :: _ => p.1 + p.2.length
    | [] => 0
  if fits.length < placed.length then (c1, { r with built := true, used := used, status := BitVec.ofNat 16 stCapacity })
  else
    let at' (i : Nat) : Nat := base + (nth (0, []) placed i).1
    let v0 := if x.column then 4 else 2
    let cols := if x.column then at' 2 else 0
    let perm := if x.column then at' 3 else 0
    let head (y : Tensor) (i : Nat) : List Byte := y.newHead r.mask.length instar (at' i) (at' (i + 1)) (at' 0) (at' 1) cols perm
    let step (i : Nat) (y : Tensor) : Nat := i + 1 + b2n y.fmt.isMx
    let slot := 128 * (instar % 2)
    let c2 := (c1.vwrite t (l.weight + slot) (head x v0)).copyPoison t x r.mask (at' v0)
    let c3 := ((l.companions.zip comps).foldl (fun (a : Chip × Nat) p =>
      ((a.1.vwrite t (p.1 + slot) (head p.2 a.2)).copyPoison t p.2 r.mask (at' a.2), step a.2 p.2)) (c2, step v0 x)).1
    (c3, { r with built := true, used := used })

/-- A layer record (Table 09.3). -/
def LayerRun.record (r : LayerRun) (instar candidates list : Nat) : List Byte :=
  leBytes 4 instar ++ leBytes 4 r.mask.length ++ leBytes 4 candidates ++ leBytes 4 r.dropped ++ leBytes 4 r.grownGrad ++
  leBytes 4 r.grownRand ++ leBytes 4 r.rechosen ++ leBytes 4 r.nonFinite ++ leBytes 2 r.status.toNat ++ leBytes 6 0 ++ leBytes 8 list ++
  leBytes 8 r.used ++ leBytes 8 0

/-- The new candidate list and the layer record (R257). -/
def Chip.closeLayer (c : Chip) (t : TenantId) (l : PlanLayer) (r : LayerRun) (par instar : Nat) (seed : Nat → W64) : Chip × LayerRun :=
  let x := c.tensorAt t (l.weight + 128 * par)
  let dead := (List.range (x.mb * x.kb)).filter (fun i => !r.mask.any (fun b => b.index == i))
  let cands := if r.status == 0 then chooseCandidates l (seed 1) dead else []
  let off := 64 * ceilDiv r.used 64
  let list := nth 0 l.regions (instar % 2) + off
  let room := decide (off + 8 * cands.length ≤ l.size)
  let c := if r.status == 0 && room then
      c.vwrite t list (cands.flatMap (fun i => leBytes 4 (i / x.kb) ++ leBytes 4 (i % x.kb))) else c
  let r := if r.status != 0 then r
    else if room then { r with used := off + 8 * cands.length } else { r with status := BitVec.ofNat 16 stCapacity }
  (c.vwrite t (l.records + 64 * (instar % 2)) (r.record instar cands.length list), { r with done := true })

end Sys2Proof
end

