-- ==== Sys2Proof/Machine/MoultRun.lean ====
section
/-! DEFINITION. The moult sequencers (R243, R244, R258 to R261), their events and the `instar.` commands. -/
namespace Sys2Proof

/-! ### Dies and layers -/

def Chip.seq (c : Chip) (d : Nat) : Sequencer := nth {} c.seqs d
def Chip.modSeqs (c : Chip) (f : Nat → Sequencer → Sequencer) : Chip := { c with seqs := c.seqs.zipIdx.map (fun p => f p.2 p.1) }
def Chip.modSeq (c : Chip) (d : Nat) (f : Sequencer → Sequencer) : Chip := { c with seqs := modNth c.seqs d f }

/-- The die that homes a layer's weight headers (R243); die 0 when they do not translate (log 22). -/
def Chip.layerDie (c : Chip) (t : TenantId) (l : PlanLayer) : Nat :=
  match c.physOf t l.weight with
  | some e => homeDie (e.phys l.weight)
  | none => 0

/-- Layers of a plan that a die moults, in plan order. -/
def Chip.dieLayers (c : Chip) (t : TenantId) (p : Plan) (d : Nat) : List Nat :=
  (List.range p.layers.length).filter (fun i => c.layerDie t (p.layer i) == d)

/-- A core of the job runs on a die: its update is not complete there (R33). -/
def Chip.updating (c : Chip) (h : JobId) (d : Nat) : Bool :=
  c.cores.any (fun p => p.2.running && p.2.job == some h && (clusterDie (clusterOf (BitVec.ofNat 20 p.1))).toNat == d)

/-- A layer of a job as the sequencers hold it. -/
def Chip.layerRun (c : Chip) (h : JobId) (i : Nat) : Option LayerRun :=
  c.seqs.findSome? (fun s => if s.running && s.job == h then s.layers.find? (fun r => r.index == i) else none)

/-- Layers of a plan by plan order, as far as their dies have begun. -/
def Chip.planRuns (c : Chip) (h : JobId) (p : Plan) : List (Option LayerRun) := (List.range p.layers.length).map (c.layerRun h)

/-- Every layer is done. -/
def Chip.moultDone (c : Chip) (h : JobId) (p : Plan) : Bool :=
  (c.planRuns h p).all (fun r => match r with
    | some r => r.done
    | none => false)

/-- Statuses of layers that failed, in plan order. -/
def Chip.moultFaults (c : Chip) (h : JobId) (p : Plan) : List W16 :=
  (c.planRuns h p).filterMap (fun r => match r with
    | some r => if r.status == 0 then none else some r.status
    | none => none)

/-! ### The phases -/

/-- An armed moult that comes before another on a die (R244). -/
def Chip.moultAhead (c : Chip) (d : Nat) (h : Nat) (start : Nat) : Bool :=
  c.jobs.any (fun q => match q.2.moult, q.2.plan with
    | some m, some p => !m.begun.contains d && !(c.dieLayers q.2.tenant p d).isEmpty &&
        (decide (m.start.toNat < start) || (m.start.toNat == start && decide (q.1 < h)))
    | _, _ => false)

/-- MOULT_START (R33, R241, R243, R244). -/
def Chip.moultStart (c : Chip) (v : Env) (d : DieId) (h : JobId) : Chip :=
  match c.job h with
  | none => c
  | some j => match j.moult, j.plan with
    | some m, some p =>
      let ls := c.dieLayers j.tenant p d.toNat
      if v.ns < m.start.toNat || ls.isEmpty || m.vote.isSome || m.begun.contains d.toNat || (c.seq d.toNat).running ||
          c.updating h d.toNat || c.moultAhead d.toNat h.toNat m.start.toNat then c
      else
        let held := match c.group p.group with
          | some g => g.lastWithheld || g.desync
          | none => false
        let first := m.begun.isEmpty
        let m1 : Moult := { m with begun := m.begun ++ [d.toNat], withheld := if first then held else m.withheld }
        let c := (c.setJob h { j with moult := some m1 }).modSeq d.toNat (fun (s : Sequencer) =>
          { s with running := true, job := h, phase := 1, current := 0, layers := ls.map (fun i => { index := i }) })
        if first then c.stamp v 26 p.group.toNat else c
    | _, _ => c

/-- What a sequencer works on: its job, plan, layer in progress with its entry and its tensor, and the parity of the current instar. -/
structure DieRun where
  seq : Sequencer
  job : Job
  plan : Plan
  layer : LayerRun
  entry : PlanLayer
  tensor : Tensor
  par : Nat

def Chip.dieRun (c : Chip) (d : DieId) (phase : Nat) : Option DieRun :=
  let s := c.seq d.toNat
  if !s.running || s.phase.toNat != phase then none
  else match c.job s.job, s.layers[s.current]? with
    | some j, some r => match j.plan with
      | some p =>
        let par := j.instar.toNat % 2
        let e := p.layer r.index
        some { seq := s, job := j, plan := p, layer := r, entry := e, tensor := c.tensorAt j.tenant (e.weight + 128 * par), par := par }
      | none => none
    | _, _ => none

/-- Generator of a purpose of the layer, for the instar that the moult opens (R242). -/
def DieRun.seed (x : DieRun) (purpose : Nat) : W64 := moultSeed x.job.seed.toNat (x.job.instar.toNat + 1) x.entry.number purpose

/-- The layer in progress becomes `r`, and the sequencer is in a phase. -/
def Chip.layerStep (c : Chip) (d : DieId) (r : LayerRun) (phase : Nat) : Chip :=
  c.modSeq d.toNat (fun (s : Sequencer) => { s with layers := setNth s.layers s.current r, phase := BitVec.ofNat 4 phase })

/-- The layer in progress becomes `r`; the next layer follows in phase `again`, or, after the last one, phase `last` from the first. -/
def Chip.layerNext (c : Chip) (d : DieId) (r : LayerRun) (again last : Nat) : Chip :=
  c.modSeq d.toNat (fun (s : Sequencer) =>
    let more := decide (s.current + 1 < s.layers.length)
    { s with
      layers := setNth s.layers s.current r
      current := if more then s.current + 1 else if last == 9 then s.current else 0
      phase := BitVec.ofNat 4 (if more then again else last) })

/-- MOULT_SCORE (R245): a tensor that fails the checks of R214 fails its layer (Table 09.7). -/
def Chip.moultScore (c : Chip) (d : DieId) : Chip :=
  match c.dieRun d 1 with
  | none => c
  | some x =>
    let t := x.job.tenant
    let sound := !tensorBad x.tensor.head && c.tensorSound t x.tensor &&
      x.entry.companions.all (fun a => !tensorBad (c.vread t (a + 128 * x.par) 128))
    c.layerStep d (if sound then { x.layer with live := c.scoreLive t x.tensor }
      else { x.layer with status := BitVec.ofNat 16 stBadParam }) 2

/-- MOULT_SIEVE (R240): the sieve buffer as it stands. -/
def Chip.moultSieve (c : Chip) (d : DieId) : Chip :=
  match c.dieRun d 2 with
  | none => c
  | some x =>
    let t := x.job.tenant
    let lanes := if x.layer.status == 0 then
        c.sieveLanes t x.entry (c.candidates t x.entry x.par x.tensor.kb).length (c.blocksOf t x.tensor)
      else []
    c.layerNext d { x.layer with sieve := lanes } 1 3

/-- What phase 3 gives for the layer of a plan index (R246, R247, R463). -/
def Chip.reduceLayer (c : Chip) (j : Job) (p : Plan) (m : Moult) (peers : List PeerLanes) (i : Nat) (r : LayerRun) : Reduced :=
  let l := p.layer i
  let x := c.tensorAt j.tenant (l.weight + 128 * (j.instar.toNat % 2))
  let red := reduceLanes p.sumExp.toInt (if m.withheld then none else some r.sieve) r.sieve.length (c.checkWords j.tenant i x r.live)
    (nth ⟨[], [], [], []⟩ peers i)
  { red with agree := red.agree && !c.vpoison j.tenant x.descs (4 * x.n) }

/-- The cancellation that the reduced values ask for, of the first layer in plan order (R247). -/
def reduceFault (p : Plan) (rs : List Reduced) : Option Nat :=
  rs.zipIdx.findSome? (fun x =>
    if !x.1.agree then some stDigest
    else if (p.layer x.2).sieved && x.1.count == 0 then some stNotFinite else none)

/-- The sequencers of a job's moult end it (R259, Table 09.8): dies with its layers show its status; a die that runs another moult keeps
its phase. -/
def Chip.endSeqs (c : Chip) (h : JobId) (dies : List Nat) (status : Nat) (desync : Bool) : Chip :=
  c.modSeqs (fun d (s : Sequencer) =>
    let s : Sequencer := if desync then { s with desync := true } else s
    if !dies.contains d then s
    else
      let s : Sequencer := { s with last := BitVec.ofNat 16 status, committed := status == stOk, cancelled := status != stOk }
      if s.running && s.job != h then s
      else { s with running := false, job := h, phase := 0, current := 0, layers := [] })

/-- Dies that handle layers of a plan. -/
def Chip.planDies (c : Chip) (t : TenantId) (p : Plan) : List Nat := (List.range 8).filter (fun d => !(c.dieLayers t p d).isEmpty)

/-- Local dies whose layers are not done, as unit entries (R499, Table 20.10). -/
def Chip.lateDies (c : Chip) (h : JobId) (t : TenantId) (p : Plan) : List Nat :=
  (c.planDies t p).filter (fun d => (c.dieLayers t p d).any (fun i => match c.layerRun h i with
    | some r => !r.done
    | none => true))

/-- Reply of an `ARM_FAILED` with its unit entries (R499). -/
def armFailed (es : List Nat) : Reply :=
  { status := stArmFailed, body := leBytes 4 es.length ++ (es.take 22).flatMap (leBytes 4), data := es.flatMap (leBytes 4) }

/-- The packet that armed a moult of a job. -/
def moultPkt (h : JobId) (k : Pkt) : Bool := k.op == 0x0601 && k.n 32 2 == h.toNat

/-- A moult is cancelled (R259, Table 09.7). -/
def Chip.cancelMoult (c : Chip) (v : Env) (h : JobId) (j : Job) (p : Plan) (r : Reply) : Chip :=
  let c := c.endSeqs h (c.planDies j.tenant p) r.status (r.status == stTimeout)
  let c := if r.status == stTimeout then c.modGroup p.group (fun (g : Group) => { g with desync := true }) else c
  ((c.setJob h { j with moult := none }).stamp v 28 p.group.toNat).finishWaiting v (moultPkt h) r

/-- MOULT_REDUCE (R246, R247): every layer's lanes are ready on every die. -/
def Chip.moultReduce (c : Chip) (v : Env) (h : JobId) (peers : List PeerLanes) : Chip :=
  match c.job h with
  | none => c
  | some j => match j.moult, j.plan with
    | some m, some p =>
      let ready := c.seqs.all (fun s => !(s.running && s.job == h) || s.phase == 3)
      let runs := (c.planRuns h p).filterMap id
      if m.reduced || !ready || runs.length != p.layers.length || runs.any (fun r => r.status != 0) then c
      else
        let rs := runs.zipIdx.map (fun x => c.reduceLayer j p m peers x.2 x.1)
        match reduceFault p rs with
        | some st => c.cancelMoult v h j p (refuse st)
        | none =>
          (c.setJob h { j with moult := some { m with reduced := true } }).modSeqs (fun _ (s : Sequencer) =>
            if s.running && s.job == h then
              { s with phase := 4, current := 0, layers := s.layers.map (fun (r : LayerRun) => { r with reduced := rs[r.index]? }) }
            else s)
    | _, _ => c

/-- MOULT_DROP_GROW (R249 to R251). -/
def Chip.moultDropGrow (c : Chip) (d : DieId) : Chip :=
  match c.dieRun d 4 with
  | none => c
  | some x =>
    let t := x.job.tenant
    c.layerStep d (x.layer.dropGrow x.entry (c.blocksOf t x.tensor) (c.candidates t x.entry x.par x.tensor.kb) x.seed) 5

/-- MOULT_RECHOOSE (R252). -/
def Chip.moultRechoose (c : Chip) (d : DieId) : Chip :=
  match c.dieRun d 5 with
  | none => c
  | some x =>
    let t := x.job.tenant
    c.layerStep d (x.layer.rechooseAll x.entry (c.blocksOf t x.tensor) (c.candidates t x.entry x.par x.tensor.kb).length) 6

/-- MOULT_REBUILD (R253 to R256). -/
def Chip.moultRebuild (c : Chip) (d : DieId) : Chip :=
  match c.dieRun d 6 with
  | none => c
  | some x =>
    let r := c.rebuildLayer x.job.tenant x.entry x.layer x.par (x.job.instar.toNat + 1) x.seed
    r.1.layerStep d r.2 8

/-- MOULT_CANDIDATES (R257). -/
def Chip.moultCandidates (c : Chip) (d : DieId) : Chip :=
  match c.dieRun d 8 with
  | none => c
  | some x =>
    let r := c.closeLayer x.job.tenant x.entry x.layer x.par (x.job.instar.toNat + 1) x.seed
    r.1.layerNext d r.2 4 9

/-! ### Vote and commit -/

/-- The vote of a chip goes out (source 22); one that is not sent by its deadline is recorded (R248). -/
def Chip.voteSent (c : Chip) (v : Env) (g : GroupId) (step : Nat) (deadline : Nat) : Chip :=
  (if deadline < v.ns then c.ledger v g step 7 0 0 else c).stamp v 22 (groupData g (BitVec.ofNat 48 step))

/-- MOULT_VOTE (R248, R257, R258): when every layer is done, when one has failed, or at the vote deadline. -/
def Chip.moultVote (c : Chip) (v : Env) (h : JobId) : Chip :=
  match c.job h with
  | none => c
  | some j => match j.moult, j.plan with
    | some m, some p =>
      let done := c.moultDone h p
      let bad := !(c.moultFaults h p).isEmpty
      if m.vote.isSome || !(done || bad || decide (m.deadline.toNat ≤ v.ns)) then c
      else
        let one := done && !bad && decide (v.ns ≤ m.deadline.toNat)
        (c.setJob h { j with moult := some { m with vote := some one } }).voteSent v p.group (j.instar.toNat + 1) m.deadline.toNat
    | _, _ => c

/-- MOULT_VOTE_RESULT (R258): a 0 cancels at once. -/
def Chip.moultVoteResult (c : Chip) (v : Env) (h : JobId) (peers : BitVec 64) : Chip :=
  match c.job h with
  | none => c
  | some j => match j.moult, j.plan with
    | some m, some p =>
      if m.result.isSome || m.commit.toNat ≤ v.ns then c
      else match m.vote with
        | none => c
        | some one =>
          if one && peers != 0 then
            (c.setJob h { j with moult := some { m with result := some true } }).modSeqs (fun _ (s : Sequencer) =>
              if s.running && s.job == h then { s with phase := 10 } else s)
          else c.cancelMoult v h j p (match c.moultFaults h p with
            | st :: _ => refuse st.toNat
            | [] => armFailed ((c.lateDies h j.tenant p).map (fun d => 0x40000000 + d)))
    | _, _ => c

/-- MOULT_COMMIT (R232, R234, R259). -/
def Chip.moultCommit (c : Chip) (v : Env) (h : JobId) : Chip :=
  match c.job h with
  | none => c
  | some j => match j.moult, j.plan with
    | some m, some p =>
      if m.result == some true && m.commit.toNat ≤ v.ns then
        let n := j.instar + 1
        let c := (c.endSeqs h (c.planDies j.tenant p) stOk false).vwrite j.tenant p.word.toNat (leBytes 8 n.toNat)
        ((c.setJob h { j with moult := none, instar := n }).stamp v 27 p.group.toNat).finishWaiting v (moultPkt h) ok
      else c
    | _, _ => c

/-- MOULT_TIMEOUT (R260). -/
def Chip.moultTimeout (c : Chip) (v : Env) (h : JobId) : Chip :=
  match c.job h with
  | none => c
  | some j => match j.moult, j.plan with
    | some m, some p =>
      if m.result.isNone && m.commit.toNat ≤ v.ns then c.cancelMoult v h j p (refuse stTimeout) else c
    | _, _ => c

/-! ### Registers (Tables 09.8, 09.9) -/

/-- A moult is armed on a die. -/
def Chip.armedOn (c : Chip) (d : Nat) : Bool :=
  c.jobs.any (fun q => match q.2.moult, q.2.plan with
    | some _, some p => !(c.dieLayers q.2.tenant p d).isEmpty
    | _, _ => false)

def Chip.mltStatus (c : Chip) (d : Nat) : W64 :=
  let s := c.seq d
  let layer := match s.layers[s.current]? with
    | some r => r.index % 4096
    | none => 0
  BitVec.ofNat 64 (s.last.toNat * 2 ^ 32 + layer * 2 ^ 20 + s.job.toNat * 2 ^ 8 + s.phase.toNat * 16 + 8 * b2n s.desync +
    4 * b2n s.cancelled + 2 * b2n s.committed + b2n (c.armedOn d))

def Chip.mltInstar (c : Chip) (j : Nat) : Nat := match tblFind c.jobs j with
  | some x => x.instar.toNat
  | none => 0

/-- A write of MLT_STATUS; once no die shows DESYNC, the groups contribute again (R260). -/
def Chip.writeMltStatus (c : Chip) (d : Nat) (w : W64) : Chip :=
  let c := c.modSeq d (fun (s : Sequencer) =>
    { s with desync := s.desync && !w.getLsbD 3, cancelled := s.cancelled && !w.getLsbD 2, committed := s.committed && !w.getLsbD 1 })
  if c.seqs.any (·.desync) then c
  else { c with coll := { c.coll with groups := tblMap c.coll.groups (fun _ (g : Group) => { g with desync := false }) } }

/-! ### Commands -/

/-- `instar.plan` (R232, R235 to R237): the first instar's layer records hold zero counts. -/
def Chip.instarPlan (c : Chip) (v : Env) (k : Pkt) : Chip × Reply :=
  match c.jobOf k (k.n 32 2) with
  | .error s => (c, refuse s)
  | .ok (h, j) =>
    let first := k.n 48 4
    match j.moult with
    | some m => (c, { status := stBusy, hint := usTo v m.commit.toNat })
    | none => match c.readPlan k.space j.tenant (k.n 40 8) (first % 2) with
      | none => (c, refuse stBadParam)
      | some p =>
        let c := c.setJob h { j with plan := some p, instar := BitVec.ofNat 32 first }
        ((List.range p.layers.length).foldl (fun (c : Chip) i =>
          c.vwrite j.tenant ((p.layer i).records + 64 * (first % 2)) (leBytes 4 first ++ List.replicate 60 0)) c, ok)

/-- `instar.moult` (R232, R236, R261, R498): the plan is read again where it was registered (log 43). -/
def Chip.instarMoult (c : Chip) (v : Env) (k : Pkt) : Chip × Option Reply :=
  let start := k.n 40 8
  let deadline := k.n 48 8
  let commit := k.n 56 8
  match c.jobOf k (k.n 32 2) with
  | .error s => (c, some (refuse s))
  | .ok (h, j) =>
    match j.plan.bind (fun p => c.readPlan p.space j.tenant p.addr.toNat (j.instar.toNat % 2)) with
    | none => (c, some (refuse stBadParam))
    | some p =>
      if deadline ≤ start || commit < deadline + 20000 || nearEnd commit then (c, some (refuse stBadParam))
      else match c.groupOf k p.group.toNat, j.moult with
        | .error s, _ => (c, some (refuse s))
        | .ok _, some m => (c, some { status := stBusy, hint := usTo v m.commit.toNat })
        | .ok _, none =>
          if j.instar == BitVec.allOnes 32 then (c, some (refuse stCapacity))
          else if deadline < v.ns then (c.voteSent v p.group (j.instar.toNat + 1) deadline, some (armFailed []))
          else
            let m : Moult := { start := BitVec.ofNat 64 start, deadline := BitVec.ofNat 64 deadline, commit := BitVec.ofNat 64 commit }
            (c.setJob h { j with plan := some p, moult := some m }, none)

/-- `instar.query` (R264): the job's instar, and MLT_STATUS of each die. -/
def Chip.instarQuery (c : Chip) (k : Pkt) : Chip × Reply :=
  match c.jobOf k (k.n 32 2) with
  | .error s => (c, refuse s)
  | .ok (_, j) => (c, { status := stOk, body := leBytes 8 j.instar.toNat ++ (List.range 8).flatMap (fun d => leBytes 8 (c.mltStatus d).toNat) })

end Sys2Proof
end

