-- ==== Sys2Proof/Machine/Chrysalis.lean ====
section
/-! DEFINITION. Digest maps, records and commands (R460 to R466), and chrysalis snapshots (R468 to R471). -/
namespace Sys2Proof

/-! ### Digest maps (R465, Tables 18.7, 18.8) -/

/-- An entry of a digest map. -/
structure MapEntry where
  region : Nat
  set : Nat
  kind : Nat
  fmt : Nat
  parity : Nat
  base : Nat
  length : Nat

def MapEntry.ofBytes (e : List Byte) : MapEntry :=
  { region := fieldLe e 0 4, set := fieldLe e 4 1, kind := fieldLe e 5 1, fmt := fieldLe e 6 1, parity := fieldLe e 7 1,
    base := fieldLe e 8 8, length := fieldLe e 16 8 }

/-- The parity condition holds in an instar. -/
def MapEntry.holds (e : MapEntry) (instar : Nat) : Bool := e.parity == 0 || (e.parity == 1 && instar % 2 == 0) || (e.parity == 2 && instar % 2 == 1)

def MapEntry.bad (e : MapEntry) : Bool :=
  e.region == 0 || decide (3 < e.set) || decide (5 < e.kind) || (e.fmt != 15 && (Fmt.ofCode e.fmt).isNone) || decide (2 < e.parity) ||
  e.base % 64 != 0 || decide (2 ^ 48 < e.base + e.length)

/-- Entries of a map of a tenant's memory. -/
def Chip.mapEntries (c : Chip) (t : TenantId) (a : Nat) : List (List Byte) :=
  (List.range (min 65536 (c.vreadLe t (a + 8) 4))).map (fun i => c.vread t (a + 32 + 32 * i) 32)

/-- No two regions of a list share a byte. -/
def apart : List MapEntry → Bool
  | [] => true
  | e :: es => es.all (fun x => !overlap e.base e.length x.base x.length) && apart es

/-- A map that breaks R465 or its tables. -/
def Chip.mapBad (c : Chip) (t : TenantId) (a : Nat) : Bool :=
  let h := c.vread t a 32
  let bs := c.mapEntries t a
  let es := bs.map MapEntry.ofBytes
  fieldLe h 0 4 != 0x504D4744 || fieldLe h 4 2 != 1 || !zeroBytes h 6 2 || fieldLe h 8 4 == 0 || decide (65536 < fieldLe h 8 4) ||
  !zeroBytes h 12 20 || bs.any (fun b => !zeroBytes b 24 8) || es.any MapEntry.bad || !distinct (es.map (·.region)) || !apart es

/-- `digest.ring` (R465). -/
def Chip.digestRing (c : Chip) (k : Pkt) : Chip × Reply :=
  match c.jobOf k (k.n 32 2) with
  | .error s => (c, refuse s)
  | .ok (h, j) =>
    if !powTwoIn (k.n 48 4) 6 16 || 2 ^ 48 ≤ k.n 40 8 || 2 ^ 48 ≤ k.n 56 8 || c.mapBad j.tenant (k.n 56 8) then (c, refuse stBadParam)
    else (c.setJob h { j with digestBase := k.n 40 8, digestRecords := k.n 48 4, digestMap := k.n 56 8 }, ok)

/-- `digest.region` (R460 to R463). -/
def Chip.digestRegion (c : Chip) (k : Pkt) : Chip × Reply :=
  let a := k.n 40 8
  let n := k.n 48 8
  if 2 ^ 52 < a + n then (c, refuse stBadParam)
  else
    let d := c.digestOf k.space (k.n 56 4) a n
    (c, { status := stOk, body := leBytes 16 d.1 ++ [BitVec.ofNat 8 (b2n d.2)] })

/-! ### Digest records (R466, Table 18.4) -/

/-- Digest of the regions of a set whose parity condition holds, and whether it carries the poisoned flag. -/
def Chip.setDigest (c : Chip) (t : TenantId) (es : List MapEntry) : Nat × Bool :=
  es.foldl (fun (a : Nat × Bool) e =>
    let d := c.digestOf (some t) e.region e.base e.length
    ((a.1 + d.1) % 2 ^ 128, a.2 || d.2)) (0, false)

/-- The guard record of a step, of the plan's group or else of the tenant's first group that has one: decision and contributor count;
zeros when no record shows the step. -/
def Chip.guardOf (c : Chip) (j : Job) : Nat × Nat :=
  let named := (j.plan.bind (fun p => c.group p.group)).toList ++ (c.coll.groups.filter (fun q => q.2.tenant == j.tenant)).map (·.2)
  match named.findSome? (fun g => g.guard) with
  | none => (0, 0)
  | some g =>
    let r := c.vread j.tenant g.addr 32
    if fieldLe r 0 8 == j.step.toNat then (fieldLe r 8 1, fieldLe r 12 4) else (0, 0)

/-- Bytes 16 to 127 of a digest record with the flags of byte 87. -/
def Chip.digestBody (c : Chip) (j : Job) (flags : Nat) (w s i : Nat) : List Byte :=
  leBytes 16 j.image.digest.toNat ++ leBytes 16 w ++ leBytes 16 s ++ leBytes 16 i ++ leBytes 6 j.step.toNat ++ leBytes 1 (b2n j.exact) ++
  leBytes 1 flags ++ leBytes 8 j.seed.toNat ++ leBytes 4 j.instar.toNat ++ leBytes 4 (c.guardOf j).2 ++ List.replicate 24 0

/-- DIGEST_CLOSE (R462, R466): once no write of the job's clusters waits in a buffer; the job's step ends (R459). -/
def Chip.digestClose (c : Chip) (v : Env) (h : JobId) : Chip :=
  match c.job h with
  | none => c
  | some j =>
    if j.digestRecords == 0 || j.clusters.any (fun cl => !(c.cluster cl).wb.isEmpty) then c
    else
      let es := ((c.mapEntries j.tenant j.digestMap).map MapEntry.ofBytes).filter (fun e => e.holds j.instar.toNat)
      let of (n : Nat) : Nat × Bool := c.setDigest j.tenant (es.filter (fun e => e.set == n))
      let w := of 1
      let s := of 2
      let i := of 3
      let skip := decide (3 ≤ (c.guardOf j).1)
      let fixed := b2n (w.2 || s.2 || i.2) + 8 * b2n skip
      let record := sha128 (c.digestBody j fixed w.1 s.1 i.1)
      let body := c.digestBody j (fixed + j.digestFlags.toNat) w.1 s.1 i.1
      let c := c.vringPut j.tenant j.digestBase j.digestRecords (leBytes 16 record ++ body)
      (c.setJob h { j with digestFlags := 0, step := if j.step == BitVec.allOnes 48 then j.step else j.step + 1 }).stamp v 30 0

/-! ### The container (R469, Tables 18.5, 18.6) -/

/-- Sections of a container of a map: entry and offset. -/
def sections (es : List MapEntry) : List (MapEntry × Nat) :=
  (es.foldl (fun (a : List (MapEntry × Nat) × Nat) e =>
    let o := 64 * ceilDiv a.2 64
    (a.1 ++ [(e, o)], o + e.length)) ([], 128 + 64 * es.length)).1

/-- Length of a container. -/
def containerLength (ss : List (MapEntry × Nat)) (n : Nat) : Nat := ss.foldl (fun (a : Nat) s => max a (s.2 + s.1.length)) (128 + 64 * n)

/-- Entries that a chrysalis of a job copies. -/
def Chip.copied (c : Chip) (j : Job) (instar : Nat) : List MapEntry :=
  ((c.mapEntries j.tenant j.digestMap).map MapEntry.ofBytes).filter (fun e => e.kind != 0 && e.holds instar)

/-- A line of a command's space is poisoned. -/
def Chip.apoison (c : Chip) (t : Option TenantId) (a n : Nat) : Bool := match t with
  | some t => c.vpoison t a n
  | none => c.mem.poisonIn a n

/-- Poison the line of an address of a command's space. -/
def Chip.apoisonLine (c : Chip) (t : Option TenantId) (a : Nat) : Chip :=
  match t with
  | none => { c with mem := c.mem.poisonLine (a / 64) }
  | some t => match c.physOf t a with
    | some e => { c with mem := c.mem.poisonLine (e.phys a / 64) }
    | none => c

/-- A range of a command's space lies in tier 2 and can be written. -/
def Chip.inTier2 (c : Chip) (t : Option TenantId) (a n : Nat) : Bool :=
  let lies (p : Nat) : Bool := decide (tier2Base ≤ p) && decide (p < tier3Base) && c.mem.populated p
  match t with
  | none => lies a && lies (a + n - 1)
  | some t => (List.range (n / 4096 + 2)).all (fun i =>
      let p := (a / 4096 + i) * 4096
      decide (a + n ≤ p) || (match c.physOf t p with
        | some e => e.w && lies (e.phys p)
        | none => false))

/-- A chrysalis of an area is being copied, or shipped (R468). -/
def Chip.areaBusy (c : Chip) (space : Option TenantId) (a n : Nat) : Bool :=
  c.cmd.waiting.any (fun x => (x.op == 0x0700 || x.op == 0x0701) && x.space == space && decide (a ≤ x.n 40 8) && decide (x.n 40 8 < a + n))

/-- A reshard phase of a tenant: a step of a shard permutation is open (R290). -/
def Chip.resharding (c : Chip) (t : TenantId) : Bool :=
  c.coll.groups.any (fun g => g.2.tenant == t && (match g.2.op with
    | some o => o.kind == 7 && o.cur.isSome
    | none => false))

/-- `chrysalis.take` (R468). -/
def Chip.chrysalisTake (c : Chip) (k : Pkt) : Chip × Option Reply :=
  let area := k.n 40 8
  let size := k.n 48 8
  match c.jobOf k (k.n 32 2) with
  | .error s => (c, some (refuse s))
  | .ok (h, j) =>
    let es := c.copied j j.instar.toNat
    let need := containerLength (sections es) es.length
    if j.digestRecords == 0 || es.isEmpty || 65535 < es.length || 2 ^ 48 ≤ area then (c, some (refuse stBadParam))
    else if c.resharding j.tenant || j.chrysalis.isSome || c.areaBusy k.space area size then (c, some k.busy)
    else if size < need then (c, some { status := stCapacity, body := leBytes 8 (need - size) })
    else if !c.inTier2 k.space area need then (c, some (refuse stBadParam))
    else
      let x : TakeRun := { area := BitVec.ofNat 48 area, physical := k.space.isNone, instar := j.instar }
      (c.setJob h { j with chrysalis := some x }, none)

/-- Copy one section: its bytes, and the poison of its lines (R324, R468). -/
def Chip.copySection (c : Chip) (t : TenantId) (space : Option TenantId) (area : Nat) (s : MapEntry × Nat) : Chip :=
  let e := s.1
  let c1 := c.awrite space (area + s.2) (c.vread t e.base e.length)
  (List.range (ceilDiv e.length 64)).foldl (fun (x : Chip) i =>
    if c.vpoison t (e.base + 64 * i) (min 64 (e.length - 64 * i)) then x.apoisonLine space (area + s.2 + 64 * i) else x) c1

/-- A column view is present in some weight of a job's plan. -/
def Chip.columnViews (c : Chip) (j : Job) (instar : Nat) : Bool := match j.plan with
  | some p => (List.range p.layers.length).any (fun i => (c.tensorAt j.tenant ((p.layer i).weight + 128 * (instar % 2))).column)
  | none => false

/-- CHRYSALIS_COPY_END (R34, R463, R468, R469): after the update, the container stands in the area. -/
def Chip.chrysalisCopyEnd (c : Chip) (v : Env) (h : JobId) : Chip :=
  match c.job h with
  | none => c
  | some j => match j.chrysalis with
    | none => c
    | some x =>
      if (j.coresIn none).any (fun i => (c.core i).running && (c.core i).job == some h) then c
      else
        let space := if x.physical then none else some j.tenant
        let area := x.area.toNat
        let es := c.copied j x.instar.toNat
        let ss := sections es
        let c := ss.foldl (fun (c : Chip) s => c.copySection j.tenant space area s) c
        let ds := ss.map (fun s => (s, c.digestOf space s.1.region (area + s.2) s.1.length))
        let total (f : MapEntry → Bool) : Nat := (ds.filter (fun d => f d.1.1)).foldl (fun (a : Nat) d => (a + d.2.1) % 2 ^ 128) 0
        let poisoned := ds.any (fun d => d.2.2)
        let table := ds.flatMap (fun d => leBytes 4 d.1.1.region ++ leBytes 1 d.1.1.kind ++ leBytes 1 d.1.1.fmt ++ leBytes 2 0 ++
          leBytes 8 d.1.2 ++ leBytes 8 d.1.1.length ++ leBytes 8 d.1.1.base ++ leBytes 16 d.2.1 ++ List.replicate 16 0)
        let head := leBytes 4 0x53595243 ++ leBytes 2 1 ++ leBytes 2 es.length ++ leBytes 6 j.step.toNat ++ leBytes 1 (b2n j.exact) ++
          leBytes 1 (b2n poisoned + 2 * b2n (c.columnViews j x.instar.toNat)) ++ leBytes 4 x.instar.toNat ++ leBytes 4 c.cmd.chip.toNat ++
          leBytes 8 j.seed.toNat ++ leBytes 16 j.image.digest.toNat ++ leBytes 16 (total (fun e => e.kind == 1 || e.kind == 2)) ++
          leBytes 16 (total (fun e => e.kind == 3)) ++ leBytes 16 (total (fun _ => true)) ++ leBytes 8 v.ns ++
          leBytes 8 (containerLength ss es.length) ++ List.replicate 16 0
        let c := c.awrite space area (head ++ table)
        ((c.setJob h { j with chrysalis := none }).stamp v 29 0).finishWaiting v (fun k => k.op == 0x0700 && k.n 32 2 == h.toNat)
          (if poisoned then refuse stFault else ok)

/-! ### Ship, verify, load (R470, R471) -/

/-- The header of a finished chrysalis of version 1. -/
def containerHead (h : List Byte) : Bool :=
  fieldLe h 0 4 == 0x53595243 && fieldLe h 4 2 == 1 && fieldLe h 6 2 != 0 && zeroBytes h 112 16

/-- `chrysalis.ship` (R470): over a sealed channel for the owner alone. -/
def Chip.chrysalisShip (c : Chip) (k : Pkt) : Chip × Option Reply :=
  let target := k.n 48 1
  let port := k.n 52 4
  if 1 < target || bits port 2 14 != 0 || 2 ^ 52 ≤ k.n 40 8 || (target == 0 && 4096 ≤ k.n 50 2) then (c, some (refuse stBadParam))
  else if target == 0 && k.space.isSome then (c, some (refuse stDenied))
  else if c.areaBusy k.space (k.n 40 8) 1 then (c, some k.busy)
  else if !containerHead (c.aread k.space (k.n 40 8) 128) || (target == 0 && !c.sealedGroup (BitVec.ofNat 12 (k.n 50 2))) then
    (c, some (refuse stBadParam))
  else (c, none)

/-- CHRYSALIS_SHIP_END (R470). -/
def Chip.chrysalisShipEnd (c : Chip) (v : Env) (area : BitVec 48) (r : ShipResult) : Chip :=
  c.finishWaiting v (fun k => k.op == 0x0701 && k.n 40 8 == area.toNat) (match r with
    | .done => ok
    | .absent => refuse stAbsent
    | .fault => refuse stFault)

/-- A section entry of a container. -/
def sectionOf (e : List Byte) : MapEntry × Nat :=
  ({ region := fieldLe e 0 4, set := 0, kind := fieldLe e 4 1, fmt := fieldLe e 5 1, parity := 0, base := fieldLe e 24 8,
     length := fieldLe e 16 8 }, fieldLe e 8 8)

/-- What verification finds (R471): not a container, the first failing section, only a digest of the header, or the sections. -/
inductive Verdict where
  | malformed
  | failing (i : Nat)
  | header
  | sound (ss : List (MapEntry × Nat))

def Chip.verify (c : Chip) (space : Option TenantId) (area : Nat) : Verdict :=
  let h := c.aread space area 128
  if !containerHead h then .malformed
  else
    let es := (List.range (fieldLe h 6 2)).map (fun i => c.aread space (area + 128 + 64 * i) 64)
    let ss := es.map sectionOf
    if ss.any (fun s => s.2 % 64 != 0 || decide (2 ^ 52 < area + s.2 + s.1.length)) then .malformed
    else
      let ds := ss.map (fun s => (s, c.digestOf space s.1.region (area + s.2) s.1.length))
      match (ds.zip es).findIdx? (fun d => d.1.2.2 || d.1.2.1 != fieldLe d.2 32 16) with
      | some i => .failing i
      | none =>
        let total (f : MapEntry → Bool) : Nat := (ds.filter (fun d => f d.1.1)).foldl (fun (a : Nat) d => (a + d.2.1) % 2 ^ 128) 0
        if total (fun e => e.kind == 1 || e.kind == 2) != fieldLe h 48 16 || total (fun e => e.kind == 3) != fieldLe h 64 16 ||
            total (fun _ => true) != fieldLe h 80 16 || bitAt (fieldLe h 15 1) 0 || c.apoison space area (128 + 64 * es.length) then .header
        else .sound ss

/-- The reply of a verification that fails: a failure of the header alone names no section, so the body's value is free (log 6). -/
def Verdict.reply (fresh : Nat) : Verdict → Reply
  | .malformed => refuse stBadParam
  | .failing i => { status := stDigest, body := leBytes 4 i }
  | .header => { status := stDigest, body := leBytes 4 (Config.freeValue fresh).toNat }
  | .sound _ => ok

/-- `chrysalis.verify` (R471). -/
def Chip.chrysalisVerify (c : Chip) (v : Env) (k : Pkt) : Chip × Reply :=
  if c.areaBusy k.space (k.n 40 8) 1 then (c, k.busy) else (c, (c.verify k.space (k.n 40 8)).reply v.fresh)

/-- `chrysalis.load` (R471): each section at its address, the header's instar, and the instar word of the job's plan. -/
def Chip.chrysalisLoad (c : Chip) (v : Env) (k : Pkt) : Chip × Reply :=
  let area := k.n 40 8
  match c.jobOf k (k.n 32 2) with
  | .error s => (c, refuse s)
  | .ok (h, j) =>
    if c.areaBusy k.space area 1 then (c, k.busy)
    else match c.verify k.space area with
      | .sound ss =>
        let n : W32 := BitVec.ofNat 32 (fieldLe (c.aread k.space area 128) 16 4)
        let c := ss.foldl (fun (c : Chip) s => c.vwrite j.tenant s.1.base (c.aread k.space (area + s.2) s.1.length)) c
        let c := match j.plan with
          | some p => c.vwrite j.tenant p.word.toNat (leBytes 8 n.toNat)
          | none => c
        (c.setJob h { j with instar := n }, ok)
      | r => (c, r.reply v.fresh)

end Sys2Proof
end

