-- ==== Sys2Proof/Machine/HallOps.lean ====
section
/-! DEFINITION. What the events of hall time and of ports do beyond the unit they happen at: stamps, barriers that a step passes, and
commands that end. -/
namespace Sys2Proof

/-- A time flit at a port (R381, R419): heartbeat, partner, and a message with a foreign option; a damaged one is counted (R402). -/
def Chip.timeFlit (c : Chip) (v : Env) (p : PortId) (a : TimeArrival) : Chip :=
  if (c.port p).link != 2 then c
  else match a with
    | .flit f =>
      (c.modPort p (fun (x : Port) => { x with
        missed := 0
        ptp := if f.foreignOption then satInc x.ptp 1 else x.ptp
        partner := match f.announce with
          | some a => a.1
          | none => x.partner })).stampSlot v 7 p v.frame 0
    | .missing => c.modPort p (fun (x : Port) => { x with missed := if x.missed == 3 then 3 else x.missed + 1 })
    | .damaged => c.modPort p (fun (x : Port) => { x with missed := if x.missed == 3 then 3 else x.missed + 1, fec := satInc x.fec 1 })

/-- Ports of a mask. -/
def portsOf (mask : Nat) : List PortId := ((List.range 64).filter (fun i => bitAt mask i)).map (fun i => BitVec.ofNat 6 i)

/-- The loads of a waiting `hall.sched` are done: each port has no more loads left than later packets asked of it (R407, R409). -/
def Chip.schedDone (c : Chip) (k : Pkt) : Bool :=
  let later := (c.cmd.waiting.dropWhile (fun x => x != k)).drop 1
  (portsOf (k.n 32 8)).all (fun p =>
    decide ((c.port p).loads.length ≤ later.countP (fun x => x.op == 0x0402 && bitAt (x.n 32 8) p.toNat)))

/-- Replies of `hall.sched` whose banks are READY (Table 20.6). -/
def Chip.schedReplies (c : Chip) (v : Env) : Chip :=
  (c.cmd.waiting.filter (fun k => k.op == 0x0402)).foldl (fun (c : Chip) k =>
    if c.schedDone k then c.finishWaiting v (fun x => x == k) ok else c) c

/-- Replies of the `hall.send` packets that a port has sent or discarded (R503). -/
def Chip.sendReplies (c : Chip) (v : Env) (ids : List (RingId × W32)) (r : Reply) : Chip :=
  c.finishWaiting v (fun k => k.op == 0x0405 && ids.contains (k.ring, k.index)) r

/-- OPEN_SLOT_GRANT with the reply of the packet that it completes. -/
def Chip.openGrant (c : Chip) (v : Env) (p : PortId) (frame slot : Nat) : Chip :=
  let r := c.openSlotGrant p frame slot
  r.1.sendReplies v r.2.toList ok

/-- PARTNER_ABSENT with the replies of the messages that it discards (R419). -/
def Chip.absentPort (c : Chip) (v : Env) (p : PortId) : Chip :=
  let r := c.partnerAbsent v p
  r.1.sendReplies v r.2 { status := stAbsent }

/-- Stamp of a change of state (source 12). -/
def Chip.stampState (c : Chip) (v : Env) (old : TimeState) : Chip :=
  if v.st == old then c else c.stamp v 12 (portStateData 0 (timeCode v.st))

namespace Machine

/-- An event of hall time: a new state is stamped, and armed instants that a forward step passes release their entries (R390, R394). -/
def State.timeEvent (s : State) (f : HallTime → HtRegs → HallTime) : State :=
  let t := s.onTime f
  t.onChip (fun c =>
    (if t.time.ht == s.time.ht then c else c.stepBarriers t.env s.time.ns).stampState t.env s.time.st)

/-- UPSTREAM_SWITCH (R379). -/
def State.upstreamSwitch (s : State) : State :=
  match s.time.upstreamSwitch s.htRegs with
  | none => s
  | some (t, p) =>
    let s1 := { s with time := t }
    s1.onChip (fun c => c.stamp s1.env 13 (portStateData p 0))

/-- TIME_FLIT_RECEIVE (R384, R388, R419). -/
def State.timeFlitReceive (s : State) (p : PortId) (a : TimeArrival) : State :=
  if (s.chip.port p).link != 2 then s
  else (s.onChip (fun c => c.timeFlit s.env p a)).timeEvent (fun t r => t.timeFlitReceive r s.chip.sys.refclk p a)

/-- PPS_IN_EDGE (R391): an accepted edge is stamped (source 14). -/
def State.ppsInEdge (s : State) (rising : Bool) : State :=
  let ok := (s.time.ppsEdge s.htRegs s.chip.sys.refclk rising).2
  let s1 := s.timeEvent (fun t r => (t.ppsEdge r s.chip.sys.refclk rising).1)
  if ok then s1.onChip (fun c => c.stamp s1.env 14 0) else s1

/-- PPS_OUT_EDGE (R392): a driven rising edge is stamped (source 15); the pin stays low in BOOT_FAIL and in fail-quiet (Table 22.3). -/
def State.ppsOutEdge (s : State) (rising : Bool) : State :=
  if s.chip.sys.bootFail || s.chip.sys.failQuiet then s
  else
    let s1 := s.onTime (fun t r => t.ppsOutEdge r rising)
    if s1.time.ppsOut && !s.time.ppsOut then s1.onChip (fun c => c.stampAt s.env s1.time.ppsRose 15 0) else s1

end Machine

end Sys2Proof
end

