-- ==== Sys2Proof/Machine/CmdHall.lean ====
section
/-! DEFINITION. The hall commands (R380, R391, R393, R394, R407, R409, R420, R422, R423, R503). -/
namespace Sys2Proof

/-! ### `hall.barrier` (Table 15.10) -/

/-- A supervisor acts only on entries that its tenant has claimed. -/
def barrierDenied (k : Pkt) (b : Barrier) (claim : Bool) : Bool :=
  if claim then b.owner.isSome && b.owner != some k.tenant else k.space.isSome && b.owner != some k.tenant

/-- An operation on the entry that a packet names. -/
def Chip.barrierOp (c : Chip) (k : Pkt) (claim : Bool) (f : BitVec 12 → Barrier → Chip × Reply) : Chip × Reply :=
  if 4096 ≤ k.n 32 2 then (c, refuse stBadParam)
  else
    let e : BitVec 12 := BitVec.ofNat 12 (k.n 32 2)
    if barrierDenied k (c.barrier e) claim then (c, refuse stDenied) else f e (c.barrier e)

/-- The reply carries the entry. -/
def Chip.barrierReply (c : Chip) (e : BitVec 12) : Chip × Reply := (c, { status := stOk, body := c.barrierBytes e })

def Chip.barrierClaim (c : Chip) (k : Pkt) : Chip × Reply :=
  c.barrierOp k true (fun e b => (c.setBarrier e { b with tenant := k.tenant, claimed := true, st := .idle, generation := 0 }).barrierReply e)

/-- Arm (R394): an instant that has passed releases at once, late. -/
def Chip.barrierArm (c : Chip) (v : Env) (k : Pkt) : Chip × Reply :=
  let t := k.n 40 8
  c.barrierOp k false (fun e b =>
    if v.st == .unset then (c, refuse stAbsent)
    else if nearEnd t then (c, refuse stBadParam)
    else if b.st == .armed then (c, { status := stBusy, hint := usTo v b.instant.toNat })
    else
      let c := c.setBarrier e { b with instant := BitVec.ofNat 64 t, st := .armed, late := false, unlocked := false }
      (if t ≤ v.ns then c.releaseBarrier v e true else c).barrierReply e)

def Chip.barrierDisarm (c : Chip) (k : Pkt) : Chip × Reply :=
  c.barrierOp k false (fun e b => (if b.st == .armed then c.setBarrier e { b with st := .idle } else c).barrierReply e)

/-- Release drops the claim. -/
def Chip.barrierDrop (c : Chip) (k : Pkt) : Chip × Reply :=
  c.barrierOp k false (fun e b =>
    if c.barWaiting e != 0 then (c, busy0) else (c.setBarrier e { b with claimed := false, st := .idle }).barrierReply e)

def Chip.barrierQuery (c : Chip) (k : Pkt) : Chip × Reply := c.barrierOp k false (fun e _ => c.barrierReply e)

/-! ### `hall.sched` (R407, R409, R413) -/

/-- A port's part of a packet: its tables' counts and bytes. -/
structure SchedPart where
  port : PortId
  txCount : Nat
  rxCount : Nat
  tx : List (List Byte)
  rx : List (List Byte)

def Chip.schedPart (c : Chip) (k : Pkt) (p : PortId) : SchedPart :=
  let a := k.n 40 8 + 32 * p.toNat
  let f (i : Nat) : Nat := ofLe (c.aread k.space (a + 8 * i) 8)
  let table (base n : Nat) : List (List Byte) := (List.range (min n 4096)).map (fun i => c.aread k.space (base + 16 * i) 16)
  { port := p, txCount := f 1, rxCount := f 3, tx := table (f 0) (f 1), rx := table (f 2) (f 3) }

def SchedPart.txs (x : SchedPart) : List SchedEntry := x.tx.map SchedEntry.ofBytes
def SchedPart.rxs (x : SchedPart) : List SchedEntry := x.rx.map SchedEntry.ofBytes

/-- The transmit table that a forward's output port will serve: the one loaded with it, else its idle bank's. -/
def Chip.txFor (c : Chip) (parts : List SchedPart) (p : PortId) : List SchedEntry :=
  match parts.find? (fun x => x.port == p) with
  | some x => x.txs
  | none => (c.port p).idle.tx

/-- Table 16.4, R406 or R413 is broken. -/
def Chip.schedBad (c : Chip) (parts : List SchedPart) : Bool :=
  parts.any (fun x => x.tx.any (entryBad true) || x.rx.any (entryBad false) ||
    !pairwiseNone SchedEntry.clash x.txs || !pairwiseNone SchedEntry.clash x.rxs ||
    x.rxs.any (fun e => e.op == 5 && (e.delayBad x.port.toNat || e.forwardMeets (c.txFor parts e.outPort)))) ||
  !pairwiseNone forwardsMeet (parts.flatMap SchedPart.rxs)

/-- A refused load leaves the idle banks of its ports not READY. -/
def Chip.unready (c : Chip) (ps : List PortId) : Chip :=
  ps.foldl (fun (c : Chip) p => c.modPort p (fun (x : Port) => x.setBank (!x.bank) { x.idle with ready := false })) c

/-- `hall.sched`: the loads start, READY of the idle banks clears, and the swap is armed. -/
def Chip.sched (c : Chip) (v : Env) (k : Pkt) : Chip × Option Reply :=
  let ps := portsOf (k.n 32 8)
  let parts := ps.map (c.schedPart k)
  let t := k.n 48 8
  if parts.any (fun x => decide (4096 < x.txCount) || decide (4096 < x.rxCount)) then (c.unready ps, some (refuse stSlotFull))
  else if c.schedBad parts || nearEnd t then (c.unready ps, some (refuse stBadParam))
  else
    let armed := ps.filterMap (fun p => (c.port p).armed)
    if !armed.isEmpty then
      (c, some { status := stBusy, hint := armed.foldl (fun (a : Nat) (x : W64) => max a (usTo v x.toNat)) 0 })
    else
      let c := parts.foldl (fun (c : Chip) x => c.modPort x.port (fun (y : Port) =>
        let load : SchedLoad := { bank := !y.bank, tx := x.txs, rx := x.rxs }
        { y.setBank (!y.bank) { y.idle with ready := false } with
          loads := y.loads ++ [load], armed := some (BitVec.ofNat 64 t) })) c
      (c, if ps.isEmpty then some ok else none)

/-! ### Channels, routes and messages -/

def Chip.channelGroup (c : Chip) (k : Pkt) : Option GroupId :=
  if 4096 ≤ k.n 32 2 then none
  else (c.group (BitVec.ofNat 12 (k.n 32 2))).map (fun _ => BitVec.ofNat 12 (k.n 32 2))

/-- `hall.channel`, seal (R423): 64 sealed channels at most. -/
def Chip.channelSeal (c : Chip) (k : Pkt) : Chip × Reply :=
  match c.channelGroup k with
  | none => (c, refuse stBadParam)
  | some g =>
    if c.sealedGroup g then (c, ok)
    else if 64 ≤ c.coll.channels.length then (c, refuse stCapacity)
    else ({ c with coll := { c.coll with channels := tblSet c.coll.channels g.toNat {} } }, ok)

/-- `hall.channel`, unseal. -/
def Chip.channelUnseal (c : Chip) (k : Pkt) : Chip × Reply :=
  match c.channelGroup k with
  | none => (c, refuse stBadParam)
  | some g => ({ c with coll := { c.coll with channels := tblErase c.coll.channels g.toNat } }, ok)

/-- `hall.route` (R420): the table lies in tier 1. -/
def Chip.routeLoad (c : Chip) (k : Pkt) : Chip × Reply :=
  if tier1End < k.n 32 8 + 1048576 then (c, refuse stBadParam) else ({ c with fab := { c.fab with routes := k.n 32 8 } }, ok)

/-- Messages of a packet wait at some port. -/
def Chip.sendWaits (c : Chip) (id : RingId × W32) : Bool := c.fab.ports.any (fun p => p.2.waiting.any (fun m => m.sender == some id))

/-- `hall.send` (R503): type 0 with this chip as its source; it waits for its slot, or finds no way out. -/
def Chip.hallSend (c : Chip) (v : Env) (k : Pkt) : Chip × Option Reply :=
  let dest := k.n 32 4
  let flood := bitAt (k.n 37 1) 0
  if 2 ^ 20 ≤ dest || 1 < k.n 37 1 then (c, some (refuse stBadParam))
  else
    let payload := openPrefix c.cmd.chip.toNat 0 0 0 0 ++ c.aread k.space (k.n 40 8) 224
    let c1 :=
      if !flood && dest == c.cmd.chip.toNat then c.deliverOpen v 0 (c.openFlit dest (k.n 36 1) flood payload)
      else c.openSend v .manager dest (k.n 36 1) flood payload (some (k.ring, k.index))
    if !flood && dest == c.cmd.chip.toNat then (c1, some ok)
    else if c1.sendWaits (k.ring, k.index) then (c1, none)
    else (c1, some (refuse stAbsent))

/-- `hall.cancel` (R422): a message that still waits is removed, and its packet replies `CANCELLED`. -/
def Chip.hallCancel (c : Chip) (v : Env) (k : Pkt) : Chip × Reply :=
  match c.cmd.waiting.find? (fun x => x.op == 0x0405 && x.ring == k.ring && x.tag == k.n 32 2) with
  | none => (c, refuse stAlreadySent)
  | some x =>
    if !c.sendWaits (x.ring, x.index) then (c, refuse stAlreadySent)
    else
      let ports := tblMap c.fab.ports (fun _ (p : Port) => { p with waiting := p.waiting.filter (fun m => m.sender != some (x.ring, x.index)) })
      (({ c with fab := { c.fab with ports := ports } }).finishWaiting v (fun y => y == x) (refuse stCancelled), ok)

namespace Machine

/-- `hall.time` (R380, R391). -/
def State.hallTime (s : State) (p : PktRef) : State :=
  match s.chip.takePkt p 0x0400 (fun _ => true) with
  | none => s
  | some (k, c) =>
    let cfg : W64 := BitVec.ofNat 64 (k.n 32 8)
    if 127 < bits cfg.toNat 32 8 then { s with chip := c.reply s.env k (refuse stBadParam) }
    else
      let r := (s.htRegs.writeCfg cfg).writePps (BitVec.ofNat 64 (k.n 40 8))
      let n := k.n 48 8
      { s with chip := c.reply s.env k ok, htRegs := r, time := if n == 2 ^ 64 - 1 then s.time else s.time.name r n }

end Machine

end Sys2Proof
end

