-- ==== Sys2Proof/Machine/Power.lean ====
section
/-! DEFINITION. Supply inputs, clocks, throttling, gating and sleep (R504 to R523). -/
namespace Sys2Proof

/-! ### Inputs (R504 to R506) -/

def Power.okOf (p : Power) (b : Bool) : Bool := if b then p.bOk else p.aOk

/-- INPUT_LOSS (R504). -/
def Power.inputLoss (p : Power) (now : Nat) (b : Bool) : Power :=
  if !p.okOf b then p
  else
    let p := if b then { p with bOk := false } else { p with aOk := false }
    { p with lost := true, noneSince := if p.aOk || p.bOk then none else some now }

/-- INPUT_RESTORE (R506). -/
def Power.inputRestore (p : Power) (b : Bool) : Power :=
  if b then { p with bOk := true, noneSince := none } else { p with aOk := true, noneSince := none }

/-- The switch changes inputs: the active one is lost, or PREF names the other, and that one is usable (R505). -/
def Power.switchDue (p : Power) : Bool := p.okOf (!p.active) && (!p.okOf p.active || p.pref != p.active)

def Chip.switchOver (c : Chip) (v : Env) : Chip :=
  let p := c.power
  if !p.switchDue then c
  else
    let p1 : Power := { p with active := !p.active, switches := satInc p.switches 1, lost := p.lost || !p.okOf p.active }
    ({ c with power := p1 }).stamp v (if p.active then 45 else 44) 0

/-- Clear bits of a register that a write of ones clears (R9, R547). -/
def w1c {n : Nat} (x w : BitVec n) : BitVec n := x &&& ~~~w

/-- A write of PWR_IN (Table 21.7): a PREF that names the other, usable input switches without a break. -/
def Chip.writePwrIn (c : Chip) (v : Env) (w : W64) : Chip :=
  let p := c.power
  ({ c with power := { p with pref := w.getLsbD 4, switches := w1c p.switches (w.extractLsb' 16 16), lost := p.lost && !w.getLsbD 0 } }
    ).switchOver v

/-! ### Operating points (R508, R509) -/

/-- Core voltage of a point in mV, in 25 MHz units (Table 21.2, R508). -/
def pointMv (clock : Nat) : Nat :=
  let row (lo va vb : Nat) : Nat := ceilDiv (va * 8 + (clock - lo) * (vb - va)) 40 * 5
  if clock ≤ 24 then row 16 550 600 else if clock ≤ 32 then row 24 600 660 else if clock ≤ 40 then row 32 660 720 else row 40 720 820

/-- A sector runs at a point. -/
def Sector.setPoint (s : Sector) (clock : BitVec 6) : Sector :=
  { s with clock := clock, target := clock, mv := BitVec.ofNat 12 (pointMv clock.toNat) }

/-- OPERATING_POINT_CHANGE (R509): no DVFS change of a sector that exact mode pins (R453). -/
def Chip.pointChange (c : Chip) (n : SectorId) : Chip :=
  c.modSector n (fun (s : Sector) => if s.exact then s else s.setPoint s.target)

/-! ### Stretches (R510 to R513) -/

/-- Jobs whose clusters lie in a sector pinned by exact mode note a stretch for their digest record (R453, R512). -/
def Chip.noteStretch (c : Chip) (n : SectorId) : Chip :=
  { c with jobs := tblMap c.jobs (fun _ (j : Job) =>
      if j.launched && j.exact && (j.clusters.map clusterSector).contains n then { j with digestFlags := j.digestFlags ||| 4 } else j) }

/-- Change a sector's requests; a stretch that rises from 0 or returns to 0 is stamped (sources 34 and 35). -/
def Chip.modStretch (c : Chip) (v : Env) (n : SectorId) (f : Sector → Sector) : Chip :=
  let s := c.sector n
  let s1 := f s
  let c := c.setSector n s1
  let c := if s1.exact && s1.stretch != 0 then c.noteStretch n else c
  if s.stretch == 0 && s1.stretch != 0 then c.stamp v 34 n.toNat
  else if s.stretch != 0 && s1.stretch == 0 then c.stamp v 35 n.toNat
  else c

def raiseBy (x : BitVec 6) (k : Nat) : BitVec 6 := BitVec.ofNat 6 (min 48 (x.toNat + k))
def lowerBy (x : BitVec 6) (k : Nat) : BitVec 6 := BitVec.ofNat 6 (x.toNat - k)

/-- DROOP (Table 21.3). -/
def Chip.droop (c : Chip) (v : Env) (n : SectorId) : Chip :=
  c.modStretch v n (fun (s : Sector) => { s with droop := 16, droopAt := v.now })

/-- DROOP_DECAY: after its hold of 100 ns, by 1 every 100 ns. -/
def Chip.droopDecay (c : Chip) (v : Env) (n : SectorId) : Chip :=
  c.modStretch v n (fun (s : Sector) =>
    if s.droop != 0 && decide (s.droopAt + 6400 ≤ v.now) then { s with droop := lowerBy s.droop 1, droopAt := v.now } else s)

/-- TJ_MAX: the hottest junction. -/
def Power.hottest (p : Power) : Byte := p.sectors.foldl (fun (m : Byte) x => if m.toNat < x.2.tj.toNat then x.2.tj else m) 0

/-- THERMAL_CONTROL (Table 21.3, R512): the junction is read; every 10 µs the request changes. -/
def Chip.thermalControl (c : Chip) (v : Env) (n : SectorId) (tj : Byte) : Chip :=
  let limit := c.power.tjLimit.toNat
  let hot := decide (limit ≤ tj.toNat)
  let reached := hot && decide ((c.sector n).tj.toNat < limit)
  let c := c.modStretch v n (fun (s : Sector) =>
    let s := { s with tj := tj }
    if v.now < s.thermalAt + 640000 then s
    else if hot then { s with thermal := raiseBy s.thermal 4, thermalAt := v.now }
    else if tj.toNat + 3 ≤ limit then { s with thermal := lowerBy s.thermal 1, thermalAt := v.now }
    else s)
  let c : Chip := { c with power := { c.power with tjMax := c.power.hottest } }
  if reached then c.stamp v 46 n.toNat else c

/-- The power request of a sector at an evaluation; `rest` says that every other running sector is at s = 48 (R512). -/
def Sector.powerStep (s : Sector) (isOver under rest : Bool) : Sector :=
  if isOver then (if s.st == .running && (!s.exact || rest) then { s with power := raiseBy s.power 2 } else s)
  else if under then { s with power := lowerBy s.power 1 }
  else s

/-- POWER_CONTROL (Table 21.3, R512): PWR_NOW takes the reading; each 1 µs the requests change. -/
def Chip.powerControl (c : Chip) (v : Env) (watts : W16) : Chip :=
  let p := c.power
  let w := watts.toNat
  let c : Chip := { c with power := { p with avg := watts, peak := if p.peak.toNat < w then watts else p.peak } }
  if v.now < p.powerAt + 64000 then c
  else
    let isOver := p.limitEn && decide (p.limit.toNat < w)
    let under := !p.limitEn || decide (w * 100 < p.limit.toNat * 98)
    let c : Chip := { c with power := { c.power with powerAt := v.now } }
    p.sectors.foldl (fun (c : Chip) x =>
      let n : SectorId := BitVec.ofNat 8 x.1
      let rest := p.sectors.all (fun y => y.1 == x.1 || y.2.st != .running || y.2.stretch == 48)
      c.modStretch v n (fun s => s.powerStep isOver under rest)) c

/-! ### Gating and sleep (R516 to R519) -/

/-- A core lets its cluster gate: no work item, or a wait in `BARW` or `WAITHT`. -/
def Core.quiet (k : Core) : Bool :=
  k.preempt == .none && !k.service && (!k.running || (match k.hold with
    | .barw _ _ => true
    | .waitht _ => true
    | _ => false)) && k.arr.drains.isEmpty

/-- A stream that runs, or a detached copy. -/
def Stream.active (s : Stream) : Bool :=
  match s.st with
  | .ended _ => false
  | .parked => s.detached
  | .preempted => false
  | _ => true

/-- What wakes a core, 256 ns before an instant that it waits for (R518). -/
def Chip.wakesCore (c : Chip) (v : Env) (id : CoreId) : Bool :=
  let k := c.core id
  k.service || k.preempt != .none || c.coll.heldPreempts.contains (id, []) ||
  (match k.hold with
    | .waitht t => decide (t.toNat ≤ v.ns + 256)
    | .barw e freed => freed || (c.barrier e).st == .released ||
        ((c.barrier e).st == .armed && decide ((c.barrier e).instant.toNat ≤ v.ns + 256))
    | _ => k.running)

/-- A work item of a launched job waits for a core of a cluster. -/
def Chip.itemWaits (c : Chip) (cl : ClusterId) : Bool :=
  match (c.cluster cl).job.bind c.job with
  | none => false
  | some j => j.launched && !j.paused.contains (quadOf cl) &&
      (List.range j.items).any (fun i => !j.started.contains i && (j.home i).map clusterOf == some cl)

/-- A wake source of a cluster. -/
def Chip.wakesCluster (c : Chip) (v : Env) (cl : ClusterId) : Bool :=
  (coresOf cl).any (c.wakesCore v) || c.itemWaits cl || (c.cluster cl).streams.any Stream.active

def clustersOfSector (n : SectorId) : List ClusterId := (List.range 64).map (fun i => BitVec.ofNat 14 (64 * n.toNat + i))

/-- CLUSTER_GATE (R516). -/
def Chip.clusterGate (c : Chip) (v : Env) (cl : ClusterId) : Chip :=
  let x := c.cluster cl
  if x.gated || !(coresOf cl).all (fun i => (c.core i).quiet) || x.streams.any Stream.active || c.wakesCluster v cl then c
  else
    let c := c.setCluster cl { x with gated := true }
    let n := clusterSector cl
    if (clustersOfSector n).all (fun y => (c.cluster y).gated) then
      c.modSector n (fun (s : Sector) => { s with gatedSince := some v.now }) else c

/-- CLUSTER_UNGATE (R516, R518). -/
def Chip.clusterUngate (c : Chip) (v : Env) (cl : ClusterId) : Chip :=
  let n := clusterSector cl
  if (c.cluster cl).gated && (c.sector n).st == .running && c.wakesCluster v cl then
    ((c.modCluster cl (fun x => { x with gated := false })).modSector n (fun (s : Sector) => { s with gatedSince := none })).stamp v 36
      cl.toNat
  else c

/-- SECTOR_SLEEP (R517, R519). -/
def Chip.sectorSleep (c : Chip) (v : Env) (n : SectorId) : Chip :=
  let s := c.sector n
  match s.gatedSince with
  | none => c
  | some t =>
    if s.st == .running && decide (t + 64000 * c.power.sleepDelay.toNat ≤ v.now) && !(clustersOfSector n).any (c.wakesCluster v) then
      (c.setSector n { s with st := .asleep }).stamp v 33 n.toNat
    else c

/-- SECTOR_WAKE (R517, R518): a wake source starts the clock, and once the clock runs the sector runs, at F under exact mode (R455). -/
def Chip.sectorWake (c : Chip) (v : Env) (n : SectorId) : Chip :=
  let s := c.sector n
  match s.st with
  | .asleep => if (clustersOfSector n).any (c.wakesCluster v) then c.setSector n { s with st := .waking } else c
  | .waking =>
    let s1 : Sector := { s with st := .running, wakes := satInc s.wakes 1 }
    (c.setSector n (if s.exact then s1.setPoint s1.target else s1)).stamp v 32 n.toNat
  | .running => c

/-! ### Registers (Tables 21.7 to 21.11) -/

def Power.inWord (p : Power) : W64 :=
  BitVec.ofNat 64 (p.va.toNat * 2 ^ 48 + p.vb.toNat * 2 ^ 32 + p.switches.toNat * 2 ^ 16 + 16 * b2n p.pref + 8 * b2n p.active +
    4 * b2n p.bOk + 2 * b2n p.aOk + b2n p.lost)
def Power.limitWord (p : Power) : W64 :=
  BitVec.ofNat 64 (p.limit.toNat * 2 ^ 32 + p.clock.toNat * 2 ^ 24 + p.sleepDelay.toNat * 2 ^ 8 + b2n p.limitEn)
def Power.nowWord (p : Power) : W64 :=
  BitVec.ofNat 64 (p.peak.toNat * 2 ^ 48 + p.avg.toNat * 2 ^ 32 +
    p.sectors.countP (fun x => x.2.st == .running && x.2.stretch != 0) * 2 ^ 16 + p.tjMax.toNat * 2 ^ 8)
def Power.coolWord (p : Power) : W64 := BitVec.ofNat 64 (p.tjLimit.toNat * 2 ^ 8 + p.sustained.toNat)
def SectorState.code : SectorState → Nat
  | .asleep => 0
  | .waking => 1
  | .running => 2
def Sector.word (s : Sector) : W64 :=
  BitVec.ofNat 64 (s.wakes.toNat * 2 ^ 32 + s.stretch.toNat * 2 ^ 26 + s.clock.toNat * 2 ^ 20 + s.tj.toNat * 2 ^ 12 + 8 * b2n s.exact +
    s.st.code)

/-- A value of a range, else what stood (R523). -/
def inRange (lo hi new old : Nat) : Nat := if lo ≤ new && new ≤ hi then new else old

/-- A write of PWR_LIMIT (Table 21.8); a field outside its range is ignored. -/
def Power.writeLimit (p : Power) (w : W64) : Power :=
  { p with limit := BitVec.ofNat 16 (inRange 500 3400 (bits w.toNat 32 16) p.limit.toNat)
           clock := BitVec.ofNat 8 (inRange 16 48 (bits w.toNat 24 8) p.clock.toNat)
           sleepDelay := BitVec.ofNat 16 (inRange 1 65535 (bits w.toNat 8 16) p.sleepDelay.toNat), limitEn := w.getLsbD 0 }
def Power.writeCool (p : Power) (w : W64) : Power :=
  { p with tjLimit := BitVec.ofNat 8 (inRange 85 110 (bits w.toNat 8 8) p.tjLimit.toNat)
           sustained := BitVec.ofNat 6 (inRange 16 48 (bits w.toNat 0 6) p.sustained.toNat) }
def Power.writeNow (p : Power) (w : W64) : Power := { p with peak := w1c p.peak (w.extractLsb' 48 16) }
def Sector.writeWord (s : Sector) (w : W64) : Sector := { s with wakes := w1c s.wakes (w.extractLsb' 32 32) }

/-! ### Commands (R522) -/

/-- `power.query`. -/
def Chip.powerQuery (c : Chip) : Chip × Reply :=
  let p := c.power
  (c, { status := stOk, body := leBytes 8 p.inWord.toNat ++ leBytes 8 p.nowWord.toNat ++ leBytes 8 p.limitWord.toNat ++ leBytes 8 p.coolWord.toNat })

/-- `power.limit`. -/
def Chip.powerLimit (c : Chip) (k : Pkt) : Chip × Reply :=
  let limit := k.n 32 2
  let point := k.n 34 1
  let delay := k.n 36 4
  if !(500 ≤ limit && limit ≤ 3400) || !(point == 0 || (16 ≤ point && point ≤ 48)) || 65535 < delay then (c, refuse stBadParam)
  else
    let p := { c.power with limit := BitVec.ofNat 16 limit, sleepDelay := if delay == 0 then c.power.sleepDelay else BitVec.ofNat 16 delay,
                            clock := if point == 0 then c.power.clock else BitVec.ofNat 8 point }
    let named := (List.range 256).filter (bitAt (k.n 40 32))
    let pinned := named.filter (fun i => (c.sector (BitVec.ofNat 8 i)).exact)
    let c : Chip := { c with power := p }
    let c := if point == 0 then c else named.foldl (fun (c : Chip) i =>
      c.modSector (BitVec.ofNat 8 i) (fun (s : Sector) => if s.exact then s else { s with target := BitVec.ofNat 6 point })) c
    (c, { status := stOk, body := leBytes 2 pinned.length })

end Sys2Proof
end

