-- ==== Sys2Proof/Machine/CmdProgram.lean ====
section
/-! DEFINITION. The program commands but for `program.mode` (R110, R112, R166 to R171, R232, R446, R453). -/
namespace Sys2Proof

/-! ### Images (R167 to R169, Tables 06.18 to 06.21) -/

/-- A dimension of an image header. -/
def imageDim (h : List Byte) (d : Nat) : Dimension :=
  { sizes := (List.range (min 8 (fieldLe h (16 + d) 1))).map (fun i => BitVec.ofNat 32 (fieldLe h (32 + 32 * d + 4 * i) 4)),
    atLaunch := bitAt (fieldLe h 7 1) d, sizeReg := BitVec.ofNat 4 (fieldLe h (20 + d) 1),
    bucketReg := BitVec.ofNat 4 (fieldLe h (24 + d) 1) }

/-- Strictly ascending. -/
def ascending : List Nat → Bool
  | a :: b :: xs => decide (a < b) && ascending (b :: xs)
  | _ => true

/-- A dimension's fields break Table 06.18. -/
def imageDimBad (h : List Byte) (dims d : Nat) : Bool :=
  let n := fieldLe h (16 + d) 1
  let s := fieldLe h (20 + d) 1
  let b := fieldLe h (24 + d) 1
  let sizes := (List.range 8).map (fun i => fieldLe h (32 + 32 * d + 4 * i) 4)
  if dims ≤ d then n != 0 || s != 0 || b != 0 || sizes.any (· != 0)
  else n == 0 || decide (8 < n) || s == 0 || decide (15 < s) || b == 0 || decide (15 < b) ||
    (sizes.drop n).any (· != 0) || (sizes.take n).any (· == 0) || !ascending (sizes.take n)

/-- The header breaks Table 06.18 or R168. -/
def imageHeaderBad (h : List Byte) : Bool :=
  let dims := fieldLe h 6 1
  let flags := fieldLe h 7 1
  let regs := (List.range dims).flatMap (fun d => [fieldLe h (20 + d) 1, fieldLe h (24 + d) 1])
  let launch := (List.range 4).filter (fun d => bitAt flags d)
  let asg := fieldLe h 12 4
  fieldLe h 0 4 != 0x4B494E53 || fieldLe h 4 2 != 1 || decide (4 < dims) || bits flags 5 3 != 0 ||
  launch.any (fun d => decide (dims ≤ d)) || decide (64 < fieldLe h 8 2) || fieldLe h 10 2 == 0 || decide (256 < fieldLe h 10 2) ||
  !zeroBytes h 28 4 || !zeroBytes h 176 80 || (List.range 4).any (imageDimBad h dims) || !distinct regs ||
  fieldLe h 10 2 != launch.foldl (fun a d => a * fieldLe h (16 + d) 1) 1 ||
  bitAt flags 4 != (asg != 0) || asg % 16 != 0

/-- An entry of the variant table (Table 06.19). -/
def variantOf (e : List Byte) : Variant :=
  { tuple := slice e 0 4, code := fieldLe e 4 4, length := fieldLe e 8 2, entry := BitVec.ofNat 11 (fieldLe e 10 2) }

def variantBad (h e : List Byte) : Bool :=
  let len := fieldLe e 8 2
  !zeroBytes e 12 4 || len == 0 || decide (2048 < len) || decide (len ≤ fieldLe e 10 2) ||
  (List.range 4).any (fun d => if bitAt (fieldLe h 7 1) d then decide (fieldLe h (16 + d) 1 ≤ fieldLe e d 1) else fieldLe e d 1 != 0)

/-- The assignment table's header breaks Table 06.20, or an entry its reserved field. -/
def assignBad (a : List Byte) (entries : List Nat) : Bool :=
  fieldLe a 0 4 != 0x4E475341 || fieldLe a 4 2 != 1 || !zeroBytes a 6 2 || !zeroBytes a 12 4 || fieldLe a 8 4 == 0 ||
  decide (1048576 < fieldLe a 8 4) || entries.any (fun e => decide (2 ^ 20 ≤ e))

/-- Read and check an image: `BAD_PARAM`, `DIGEST_MISMATCH`, or the image (R168, R169, R464). -/
def Chip.readImage (c : Chip) (t : Option TenantId) (base : Nat) : Except Nat Image :=
  let h := c.aread t base 256
  let n := fieldLe h 10 2
  if imageHeaderBad h then .error stBadParam
  else
    let es := (List.range n).map (fun i => c.aread t (base + 256 + 16 * i) 16)
    let vs := es.map variantOf
    if es.any (variantBad h) || !distinct (vs.map (·.tuple)) then .error stBadParam
    else
      let off := fieldLe h 12 4
      let a := c.aread t (base + off) 16
      let w := fieldLe a 8 4
      let as := if off == 0 then [] else (List.range (min w 1048576)).map (fun i => ofLe (c.aread t (base + off + 16 + 4 * i) 4))
      if off != 0 && assignBad a as then .error stBadParam
      else
        let len := vs.foldl (fun (m : Nat) v => max m (v.code + 8 * v.length)) (256 + 16 * n)
        let len := if off == 0 then len else max len (off + 16 + 4 * w)
        if programDigest (c.aread t base len) != fieldLe h 160 16 then .error stDigest
        else .ok { base := base, physical := t.isNone, length := len, dims := (List.range (fieldLe h 6 1)).map (imageDim h),
                   admission := if fieldLe h 8 2 == 0 then 8 else fieldLe h 8 2, variants := vs,
                   assign := if off == 0 then none else some (as.map (BitVec.ofNat 32)),
                   digest := BitVec.ofNat 128 (fieldLe h 160 16) }

/-- `program.load` (R166 to R169, R353, R464). -/
def Chip.programLoad (c : Chip) (k : Pkt) : Chip × Reply :=
  let n := k.n 48 2
  let ctx := k.n 56 8
  let quads := (List.range (min n 4096)).map (fun i => ofLe (c.aread k.space (k.n 40 8 + 2 * i) 2))
  match c.tenant k.tenant with
  | none => (c, refuse stBadParam)
  | some t =>
    if n == 0 || decide (4096 < n) || ctx % 8192 != 0 || decide (2 ^ 48 ≤ ctx) || !distinct quads ||
        quads.any (fun q => decide (4095 < q)) then (c, refuse stBadParam)
    else if !quads.all t.quads.contains then (c, refuse stDenied)
    else match c.readImage k.space (k.n 32 8) with
      | .error s => (c, refuse s)
      | .ok img =>
        match (List.range 4096).find? (fun h => (tblFind c.jobs h).isNone && (tblFind c.cmd.left h).isNone) with
        | none => (c, refuse stCapacity)
        | some h => (c.setJob (BitVec.ofNat 12 h) { tenant := k.tenant, image := img, quads := quads, ctx := BitVec.ofNat 48 ctx },
            { status := stOk, body := leBytes 2 h })

/-! ### Launch (R169 to R171, R453) -/

/-- The variant that real sizes select: its number and the registers of R171; none when a size is above every bucket. -/
def Image.select (img : Image) (sizes : List Nat) : Option (Nat × Regs) :=
  let picks := img.dims.zipIdx.map (fun p => if p.1.atLaunch then p.1.bucket (BitVec.ofNat 32 (nth 0 sizes p.2)) else some 0)
  if picks.any (·.isNone) then none
  else
    let is := picks.map (fun x => x.getD 0)
    let tuple : List Byte := (List.range 4).map (fun d => BitVec.ofNat 8 (nth 0 is d))
    (img.variants.findIdx? (fun v => v.tuple == tuple)).map (fun i =>
      (i, img.dims.zipIdx.foldl (fun (r : Regs) p =>
        if p.1.atLaunch then
          (r.setIfInBounds p.1.sizeReg.toNat (BitVec.ofNat 32 (nth 0 sizes p.2))).setIfInBounds p.1.bucketReg.toNat
            (nth 0 p.1.sizes (nth 0 is p.2))
        else r) (Vector.replicate 16 0)))

/-- The work items that a launch counts fit the assignment table, which exact mode needs (R168, R169). -/
def Image.launchBad (img : Image) (exact : Bool) (items clusters : Nat) : Bool :=
  match img.assign with
  | none => exact
  | some es => decide (es.length < items) || es.any (fun e => decide (clusters ≤ bits e.toNat 6 14))

/-- Clock of exact mode: 16 to SUSTAINED; fast mode names none (R453). -/
def Chip.clockBad (c : Chip) (exact : Bool) (f : Nat) : Bool :=
  if exact then decide (f < 16) || decide (c.power.sustained.toNat < f) else f != 0

/-- Sectors of a job's clusters. -/
def Job.sectors (j : Job) : List SectorId := (j.clusters.map clusterSector).eraseDups

/-- The sectors of a job run at its exact clock, or are free again once no launched job needs it there (R453, Table 18.2). -/
def Chip.applyClock (c : Chip) (h : JobId) (j : Job) : Chip :=
  j.sectors.foldl (fun (c : Chip) n =>
    let others := c.jobs.any (fun p => p.1 != h.toNat && p.2.launched && p.2.exact && p.2.sectors.contains n)
    c.modSector n (fun (x : Sector) =>
      if j.exact then
        let y : Sector := { x with exact := true, target := j.f }
        if x.st == .running then y.setPoint j.f else y
      else if others then x
      else { x with exact := false, target := c.power.clock.setWidth 6 })) c

/-- The code of a job's variant enters the instruction stores of clusters (R170). -/
def Chip.loadStores (c : Chip) (h : JobId) (j : Job) (cls : List ClusterId) : Chip :=
  let v := nth ⟨[], 0, 0, 0⟩ j.image.variants j.variant
  let code := Memory.write [] 0 (c.aread (if j.image.physical then none else some j.tenant) (j.image.base + v.code) (8 * v.length))
  cls.foldl (fun (c : Chip) cl => c.modCluster cl (fun x => { x with store := code, job := some h })) c

/-- A core of some cluster runs. -/
def Chip.coreBusy (c : Chip) (cls : List ClusterId) : Bool := cls.any (fun cl => (coresOf cl).any (fun i => (c.core i).running))
def Chip.withdrawnIn (c : Chip) (cls : List ClusterId) : Bool := cls.any (fun cl => (c.cluster cl).withdrawn)

/-- Work items of a launch are still to run, or are saved. -/
def Job.active (j : Job) : Bool := j.launched && (decide (j.finished < j.items) || !j.saved.isEmpty)

/-- `program.launch`: it replies as the first work items may start. -/
def Chip.launch (c : Chip) (k : Pkt) : Chip × Reply :=
  match c.jobOf k (k.n 32 2) with
  | .error s => (c, refuse s)
  | .ok (h, j) =>
    let exact := k.n 34 1 == 1
    let sizes := (List.range 4).map (fun d => k.n (56 + 4 * d) 4)
    let items := k.n 72 4
    if 1 < k.n 34 1 || c.clockBad exact (k.n 36 2) || k.n 48 6 == 2 ^ 48 - 1 || j.image.launchBad exact items j.clusters.length then
      (c, refuse stBadParam)
    else match j.image.select sizes with
      | none => (c, refuse stBadParam)
      | some (v, regs) =>
        if c.withdrawnIn j.clusters then (c, refuse stCapacity)
        else if j.active || c.coreBusy j.clusters then (c, busy0)
        else
          let j1 := { j with
            launched := true, exact := exact, f := BitVec.ofNat 6 (k.n 36 2), seed := BitVec.ofNat 64 (k.n 40 8)
            step := BitVec.ofNat 48 (k.n 48 6), sizes := sizes.map (BitVec.ofNat 32), items := items, variant := v, regs := regs
            started := [], finished := 0, saved := [], paused := []
            chrysalis := j.chrysalis.map (fun (x : TakeRun) => { x with next := true }) }
          (((c.setJob h j1).loadStores h j1 j.clusters).applyClock h j1, ok)

/-! ### Pre-emption, resumption, stop -/

/-- Groups of a tenant with an operation open on the chip (R446). -/
def Chip.openGroups (c : Chip) (t : TenantId) : List GroupId :=
  (c.coll.groups.filter (fun p => p.2.tenant == t && (match p.2.op with
    | some op => op.cur.isSome
    | none => false))).map (fun p => BitVec.ofNat 12 p.1)

/-- The quads that a packet names: one of the job's, or all. -/
def Job.quadsOf (j : Job) (k : Pkt) : Option (List Nat) :=
  match k.quad with
  | none => some j.quads
  | some q => if j.quads.contains q then some [q] else none

/-- `program.preempt` (R110, R446): requests go out to the cores that run, held until open steps end. -/
def Chip.preempt (c : Chip) (k : Pkt) : Chip × Option Reply :=
  match c.jobOf k (k.n 32 2) with
  | .error s => (c, some (refuse s))
  | .ok (h, j) => match j.quadsOf k with
    | none => (c, some (refuse stBadParam))
    | some qs =>
      let due := (j.coresIn k.quad).filter (fun i =>
        (c.core i).running && (c.core i).preempt == .none && !c.coll.heldPreempts.any (fun x => x.1 == i))
      let c := c.modJob h (fun (j : Job) => { j with paused := (j.paused ++ qs).eraseDups })
      let held := c.coll.heldPreempts ++ due.map (fun i => (i, c.openGroups j.tenant))
      ({ c with coll := { c.coll with heldPreempts := held } }, if c.quadSaved j k.quad then some ok else none)

/-- `program.resume` (R112, R199): saved contexts are restored on their cores, and the quads take work items again. -/
def Chip.resume (c : Chip) (k : Pkt) : Chip × Reply :=
  match c.jobOf k (k.n 32 2) with
  | .error s => (c, refuse s)
  | .ok (h, j) => match j.quadsOf k with
    | none => (c, refuse stBadParam)
    | some qs =>
      let cls := qs.flatMap clustersOfQuad
      let mine := j.saved.filter (fun p => cls.contains (clusterOf (BitVec.ofNat 20 p.1)))
      if c.withdrawnIn cls then (c, refuse stCapacity)
      else if c.coreBusy cls then (c, busy0)
      else
        let c := c.loadStores h j cls
        let c := mine.foldl (fun (c : Chip) p => c.restoreCore h j (BitVec.ofNat 20 p.1) p.2) c
        (c.modJob h (fun (j : Job) => { j with paused := j.paused.filter (fun q => !qs.contains q) }), ok)

/-- What waits for a job that stops: pre-emptions are done, and armed changes and a copy are cancelled. -/
def Chip.endWaits (c : Chip) (v : Env) (h : JobId) : Chip :=
  let names (k : Pkt) : Bool := k.n 32 2 == h.toNat
  let c := c.finishWaiting v (fun k => k.op == 0x0203 && names k) ok
  c.finishWaiting v (fun k => (k.op == 0x0202 || k.op == 0x0601 || k.op == 0x0700) && names k) (refuse stCancelled)

/-- `program.stop` (R232): every work item ends and the handle is free; placed regions stay (R331). -/
def Chip.stopJob (c : Chip) (v : Env) (k : Pkt) : Chip × Reply :=
  match c.jobOf k (k.n 32 2) with
  | .error s => (c, refuse s)
  | .ok (h, j) =>
    let cores := (j.coresIn none).filter (fun i => (c.core i).job == some h)
    let c := cores.foldl Chip.stopCore c
    let gone := j.clusters.flatMap (fun cl => ((c.cluster cl).streams.filter (fun s =>
      s.st == .preempted && (tblFind j.saved s.core.toNat).isSome)).map (fun s => (cl, s)))
    let c := gone.foldl (fun (c : Chip) p => (c.releasePlace p.2).dropStream p.1 p.2.serial) c
    let c := j.clusters.foldl (fun (c : Chip) cl =>
      c.modCluster cl (fun x => { x with job := if x.job == some h then none else x.job })) c
    let c := c.applyClock h { j with exact := false }
    let c : Chip := { c with
      jobs := tblErase c.jobs h.toNat
      coll := { c.coll with heldPreempts := c.coll.heldPreempts.filter (fun x => !cores.contains x.1) }
      seqs := c.seqs.map (fun (s : Sequencer) => if s.running && s.job == h then { s with running := false, phase := 0, layers := [] } else s)
      cmd := { c.cmd with left := if j.regions.isEmpty then c.cmd.left else tblSet c.cmd.left h.toNat (j.tenant, j.regions) } }
    (c.endWaits v h, ok)

end Sys2Proof
end

