-- ==== Sys2Proof/Machine/Mode.lean ====
section
/-! DEFINITION. Mode changes in two phases (R453 to R456, R497 to R499). -/
namespace Sys2Proof

/-- The job with a mode change armed on a group. -/
def Chip.modeOf (c : Chip) (g : GroupId) : Option (JobId × Job × ModeChange) :=
  c.jobs.findSome? (fun p => match p.2.mode with
    | some m => if m.group == g then some (BitVec.ofNat 12 p.1, p.2, m) else none
    | none => none)

/-- The packet that armed a mode change of a job. -/
def modePkt (h : JobId) (k : Pkt) : Bool := k.op == 0x0202 && k.n 32 2 == h.toNat

/-- Sectors of the job that cannot stage a clock, because a core of theirs is held in the service state, as unit entries of kind 2. -/
def Chip.unarmed (c : Chip) (j : Job) : List W32 :=
  (j.sectors.filter (fun n => c.cores.any (fun p => p.2.service && sectorOf (BitVec.ofNat 20 p.1) == n))).map
    (fun n => BitVec.ofNat 32 (0x20000000 + n.toNat))

/-- `program.mode` (R453, R454, R497, R498); exact mode needs an assignment table (Table 18.1). -/
def Chip.programMode (c : Chip) (v : Env) (k : Pkt) : Chip × Option Reply :=
  let exact := k.n 34 1 == 1
  let deadline := k.n 40 8
  let commit := k.n 48 8
  match c.jobOf k (k.n 32 2), c.groupOf k (k.n 38 2) with
  | .error s, _ => (c, some (refuse s))
  | _, .error s => (c, some (refuse s))
  | .ok (h, j), .ok (g, _) =>
    if 1 < k.n 34 1 || c.clockBad exact (k.n 36 2) || commit < deadline + 20000 || nearEnd commit || (exact && j.image.assign.isNone) then
      (c, some (refuse stBadParam))
    else match c.modeOf g, j.mode with
      | some x, _ => (c, some { status := stBusy, hint := usTo v x.2.2.commit.toNat })
      | none, some m => (c, some { status := stBusy, hint := usTo v m.commit.toNat })
      | none, none =>
        if deadline < v.ns then (c.voteSent v g j.step.toNat deadline, some (armFailed []))
        else
          let failed := c.unarmed j
          let m : ModeChange := { exact := exact, f := BitVec.ofNat 6 (k.n 36 2), group := g, deadline := BitVec.ofNat 64 deadline,
                                  commit := BitVec.ofNat 64 commit, armed := failed.isEmpty, failed := failed }
          (c.setJob h { j with mode := some m }, none)

/-- The change is cancelled: what was staged is discarded. -/
def Chip.cancelMode (c : Chip) (v : Env) (h : JobId) (j : Job) (r : Reply) : Chip :=
  (c.setJob h { j with mode := none }).finishWaiting v (modePkt h) r

/-- MODE_VOTE (R454): at the arm deadline. -/
def Chip.modeVote (c : Chip) (v : Env) (g : GroupId) : Chip :=
  match c.modeOf g with
  | none => c
  | some (h, j, m) =>
    if m.vote.isSome || v.ns < m.deadline.toNat then c
    else (c.setJob h { j with mode := some { m with vote := some m.armed } }).voteSent v g j.step.toNat m.deadline.toNat

/-- MODE_VOTE_RESULT (R454, R497, R499). -/
def Chip.modeVoteResult (c : Chip) (v : Env) (g : GroupId) (peers : BitVec 64) : Chip :=
  match c.modeOf g with
  | none => c
  | some (h, j, m) =>
    if m.result.isSome || m.commit.toNat ≤ v.ns then c
    else match m.vote with
      | none => c
      | some one =>
        if one && peers != 0 then c.setJob h { j with mode := some { m with result := some true } }
        else c.cancelMode v h j (armFailed (m.failed.map (·.toNat)))

/-- MODE_COMMIT (R454 to R456, Table 18.2): work items and steps that are open finish in the old mode; off lock, the digest record says so
(R455). -/
def Chip.modeCommit (c : Chip) (v : Env) (g : GroupId) : Chip :=
  match c.modeOf g with
  | none => c
  | some (h, j, m) =>
    if m.result == some true && m.commit.toNat ≤ v.ns then
      let off := v.st == .out || v.st == .track
      let j1 : Job := { j with mode := none, exact := m.exact, f := m.f, digestFlags := if off then j.digestFlags ||| 2 else j.digestFlags }
      let c := (c.setJob h j1).modGroup g (fun (x : Group) =>
        match x.op.bind (·.cur) with
        | some _ => { x with staged := some m.exact }
        | none => { x with exact := m.exact, staged := none })
      ((c.applyClock h j1).stamp v 25 g.toNat).finishWaiting v (modePkt h) ok
    else c

/-- MODE_TIMEOUT (R454): the rule of R260 applies. -/
def Chip.modeTimeout (c : Chip) (v : Env) (g : GroupId) : Chip :=
  match c.modeOf g with
  | none => c
  | some (h, j, m) =>
    if m.result.isNone && m.commit.toNat ≤ v.ns then
      let c := (c.modSeqs (fun _ (s : Sequencer) => { s with desync := true })).modGroup g (fun (x : Group) => { x with desync := true })
      c.cancelMode v h j (refuse stTimeout)
    else c

end Sys2Proof
end

