-- ==== Sys2Proof/Machine/CmdColl.lean ====
section
/-! DEFINITION. The collective commands (R426, R427, R431, R448). -/
namespace Sys2Proof

/-! ### `collective.define` (R426, Table 17.1) -/

def Chip.defineGroup (c : Chip) (k : Pkt) : Chip × Reply :=
  let d := c.aread k.space (k.n 32 8) 64
  let f (off n : Nat) : Nat := fieldLe d off n
  let t := bits (f 2 2) 0 12
  let g : GroupId := BitVec.ofNat 12 (f 0 2)
  let n := f 4 4
  let members := (List.range (min n 65536)).map (fun i => ofLe (c.aread k.space (f 16 8 + 4 * i) 4))
  if k.space.isSome && t != k.tenant.toNat then (c, refuse stDenied)
  else if 4096 ≤ c.coll.groups.length then (c, refuse stCapacity)
  else match c.group g with
    | some x => (c, if x.tenant.toNat == t then busy0 else refuse stDenied)
    | none =>
      if f 0 2 / 4096 != 0 || f 2 2 / 4096 != 0 || n < 2 || 65536 < n || n ≤ f 8 4 || 1 < f 12 1 || 1 < f 13 1 || f 15 1 == 0 ||
          f 24 8 % 64 != 0 || !powTwoIn (f 32 4) 6 16 || !zeroBytes d 40 24 || members.any (fun m => decide (2 ^ 20 ≤ m)) ||
          !distinct members || nth 0 members (f 8 4) != c.cmd.chip.toNat then
        (c, refuse stBadParam)
      else
        (c.setGroup g {
          tenant := BitVec.ofNat 12 t, rank := f 8 4, members := members.map (BitVec.ofNat 20), arrival := f 12 1 == 1,
          drop := f 13 1 == 1, sumExp := BitVec.ofNat 8 (f 14 1), weight := BitVec.ofNat 8 (f 15 1), ledger := f 24 8,
          ledgerSize := f 32 4, limit := if f 36 4 == 0 then 1000000 else f 36 4 }, ok)

/-! ### `collective.free` (R427) -/

def Group.isOpen (g : Group) : Bool := match g.op with
  | some op => op.cur.isSome
  | none => false

def Chip.freeGroup (c : Chip) (k : Pkt) : Chip × Reply :=
  match c.groupOf k (k.n 32 2) with
  | .error s => (c, refuse s)
  | .ok (g, x) =>
    if x.isOpen then (c, busy0)
    else ({ c with coll := { c.coll with groups := tblErase c.coll.groups g.toNat, channels := tblErase c.coll.channels g.toNat } }, ok)

/-! ### `collective.op` (R431, Tables 17.4 to 17.6) -/

/-- A segment entry and whether it breaks Table 17.5. -/
def segmentOf (e : List Byte) : Segment :=
  { source := fieldLe e 0 8, result := fieldLe e 8 8, staging := fieldLe e 16 8, deferral := fieldLe e 24 8, elems := fieldLe e 32 4,
    tag := BitVec.ofNat 16 (fieldLe e 36 2), norm := bitAt (fieldLe e 38 2) 0, control := fieldLe e 40 8 }

def segmentBad (g : Group) (direct reducing : Bool) (e : List Byte) : Bool :=
  fieldLe e 32 4 == 0 || fieldLe e 38 2 / 2 != 0 || fieldLe e 40 8 % 16 != 0 || (fieldLe e 16 8 != 0 && !(direct && reducing)) ||
  (fieldLe e 24 8 != 0 && !(!g.drop && reducing))

/-- The descriptor breaks Table 17.4, or asks for a guard record that the group has not (R272). -/
def descriptorBad (g : Group) (x : List Byte) : Bool :=
  let f (off n : Nat) : Nat := fieldLe x off n
  let kind := f 0 1
  let form := f 2 1
  let red := kind == 1 || kind == 2
  let fm := f 3 1
  kind == 0 || 7 < kind || 1 < form || f 5 1 != 0 || bits (f 4 1) 3 5 != 0 || !zeroBytes x 52 4 || !zeroBytes x 64 64 ||
  2 ^ 48 ≤ f 56 8 || f 8 8 == 0 || f 24 4 == 0 || 4096 < f 24 4 || 1000000000 < f 28 4 ||
  ((kind == 5 || kind == 6) && form != 1) || (kind == 7 && form != 0) ||
  (if red then decide (4 < f 1 1) else f 1 1 != 0) ||
  (if red && f 1 1 ≤ 1 then decide (2 < fm % 16) || decide (2 < fm / 16) else fm != 0) ||
  (kind == 4 && decide (g.n ≤ f 6 2)) ||
  (if kind == 6 then f 48 4 == 0 || decide (1048576 < f 48 4) else f 40 8 != 0 || f 48 4 != 0) ||
  (bitAt (f 4 1) 2 && g.guard.isNone)

/-- Contexts of an engine that other groups hold. -/
def Chip.usedContexts (c : Chip) (g : GroupId) (e : Nat) : List Nat :=
  c.coll.groups.flatMap (fun p =>
    if p.1 == g.toNat then [] else match p.2.op with
      | some op => (op.contexts.filter (fun x => x.1.toNat == e)).map (fun x => x.2.toNat)
      | none => [])

/-- The lowest free context of an engine, in ascending order of the mask. -/
def Chip.takeContexts (c : Chip) (g : GroupId) (mask : Nat) : Option (List (BitVec 6 × Byte)) :=
  let picks := ((List.range 64).filter (bitAt mask)).map (fun e =>
    ((List.range 256).find? (fun i => !(c.usedContexts g e).contains i)).map (fun i => ((BitVec.ofNat 6 e : BitVec 6), (BitVec.ofNat 8 i : Byte))))
  if picks.any (·.isNone) then none else some (picks.filterMap (fun x => x))

def Chip.registerOp (c : Chip) (k : Pkt) : Chip × Reply :=
  match c.groupOf k (k.n 32 2) with
  | .error s => (c, refuse s)
  | .ok (gid, g) =>
    let x := c.aread k.space (k.n 40 8) 128
    let f (off n : Nat) : Nat := fieldLe x off n
    let red := f 0 1 == 1 || f 0 1 == 2
    if g.isOpen then (c, busy0)
    else match c.takeContexts gid (f 8 8) with
      | none => (c, refuse stCapacity)
      | some ctxs =>
        let segs := (List.range (min (f 24 4) 4096)).map (fun i => c.aread k.space (f 16 8 + 48 * i) 48)
        let perm := (List.range (min (f 48 4) 1048576)).map (fun i =>
          let e := c.aread k.space (f 40 8 + 16 * i) 16
          (fieldLe e 0 4, fieldLe e 4 4, fieldLe e 8 4, fieldLe e 12 4))
        if descriptorBad g x || segs.any (segmentBad g (f 2 1 == 1) red) ||
            perm.any (fun p => decide (g.n ≤ p.1) || decide (g.n ≤ p.2.1)) then (c, refuse stBadParam)
        else
          let op : CollOp := {
            kind := f 0 1, operator := f 1 1, direct := f 2 1 == 1, srcFmt := BitVec.ofNat 4 (f 3 1), resFmt := BitVec.ofNat 4 (f 3 1 / 16)
            mean := bitAt (f 4 1) 0, sat := bitAt (f 4 1) 1, guarded := bitAt (f 4 1) 2, root := f 6 2, contexts := ctxs,
            segs := segs.map segmentOf, margin := f 28 4, deadlines := f 32 8, perm := perm, step := BitVec.ofNat 48 (f 56 8) }
          (c.modGroup gid (fun (g : Group) => { g with op := some op }), ok)

/-! ### `collective.query` and COL_GSTATn (R448, Table 17.11) -/

/-- A write of COL_GSTATn clears WITHHELD, LATE and LOST where it holds ones. -/
def Chip.writeGstat (c : Chip) (g : GroupId) (w : W64) : Chip :=
  c.modGroup g (fun (x : Group) =>
    { x with withheld := x.withheld && !w.getLsbD 7, late := x.late && !w.getLsbD 6, lost := x.lost && !w.getLsbD 4 })

def Chip.collQuery (c : Chip) (k : Pkt) : Chip × Reply :=
  if 4096 ≤ k.n 32 2 then (c, refuse stBadParam)
  else
    let g : GroupId := BitVec.ofNat 12 (k.n 32 2)
    let foreign := match c.group g with
      | some x => k.space.isSome && x.tenant != k.tenant
      | none => false
    (c, if foreign then refuse stDenied else { status := stOk, body := leBytes 8 (c.gstat g).toNat })

end Sys2Proof
end

