-- ==== Sys2Proof/Machine/Repair.lean ====
section
/-! DEFINITION. Spares, the repair table and the managers (R326, R327, R356 to R358, R530 to R544). -/
namespace Sys2Proof

/-! ### Registers (Tables 22.9 to 22.11) -/

def ResetKind.code : ResetKind → Nat
  | .powerOn => 0
  | .thermalTrip => 1
  | .cold => 2
  | .warm => 3
  | .compute => 4

/-- REP_BOOT; TIME counts ms since the last reset. -/
def Sys.bootWord (s : Sys) : W64 :=
  BitVec.ofNat 64 (min (s.time / 64000000) 0xFFFFFFFF * 2 ^ 32 + s.status.toNat * 2 ^ 16 + s.kind.code * 256 + s.failedStage.toNat * 16 +
    s.stage)

/-- REP_STATE. -/
def Sys.stateWord (s : Sys) : W64 :=
  BitVec.ofNat 64 (s.switches.toNat * 2 ^ 32 + 64 * b2n s.failQuiet + 32 * b2n s.mpLost + 16 * b2n s.standbyOk + 8 * b2n s.cocoon +
    4 * b2n s.spareOk + 2 * b2n s.mp + b2n s.imageB)

/-- Some logical core of a cluster stands at a physical position. -/
def Cluster.carries (x : Cluster) (p : BitVec 7) : Bool := (List.range 64).any (fun k => x.position k == p)

/-- REP_CLUSTERn. -/
def Cluster.repWord (x : Cluster) : W64 :=
  BitVec.ofNat 64 (x.margin.toNat * 2 ^ 56 + x.worst.toNat * 2 ^ 50 + x.working.toNat * 2 ^ 16 + 4 * b2n x.withdrawn +
    2 * b2n (x.carries 65) + b2n (x.carries 64))

/-- SMB_ALERT_N is asserted (R568). -/
def Sys.alert (s : Sys) : Bool := s.bootFail || s.mpLost || s.failQuiet

/-! ### Spares (R530 to R534) -/

/-- The entry of a repair (Table 22.7) as 16 bytes. -/
def RepairEntry.bytes (e : RepairEntry) : List Byte :=
  [e.kind, e.state] ++ leBytes 2 e.replacement.toNat ++ leBytes 4 e.location.toNat ++ leBytes 8 e.time.toNat

def RepairEntry.ofBytes (b : List Byte) : RepairEntry :=
  { kind := nth 0 b 0, state := nth 0 b 1, replacement := BitVec.ofNat 16 (fieldLe b 2 2), location := BitVec.ofNat 32 (fieldLe b 4 4),
    time := BitVec.ofNat 64 (fieldLe b 8 8) }

/-- Spare positions of a cluster that work, carry no logical core and are promised to no staged entry. -/
def Chip.coreSpares (c : Chip) (cl : ClusterId) : List (BitVec 7) :=
  let x := c.cluster cl
  ([64, 65] : List (BitVec 7)).filter (fun p => !x.failedPos.contains p && !x.carries p &&
    !c.sys.repairs.any (fun e => e.kind == 1 && e.state == 0 && bits e.location.toNat 6 14 == cl.toNat && e.replacement.toNat == p.toNat))

/-- An entry for a location stands staged, or shows that no spare is left. -/
def Chip.listed (c : Chip) (kind location : Nat) : Bool :=
  c.sys.repairs.any (fun e => e.kind.toNat == kind && e.location.toNat == location && e.state != 1)

/-- Stage the replacement of a worn core (R531, R539). -/
def Chip.stageCore (c : Chip) (v : Env) (id : CoreId) : Chip :=
  if c.listed 1 id.toNat then c
  else match c.coreSpares (clusterOf id) with
    | p :: _ => c.addRepair v 1 0 p.toNat id.toNat
    | [] => c.addRepair v 1 2 0 id.toNat

/-- Spares used of a part of which there are two: entries of its kind that agree with a test. -/
def Chip.usedSpares (c : Chip) (kind : Nat) (same : RepairEntry → Bool) : Nat :=
  c.sys.repairs.countP (fun e => e.kind.toNat == kind && e.state != 2 && same e)

/-- Stage the next of two spares of a part, numbered from `base` on. -/
def Chip.stageOfTwo (c : Chip) (v : Env) (kind state base location : Nat) (same : RepairEntry → Bool) : Chip :=
  if c.listed kind location then c
  else
    let n := c.usedSpares kind same
    if n < 2 then c.addRepair v kind state (base + n) location else c.addRepair v kind 2 0 location

/-- Retire a pseudo-channel (R327): the copy to the stack's spare starts, or no spare is left. -/
def Chip.retirePc (c : Chip) (v : Env) (location : Nat) : Chip :=
  let stack := bits location 28 4
  if (tblFind c.mem.spares stack).isSome then (if c.listed 4 location then c else c.addRepair v 4 2 0 location)
  else
    let spare : SparePc := { pc := BitVec.ofNat 6 (bits location 22 6), copied := false, switched := false }
    ({ c with mem := { c.mem with spares := tblSet c.mem.spares stack spare } }).addRepair v 4 0 64 location

/-- Ask for a lane swap (R399). -/
def Chip.askSwap (c : Chip) (v : Env) (location : Nat) : Chip :=
  let lane : LaneSwap := { lane := BitVec.ofNat 2 (bits location 8 3), frame := v.frame }
  c.modPort (BitVec.ofNat 6 (bits location 0 6)) (fun (x : Port) =>
    if bitAt location 11 then (if x.txRetired == 7 then { x with txSwap := some lane } else x)
    else if x.retired == 7 && x.rxSwap.isNone then { x with rxSwap := some lane } else x)

/-- REPAIR_TRIGGER (R530, R531): firmware stages an entry for a worn part; a failed regulator phase is replaced at once. -/
def Chip.repairTrigger (c : Chip) (v : Env) (kind : Nat) (location : Nat) : Chip :=
  if !c.pairRuns || decide (16384 ≤ c.sys.repairs.length) then c
  else match kind with
    | 1 => if location < 2 ^ 20 then c.stageCore v (BitVec.ofNat 20 location) else c
    | 2 => c.stageOfTwo v 2 0 0 location (fun e => e.location.toNat == location)
    | 3 => if c.listed 3 location then c else c.addRepair v 3 0 0 location
    | 4 => if location % 2 ^ 22 == 0 then c.retirePc v location else c
    | 5 =>
      let x := c.port (BitVec.ofNat 6 location)
      if c.listed 5 location || 4096 ≤ location || bits location 6 2 != 0 || 3 < bits location 8 3 then c
      else if (if bitAt location 11 then x.txRetired else x.retired) == 7 then c.addRepair v 5 0 4 location
      else c.addRepair v 5 2 0 location
    | 6 => if location < 128 then c.stageOfTwo v 6 0 16 location (fun e => e.location.toNat / 16 == location / 16) else c
    | 7 => if location < 65536 then c.stageOfTwo v 7 1 0 location (fun e => e.location.toNat % 256 == location % 256) else c
    | _ => c

/-- The spare management pair starts (R540). -/
def Sys.switchPair (s : Sys) (now : Nat) : Sys :=
  if s.spareOk then { s with spareOk := false, mp := !s.mp, switches := satInc s.switches 1, pairStarting := some now } else s

/-- The standby cocoon controller takes over, and a pair switch in progress starts again (R542). -/
def Sys.switchCocoon (s : Sys) (now : Nat) : Sys :=
  if s.standbyOk then
    { s with standbyOk := false, cocoon := !s.cocoon, switches := satInc s.switches 1, pairStarting := s.pairStarting.map (fun _ => now) }
  else s

/-- What a repair entry changes when it comes into force (R532, Table 22.6). -/
def Chip.enforce (c : Chip) (v : Env) (e : RepairEntry) : Chip :=
  let loc := e.location.toNat
  match e.kind.toNat with
  | 1 => c.modCluster (BitVec.ofNat 14 (bits loc 6 14)) (fun (x : Cluster) =>
      { x with failedPos := x.failedPos ++ [x.position (loc % 64)], working := x.working - 1
               positions := tblSet x.positions (loc % 64) (BitVec.ofNat 7 e.replacement.toNat) })
  | 3 => { c with mem := { c.mem with rowRepairs := tblMod 0 c.mem.rowRepairs (loc / 2 ^ 22) (· + 1) } }
  | 4 => { c with mem := { c.mem with spares := tblMap c.mem.spares (fun s (x : SparePc) =>
      if s == bits loc 28 4 then { x with switched := true } else x) } }
  | 5 => c.askSwap v loc
  | 6 => { c with sys := { c.sys with appPositions := tblSet c.sys.appPositions (loc % 128) (BitVec.ofNat 5 e.replacement.toNat) } }
  | 8 => { c with sys := c.sys.switchPair v.now }
  | 9 => { c with sys := c.sys.switchCocoon v.now }
  | _ => c

/-- The hardware that an entry needs is ready: the copy of a pseudo-channel has ended (R327). -/
def Chip.repairReady (c : Chip) (e : RepairEntry) : Bool :=
  e.kind != 4 || (match tblFind c.mem.spares (bits e.location.toNat 28 4) with
    | some x => x.copied
    | none => false)

/-- The jobs that use the part of an entry: those of its core's quad, or every launched job for memory and ports; a job uses no other
part (R532). -/
def Chip.usersOf (c : Chip) (e : RepairEntry) : List Job :=
  (c.jobs.map (·.2)).filter (fun j => j.active && decide (e.kind.toNat < 6) &&
    (e.kind != 1 || j.quads.contains (bits e.location.toNat 8 12)))

/-- ns that a live repair takes (Table 22.6). -/
def RepairEntry.cost (e : RepairEntry) : Nat :=
  match e.kind.toNat with
  | 1 => 1000
  | 2 => 200
  | 3 => 2000
  | 4 => 1000
  | 5 => 31458
  | _ => 0

/-- A job stands at a boundary at which its staged repairs take effect (R532): in its moult's interval with time left, or, without a
plan, while none of its work items runs. -/
def Chip.atBoundary (c : Chip) (v : Env) (j : Job) (e : RepairEntry) : Bool :=
  match j.moult with
  | some m => decide (m.start.toNat ≤ v.ns) && decide (v.ns + e.cost < m.commit.toNat)
  | none => j.plan.isNone && !(j.coresIn none).any (fun i => (c.core i).running)

/-- Bring entry `i` into force. -/
def Chip.applyEntry (c : Chip) (v : Env) (i : Nat) (e : RepairEntry) : Chip :=
  (({ c with sys := { c.sys with repairs := setNth c.sys.repairs i { e with state := 1 } } }).enforce v e).stamp v 31 0

/-- STAGED_REPAIR_APPLY (R532). -/
def Chip.stagedApply (c : Chip) (v : Env) (i : Nat) : Chip :=
  match c.sys.repairs[i]? with
  | none => c
  | some e =>
    if e.state == 0 && c.repairReady e && (c.usersOf e).all (fun j => c.atBoundary v j e) then c.applyEntry v i e else c

/-- HBM_ROW_REPAIR (R326): the row moves, its contents unchanged, and the repair table records it. -/
def Chip.rowRepair (c : Chip) (v : Env) (stack pc bank row : Nat) : Chip :=
  let location := stack * 2 ^ 28 + pc * 2 ^ 22 + bank * 2 ^ 16 + row
  let e : RepairEntry := { kind := 3, state := 1, replacement := 0, location := BitVec.ofNat 32 location, time := BitVec.ofNat 64 v.ns }
  match c.sys.repairs.findIdx? (fun e => e.kind == 3 && e.location.toNat == location && e.state == 0) with
  | some i => c.applyEntry v i e
  | none => (c.enforce v e).addRepair v 3 1 0 location

/-- PSEUDO_CHANNEL_COPY_END (R327). -/
def Chip.copyEnd (c : Chip) (stack : Nat) : Chip :=
  { c with mem := { c.mem with spares := tblMap c.mem.spares (fun s (x : SparePc) => if s == stack then { x with copied := true } else x) } }

/-- AGEING_SCAN (R539): a margin below 25 ps stages the replacement of the pair's working cores. -/
def Chip.ageingScan (c : Chip) (v : Env) (cl : ClusterId) (margin : Byte) (pair : BitVec 6) : Chip :=
  if 32 < pair.toNat || c.sys.failQuiet then c
  else
    let c := c.modCluster cl (fun (x : Cluster) => { x with margin := margin, worst := pair })
    if 25 ≤ margin.toNat then c
    else
      let x := c.cluster cl
      let worn := (List.range 64).filter (fun k => (x.position k).toNat / 2 == pair.toNat)
      worn.foldl (fun (c : Chip) k => c.stageCore v (coreAt cl k)) c

/-- REGULATOR_PHASE_FAIL (R531): its own hardware replaces it at once; source 31. -/
def Chip.phaseFail (c : Chip) (v : Env) (rail phase : Nat) : Chip :=
  c.stageOfTwo v 7 1 0 (rail + 256 * phase) (fun e => e.location.toNat % 256 == rail)

/-! ### Repair commands (R538) -/

/-- `repair.query`. -/
def Chip.repairQuery (c : Chip) (k : Pkt) : Chip × Reply :=
  let es := (c.sys.repairs.drop (k.n 32 4)).take (k.n 36 4)
  (c, { status := stOk, body := leBytes 4 c.sys.repairs.length ++ leBytes 4 (c.sys.repairs.countP (fun e => e.state == 0)),
        data := es.flatMap RepairEntry.bytes })

/-- The replacement of an entry is a free spare of its cluster, die, stack or port. -/
def Chip.replacementFree (c : Chip) (e : RepairEntry) : Bool :=
  let loc := e.location.toNat
  let r := e.replacement.toNat
  match e.kind.toNat with
  | 1 => decide (loc < 2 ^ 20) && (c.coreSpares (BitVec.ofNat 14 (bits loc 6 14))).any (fun p => p.toNat == r)
  | 2 => decide (r < 2) && !c.sys.repairs.any (fun x => x.kind == 2 && x.state != 2 && x.location == e.location && x.replacement == e.replacement)
  | 3 => r == 0
  | 4 => r == 64 && loc % 2 ^ 22 == 0 && (tblFind c.mem.spares (bits loc 28 4)).isNone
  | 5 => r == 4 && decide (loc < 4096) && bits loc 6 2 == 0 && decide (bits loc 8 3 < 4) &&
      (let x := c.port (BitVec.ofNat 6 loc); (if bitAt loc 11 then x.txRetired else x.retired) == 7)
  | 6 => decide (loc < 128) && (r == 16 || r == 17) &&
      !c.sys.repairs.any (fun x => x.kind == 6 && x.state != 2 && x.location.toNat / 16 == loc / 16 && x.replacement == e.replacement)
  | 7 => decide (loc < 65536) && decide (r < 2) &&
      !c.sys.repairs.any (fun x => x.kind == 7 && x.state != 2 && x.location.toNat % 256 == loc % 256 && x.replacement == e.replacement)
  | 8 => loc == 0 && r == 1 && c.sys.spareOk
  | 9 => loc == 0 && r == 1 && c.sys.standbyOk
  | _ => false

/-- The part of an entry is failed: out of service (R531). -/
def Chip.partFailed (c : Chip) (e : RepairEntry) : Bool :=
  match e.kind.toNat with
  | 1 => (c.core (BitVec.ofNat 20 e.location.toNat)).outOfService
  | 7 => true
  | _ => false

/-- `repair.apply`. -/
def Chip.repairApply (c : Chip) (v : Env) (k : Pkt) : Chip × Reply :=
  let e := { RepairEntry.ofBytes (slice k.bytes 32 16) with state := 0 }
  if !c.replacementFree e then (c, refuse stBadParam)
  else if 16384 ≤ c.sys.repairs.length then (c, refuse stCapacity)
  else
    let i := c.sys.repairs.length
    let spare : SparePc := { pc := BitVec.ofNat 6 (bits e.location.toNat 22 6), copied := false, switched := false }
    let c : Chip := { c with
      sys := { c.sys with repairs := c.sys.repairs ++ [e] }
      mem := if e.kind == 4 then { c.mem with spares := tblSet c.mem.spares (bits e.location.toNat 28 4) spare } else c.mem }
    (if c.partFailed e then c.applyEntry v i e else c, ok)

/-- `repair.fuse`, REVOKE: not the slot that verified the firmware, nor the last one. -/
def Chip.fuseRevoke (c : Chip) (k : Pkt) : Chip × Reply :=
  let slot := k.n 33 1
  let f := c.sys.fuses
  if 3 < slot || f.revoke.getLsbD slot || c.sys.rootSlot.toNat == slot ||
      (List.range 4).all (fun i => i == slot || f.revoke.getLsbD i) then (c, refuse stBadParam)
  else ({ c with sys := { c.sys with fuses := { f with revoke := f.revoke ||| (1#4 <<< slot) } } }, ok)

/-- `repair.fuse`, ROLLBACK: the count only rises. -/
def Chip.fuseRollback (c : Chip) (k : Pkt) : Chip × Reply :=
  let n := k.n 33 1
  let f := c.sys.fuses
  if n ≤ f.rollback.toNat || 64 < n then (c, refuse stBadParam)
  else ({ c with sys := { c.sys with fuses := { f with rollback := BitVec.ofNat 7 n } } }, ok)

/-! ### Managers (R540 to R543) -/

/-- Packets that no management pair will serve are answered `ABSENT` (R543). -/
def Chip.dropManaged (c : Chip) (v : Env) : Chip :=
  let ks := c.cmd.queue.filter (fun k => k.cls != .c)
  ks.foldl (fun (c : Chip) k => (({ c with cmd := { c.cmd with queue := c.cmd.queue.erase k } }).reply v k (refuse stAbsent))) c

/-- MANAGEMENT_PAIR_FAILURE (R540, R543): the spare pair starts, or no pair is left. -/
def Chip.pairFailure (c : Chip) (v : Env) : Chip :=
  let s := c.sys
  if !s.ended.getLsbD 1 || s.mpLost || s.failQuiet then c
  else if s.spareOk then
    { c with sys := s.switchPair v.now }
  else ({ c with sys := { s with mpLost := true, pairStarting := none } }).dropManaged v

/-- SPARE_PAIR_READY (R540, R541): 50 ms after its start the pair serves; the repair table records it. -/
def Chip.spareReady (c : Chip) (v : Env) : Chip :=
  match c.sys.pairStarting with
  | none => c
  | some t =>
    if t + 3200000000 ≤ v.now && !c.sys.failQuiet then
      let c : Chip := { c with sys := { c.sys with pairStarting := none } }
      if c.sys.repairs.any (fun e => e.kind == 8 && e.state == 1) then c else c.addRepair v 8 1 1 0
    else c

/-- Myeth lanes go to electrical idle (Table 22.3). -/
def Fabric.idle (f : Fabric) : Fabric := { f with ports := tblMap f.ports (fun _ (p : Port) => { p with link := 0, wire := none }) }

/-- COCOON_TAKEOVER (R542, R543): the standby takes over and a pair switch in progress starts again; without a standby the chip goes
fail-quiet. -/
def Chip.takeover (c : Chip) (v : Env) : Chip :=
  let s := c.sys
  if s.failQuiet then c
  else if s.standbyOk then
    ({ c with sys := s.switchCocoon v.now }).addRepair v 9 1 1 0
  else { c with
    sys := { s with failQuiet := true }
    fab := c.fab.idle }

/-! ### Pins (R563, R568, R570) -/

/-- REFERENCE_CLOCK_LOSS: links fall back to training, which does not end without the reference. -/
def Chip.refLoss (c : Chip) : Chip :=
  { c with
    sys := { c.sys with refclk := false }
    fab := { c.fab with ports := tblMap c.fab.ports (fun _ (p : Port) => if p.link == 2 then { p with link := 1, wire := none } else p) } }

/-- REFERENCE_CLOCK_RETURN. -/
def Chip.refReturn (c : Chip) : Chip :=
  { c with
    sys := { c.sys with refclk := true }
    fab := { c.fab with ports := tblMap c.fab.ports (fun _ (p : Port) => if p.link == 1 then { p with link := 2 } else p) } }

/-- TAP instructions by number: 0 BYPASS, 1 IDCODE, 2 SAMPLE/PRELOAD, 3 EXTEST. While READY the last two act as BYPASS. -/
def Sys.tapLoad (s : Sys) (i : BitVec 2) : Sys :=
  let j : BitVec 2 := if s.ready && i.toNat != 1 then 0 else i
  { s with tap := j, tdo := if j == 1 then 0x1810045B else 0, boundary := j == 3 }

end Sys2Proof
end

