-- ==== Sys2Proof/Machine/Boot.lean ====
section
/-! DEFINITION. Start-up and resets (R506, R514, R515, R524 to R529, R546, R572 to R574). -/
namespace Sys2Proof

/-! ### Resets (Table 22.2) -/

/-- A reset that keeps only fuses and SPI NOR, the repair table in it (R537, R546); pins, straps and the supply inputs stand as they are
outside the chip (R572). -/
def Chip.fullReset (c : Chip) (kind : ResetKind) : Chip :=
  { sys := { kind := kind, fuses := c.sys.fuses, straps := c.sys.straps, cool := c.sys.cool, refclk := c.sys.refclk,
             repairs := c.sys.repairs }
    power := { aOk := c.power.aOk, bOk := c.power.bOk, active := c.power.active, noneSince := c.power.noneSince } }

/-- A cluster after a warm or compute reset: what the repair table and the monitors know stays. -/
def Cluster.volatileReset (x : Cluster) : Cluster :=
  { margin := x.margin, worst := x.worst, working := x.working, withdrawn := x.withdrawn, positions := x.positions, failedPos := x.failedPos,
    gated := x.gated }

/-- Jobs end; what they have placed stays placed, and their supervisors are notified (R331, R526). -/
def Chip.endJobs (c : Chip) (v : Env) : Chip :=
  let c := c.jobs.foldl (fun (c : Chip) p => (c.endWaits v (BitVec.ofNat 12 p.1)).notify p.2.tenant) c
  let left := c.jobs.foldl (fun (l : Tbl (TenantId × List Region)) p =>
    if p.2.regions.isEmpty then l else tblSet l p.1 (p.2.tenant, p.2.regions)) c.cmd.left
  { c with jobs := [], seqs := List.replicate 8 {}, cmd := { c.cmd with left := left }, coll := { c.coll with heldPreempts := [] } }

/-- What the cores, clusters and walkers lose; no job pins a sector any more. -/
def Chip.dropCores (c : Chip) : Chip :=
  { c with
    cores := []
    clusters := tblMap c.clusters (fun _ (x : Cluster) => x.volatileReset)
    xlt := { c.xlt with walkers := [] }
    mem := { c.mem with ctls := [], spillUse := 0 }
    power := { c.power with sectors := tblMap c.power.sectors (fun _ (x : Sector) =>
      if x.exact then { x with exact := false, target := c.power.clock.setWidth 6 } else x) } }

/-- Stages run again after a reset. -/
def Sys.restart (s : Sys) (kind : ResetKind) (stages : List Nat) : Sys :=
  { s with kind := kind, time := 0, status := 0, failedStage := 0, ended := s.ended &&& ~~~(BitVec.ofNat 8 (stages.foldl (fun a i => a + 2 ^ i) 0)) }

/-- Warm and compute resets clear the counters but HT (R546): the saturating ones of R547 and the barrier generations. -/
def Chip.clearCounters (c : Chip) : Chip :=
  { c with
    mem := { c.mem with unpopulated := 0, errs := [] }
    xlt := { c.xlt with violations := 0 }
    tenants := tblMap c.tenants (fun _ (t : Tenant) => { t with violations := 0 })
    barriers := tblMap c.barriers (fun _ (b : Barrier) => { b with generation := 0 })
    fab := { c.fab with ports := tblMap c.fab.ports (fun _ (p : Port) =>
      { p with fec := 0, lcrc := 0, lost := 0, unsched := 0, collide := 0, ptp := 0, e2e := 0, openDrop := 0 }) }
    eye := { c.eye with units := c.eye.units.map (fun (u : Eye) => { u with lost := 0 }) }
    power := { c.power with switches := 0, sectors := tblMap c.power.sectors (fun _ (x : Sector) => { x with wakes := 0 }) }
    sys := { c.sys with switches := 0 }
    cmd := { c.cmd with rings := tblMap c.cmd.rings (fun _ (r : Ring) => { r with dropped := 0 }) } }

/-- Warm reset; the compute row keeps management firmware state beyond it, so a warm one does not. -/
def Chip.warmReset (c : Chip) : Chip :=
  let c := c.dropCores.clearCounters
  { c with
    tenants := [], jobs := [], seqs := List.replicate 8 {}, coll := {}
    barriers := tblMap c.barriers (fun _ (b : Barrier) => { b with claimed := false, st := .idle })
    reservations := []
    cmd := {}
    returned := []
    sys := c.sys.restart .warm [6, 7] }

/-- Compute reset. -/
def Chip.computeReset (c : Chip) (v : Env) : Chip :=
  let c := (((c.endJobs v).dropCores).invalReplies v).clearCounters
  { c with sys := c.sys.restart .compute [6] }

/-! ### Boot stages (R524, Table 22.1) -/

/-- The stages that a stage depends on have ended, and it has not. -/
def Sys.stageOpen (s : Sys) (n : Nat) : Bool :=
  let needs : List Nat := match n with
    | 0 => []
    | 1 => [0]
    | 2 => [1]
    | 3 => [2]
    | 4 => [2]
    | 5 => [2]
    | 6 => [3]
    | _ => [3, 4]
  !s.bootFail && !s.tripped && !s.failQuiet && !s.ended.getLsbD n && needs.all s.ended.getLsbD

def Sys.endStage (s : Sys) (n : Nat) : Sys :=
  let s := { s with ended := s.ended ||| (1#8 <<< n) }
  { s with boundary := s.boundary && !s.ready }

/-- BOOT_FAIL in a stage. -/
def Sys.fail (s : Sys) (n status : Nat) : Sys :=
  { s with bootFail := true, failedStage := BitVec.ofNat 4 n, status := BitVec.ofNat 16 status }

/-- SUSTAINED of a cooling class (Tables 21.4, 24.7). -/
def sustainedOf (cool : BitVec 2) : BitVec 6 :=
  match cool.toNat with
  | 0 => 40
  | 1 => 36
  | _ => 32

/-- Stage 1: an image is verified (R357), by the lowest root slot that is not revoked, and the management pair starts. -/
def Chip.imageLoaded (c : Chip) (fromB : Bool) : Chip :=
  let slot := ((List.range 4).find? (fun i => !c.sys.fuses.revoke.getLsbD i)).getD 0
  { c with
    sys := { c.sys with imageB := fromB, rootSlot := BitVec.ofNat 2 slot }
    power := { c.power with sustained := sustainedOf c.sys.cool } }

/-- An entry of the repair table takes effect at boot: what is in force, and pseudo-channels, lanes and spares in hardware (R524). -/
def Chip.bootEntry (c : Chip) (e : RepairEntry) : Chip :=
  let loc := e.location.toNat
  let cl : ClusterId := BitVec.ofNat 14 (bits loc 6 14)
  match e.state.toNat, e.kind.toNat with
  | 1, 1 => c.modCluster cl (fun (x : Cluster) =>
      { x with failedPos := x.failedPos ++ [x.position (loc % 64)], working := x.working - 1
               positions := tblSet x.positions (loc % 64) (BitVec.ofNat 7 e.replacement.toNat) })
  | 2, 1 => (c.modCluster cl (fun (x : Cluster) =>
      { x with failedPos := x.failedPos ++ [x.position (loc % 64)], working := x.working - 1 })).withdrawQuad (quadOf cl)
  | 1, 3 => { c with mem := { c.mem with rowRepairs := tblMod 0 c.mem.rowRepairs (loc / 2 ^ 22) (· + 1) } }
  | 1, 4 =>
    let spare : SparePc := { pc := BitVec.ofNat 6 (bits loc 22 6), copied := true, switched := true }
    { c with mem := { c.mem with spares := tblSet c.mem.spares (bits loc 28 4) spare } }
  | 1, 5 => c.modPort (BitVec.ofNat 6 loc) (fun (x : Port) =>
      if bitAt loc 11 then { x with txRetired := BitVec.ofNat 3 (bits loc 8 3) } else { x with retired := BitVec.ofNat 3 (bits loc 8 3) })
  | 1, 6 => { c with sys := { c.sys with appPositions := tblSet c.sys.appPositions (loc % 128) (BitVec.ofNat 5 e.replacement.toNat) } }
  | _, _ => c

/-- Stage 2: the table that was read. -/
def Chip.repairTable (c : Chip) (entries : List (BitVec 128)) : Chip :=
  let es := entries.map (fun w => RepairEntry.ofBytes (leBytes 16 w.toNat))
  es.foldl Chip.bootEntry { c with sys := { c.sys with repairs := es } }

/-- Mark granules as the owner's (R337). -/
def Chip.ownerGranules (c : Chip) (gs : List Nat) : Chip := gs.foldl (fun (c : Chip) g => c.setOwn g 0x4000) c

/-- Stage 3: memory is trained (R319, Table 12.10); firmware sets the bases of the spill area and of the norm table, and marks its own
granules, the map's, the spill area's and the norm table's; where they lie is open (log 6, log 39). -/
def Chip.memoryTrained (c : Chip) (v : Env) (t2Cap : Byte) (t2Absent : W16) : Chip :=
  let spill := BitVec.ofNat 40 ((Config.freeValue v.fresh).toNat % (tier1End / 4096))
  let norm := BitVec.ofNat 30 ((Config.freeValue (v.fresh + 1)).toNat % (tier1End / 2 ^ 22))
  let c : Chip := { c with mem := { c.mem with
    t2Absent := t2Absent, t2Cap := if t2Absent == 0 && [8, 16, 32, 64].contains t2Cap.toNat then t2Cap else 0
    spillBase := spill, normBase := norm } }
  c.ownerGranules (granulesIn (4096 * spill.toNat) (c.mem.spillSize.toNat * 8388608) ++ granulesIn (norm.toNat * 2 ^ 22) 4194304 ++
    granulesIn (4096 * c.xlt.ownBase.toNat) 6291456 ++
    (Config.firmwareGranules v.fresh).filter (fun g => decide (g < tier1End / granule)))

/-- A status code that the spec does not state, of those that say that a stage has failed (log 6). -/
def openStatus (v : Env) : Nat := 1 + (Config.freeValue v.fresh).toNat % 17

/-- Stage 6: failed cores are replaced, or their quads withdrawn (R529, R534). -/
def Chip.selfTested (c : Chip) (v : Env) (failed : List (BitVec 32)) : Chip :=
  failed.foldl (fun (c : Chip) x => c.replaceCore v (BitVec.ofNat 20 x.toNat)) c

/-- Stage 4: a port maps what its expanders report, up to the cap; T3_EXCESS names the ports that report more (R317, Table 12.10). -/
def MemState.tier3 (m : MemState) (caps : List Nat) : MemState :=
  { m with
    t3Cap := caps.map (fun n => BitVec.ofNat 40 (min n 1000000000000))
    t3Excess := BitVec.ofNat 4 ((List.range 4).foldl (fun (a : Nat) p => a + b2n (decide (1000000000000 < nth 0 caps p)) * 2 ^ p) 0) }

/-- BOOT_STAGE_END. -/
def Chip.bootStage (c : Chip) (v : Env) (r : BootResult) : Chip :=
  let go (n : Nat) (f : Chip → Chip) : Chip :=
    if c.sys.stageOpen n then let d := f c; { d with sys := d.sys.endStage n } else c
  match r with
  | .supplies => if c.power.aOk || c.power.bOk then go 0 id else c
  | .image fromB => go 1 (fun c => c.imageLoaded fromB)
  | .imagesBad => if c.sys.stageOpen 1 then { c with sys := c.sys.fail 1 (openStatus v) } else c
  | .repairTable es => go 2 (fun c => c.repairTable es)
  | .memory cap absent => go 3 (fun c => c.memoryTrained v cap absent)
  | .stackFailed => if c.sys.stageOpen 3 then { c with sys := c.sys.fail 3 stAbsent, fab := c.fab.idle } else c
  | .ports caps => go 4 (fun c => { c with mem := c.mem.tier3 caps })
  | .links up => go 5 (fun c =>
      (portsOf up.toNat).foldl (fun (c : Chip) p => c.modPort p (fun (x : Port) => { x with link := if c.sys.refclk then 2 else 1 })) c)
  | .selfTest failed => go 6 (fun c => c.selfTested v failed)
  | .system good => go 7 (fun c => if good then c else { c with sys := { c.sys with failedStage := 7, status := BitVec.ofNat 16 (openStatus v) } })

namespace Machine

/-- A reset that keeps only fuses, SPI NOR and what stands outside the chip: hall time is lost too. -/
def State.fullReset (s : State) (kind : ResetKind) : State :=
  { s with chip := s.chip.fullReset kind, time := {}, htRegs := {} }

/-- POWER_ON_RESET (R524, R572). -/
def State.powerOn (s : State) (pos cool : BitVec 2) : State :=
  (s.fullReset .powerOn).onChip (fun c => { c with sys := { c.sys with straps := pos, cool := cool } })

/-- POWER_LOSS_RESET (R506): no usable input for 20 µs. -/
def State.powerLoss (s : State) : State :=
  match s.chip.power.noneSince with
  | none => s
  | some t => if t + 1280000 ≤ s.now then s.fullReset .powerOn else s

/-- THERMAL_TRIP (R514, R574): THERMTRIP_N is asserted, and the restart waits. -/
def State.thermalTrip (s : State) (tj : Byte) : State :=
  if tj.toNat < 125 then s
  else (s.fullReset .thermalTrip).onChip (fun c => { c with sys := { c.sys with tripped := true, thermtrip := true } })

/-- THERMAL_TRIP_RECOVERY (R574). -/
def State.tripRecovery (s : State) (tjMax : Byte) : State :=
  s.onChip (fun c =>
    if c.sys.tripped && decide (tjMax.toNat < 95) then
      { c with sys := { c.sys with tripped := false, thermtrip := false }, power := { c.power with tjMax := tjMax } } else c)

/-- A cold reset; a thermal trip that has not ended stands above it (R526). -/
def State.coldReset (s : State) : State := if s.chip.sys.tripped then s else s.fullReset .cold

/-- BOOT_STAGE_END, with the free values that it takes; a chip in BOOT_FAIL drives PPS_OUT low (Table 22.3). -/
def State.bootStage (s : State) (r : BootResult) : State :=
  let s1 := s.onChip (fun c => c.bootStage s.env r)
  match r with
  | .memory _ _ => { s1 with fresh := s1.fresh + 2 }
  | .imagesBad => { s1 with fresh := s1.fresh + 1 }
  | .stackFailed => if s1.chip.sys.bootFail then { s1 with time := { s1.time with ppsOut := false } } else s1
  | .system false => { s1 with fresh := s1.fresh + 1 }
  | _ => s1

/-- A `device.reset` of a kind: it replies before the reset begins. -/
def State.deviceReset (s : State) (p : PktRef) (kind : Nat) (f : State → State) : State :=
  match s.chip.takePkt p 0x0005 (fun k => k.n 32 1 == kind) with
  | none => s
  | some (k, c) => f { s with chip := c.reply s.env k ok }

/-- POWER_CONTROL (R512, R513): the requests of the sectors, and the DVFS point of the application cores, which falls while the power is
above LIMIT and may rise while it is below 98 % of it; the new point is free (log 6). -/
def State.powerControl (s : State) (watts : W16) : State :=
  let p := s.chip.power
  let pick : Byte := (Config.freeValue s.fresh).setWidth 8
  let isOver := p.limitEn && decide (p.limit.toNat < watts.toNat)
  let under := !p.limitEn || decide (watts.toNat * 100 < p.limit.toNat * 98)
  let point : Byte :=
    if isOver then (if pick.toNat < p.appClock.toNat then pick else p.appClock)
    else if under then (if p.appClock.toNat < pick.toNat && pick.toNat ≤ 112 then pick else p.appClock)
    else p.appClock
  let s1 := s.onChip (fun c => c.powerControl s.env watts)
  { s1 with fresh := s.fresh + 1, chip := { s1.chip with power := { s1.chip.power with appClock := point } } }

/-- An effect on the chip that takes `n` free values (log 6). -/
def State.took (s : State) (n : Nat) (f : Chip → Chip) : State :=
  { s.onChip f with fresh := s.fresh + n }

/-- COCOON_TAKEOVER; a chip that goes fail-quiet drives PPS_OUT low (Table 22.3). -/
def State.takeover (s : State) : State :=
  let s1 := s.onChip (fun c => c.takeover s.env)
  if s1.chip.sys.failQuiet then { s1 with time := { s1.time with ppsOut := false } } else s1

end Machine

end Sys2Proof
end

