-- ==== Sys2Proof/Machine/CmdDevice.lean ====
section
/-! DEFINITION. The device commands (R358, R485, R492, R494, R544), the eyespot and debug commands (R136, R174, R475, R477). -/
namespace Sys2Proof

/-- DEV_ID and DEV_CHIP (Table 20.13). -/
def devId : Nat := 0x8100423100000000
def Chip.devChip (c : Chip) : Nat := c.sys.straps.toNat * 2 ^ 20 + c.cmd.chip.toNat

/-- `device.query`. -/
def Chip.deviceQuery (c : Chip) (v : Env) (k : Pkt) : Chip × Reply :=
  (c, { status := stOk, body := leBytes 8 devId ++ leBytes 8 c.devChip ++ leBytes 8 v.status.toNat ++
    leBytes 2 (c.jobs.countP (fun p => p.2.tenant == k.tenant)) })

/-- Free words: what the spec leaves to keys, images and tables (log 6). -/
def freeBytes (fresh from_ n : Nat) : List Byte :=
  (List.range n).flatMap (fun i => leBytes 8 (Config.freeValue (fresh + from_ + i)).toNat)

/-- The report of Table 13.13: hashes and signature are free; a tenant supervisor reads zeros for the tenants' hash. -/
def Chip.report (c : Chip) (v : Env) (k : Pkt) : List Byte :=
  leBytes 4 0x54415442 ++ leBytes 2 1 ++ leBytes 2 512 ++ leBytes 4 c.cmd.chip.toNat ++ [0x42, 0x31] ++ leBytes 1 c.sys.rootSlot.toNat ++
  leBytes 1 c.sys.fuses.rollback.toNat ++ leBytes 8 v.ns ++ leBytes 8 c.sys.fuses.serial.toNat ++ slice k.bytes 32 48 ++
  freeBytes v.fresh 0 18 ++ (if k.space.isSome then List.replicate 48 0 else freeBytes v.fresh 18 6) ++ List.replicate 144 0 ++
  freeBytes v.fresh 24 12

/-- `device.attest` (R358): the report, then the certificate. -/
def Chip.attest (c : Chip) (v : Env) (k : Pkt) : Chip × Reply :=
  (c, { status := stOk, data := c.report v k ++ Config.certificate v.fresh })

/-- `device.cancel` (R492): the oldest packet of the ring with the tag. -/
def Chip.deviceCancel (c : Chip) (v : Env) (k : Pkt) : Chip × Reply :=
  let tagged (x : Pkt) : Bool := x.ring == k.ring && x.tag == k.n 32 2 && x.index != k.index
  let older (a b : Pkt) : Bool := decide (0 ≤ (b.index - a.index).toInt)
  match sortBy older ((c.cmd.queue ++ c.cmd.waiting).filter tagged) with
  | [] => (c, refuse stBadParam)
  | x :: _ =>
    if c.cmd.queue.contains x then
      (({ c with cmd := { c.cmd with queue := c.cmd.queue.erase x } }).reply v x (refuse stCancelled), ok)
    else (c, refuse stAlreadySent)

/-- `device.config` (R485, R503): up to 64 peers; an entry of zeros lists none (log 41). -/
def Chip.deviceConfig (c : Chip) (k : Pkt) : Chip × Reply :=
  let chip := k.n 32 4
  let base := k.n 56 8
  let records := k.n 64 4
  if 2 ^ 20 ≤ chip || 2 ^ 52 ≤ base || (!(base == 0 && records == 0) && !powTwoIn records 6 16) then (c, refuse stBadParam)
  else if chip != c.cmd.chip.toNat && !c.coll.groups.isEmpty then (c, busy0)
  else
    let es := (List.range 64).map (fun i => c.load (k.n 48 8 + 8 * i) 8)
    let peers := (es.filter (fun e => !zeroBytes e 0 8)).map (fun e => (BitVec.ofNat 48 (fieldLe e 0 6), BitVec.ofNat 16 (fieldLe e 6 2)))
    ({ c with cmd := { c.cmd with chip := BitVec.ofNat 20 chip, ip := BitVec.ofNat 32 (k.n 36 4), udp := BitVec.ofNat 16 (k.n 40 2),
                                  peers := peers, openBase := base, openRecords := records } }, ok)

/-- Spare cores that work and carry nothing, over all clusters. -/
def Chip.sparesLeft (c : Chip) : Nat :=
  let left (x : Cluster) : Nat := (([64, 65] : List (BitVec 7)).filter (fun p => !x.failedPos.contains p && !x.carries p)).length
  32768 - c.clusters.foldl (fun a p => a + (2 - left p.2)) 0

/-- Quads withdrawn (R534). -/
def Chip.quadsWithdrawn (c : Chip) : Nat :=
  (((c.clusters.filter (fun p => p.2.withdrawn)).map (fun p => p.1 / 4)).eraseDups).length

/-- `device.health` (R544). -/
def Chip.deviceHealth (c : Chip) : Chip × Reply :=
  (c, { status := stOk, body := leBytes 8 c.power.inWord.toNat ++ leBytes 8 c.power.nowWord.toNat ++ leBytes 8 c.sys.stateWord.toNat ++
    leBytes 8 c.sys.bootWord.toNat ++ leBytes 4 c.quadsWithdrawn ++ leBytes 4 c.sparesLeft ++ leBytes 4 c.sys.repairs.length })

/-! ### `eyespot.` (R475, R477) -/

/-- `eyespot.config`: EYE_CTL, EYE_SRC and the spill ring of the dies of a mask. -/
def Chip.eyeConfig (c : Chip) (k : Pkt) : Chip × Reply :=
  let mask := k.n 32 8
  let records := k.n 64 4
  if 256 ≤ mask || 2 ^ 52 ≤ k.n 56 8 then (c, refuse stBadParam)
  else
    let f (d : Nat) (u : Eye) : Eye :=
      if bitAt mask d then
        { u.writeCtl (BitVec.ofNat 64 (k.n 40 8)) with
          src := BitVec.ofNat 64 (k.n 48 8), spillBase := BitVec.ofNat 64 (k.n 56 8), spillRecords := BitVec.ofNat 32 records }
      else u
    ({ c with eye := { c.eye with units := c.eye.units.zipIdx.map (fun p => f p.2 p.1) } }, ok)

/-- `eyespot.read`: the oldest stamps of a die's buffer. -/
def Chip.eyeRead (c : Chip) (k : Pkt) : Chip × Reply :=
  if 7 < k.n 32 1 then (c, refuse stBadParam)
  else
    let u := c.eyeUnit (BitVec.ofNat 3 (k.n 32 1))
    (c, { status := stOk, data := (u.buf.take (k.n 36 4)).flatMap Stamp.bytes })

/-- `eyespot.trigger`: the unit of the die fires, and freezes unless it has (R477, R478). -/
def Chip.eyeTrigger (c : Chip) (v : Env) (k : Pkt) : Chip × Reply :=
  if 7 < k.n 32 1 then (c, refuse stBadParam)
  else ((c.modEye (BitVec.ofNat 3 (k.n 32 1)) (fun (u : Eye) => if u.freezing then u else u.setFreeze v.ns)).sendTrigger v v.ns
    (k.n 33 1) (k.n 34 1), ok)

/-! ### `debug.` (R136, R174) -/

/-- `debug.service`: an idle core enters or leaves the service state. -/
def Chip.serviceHold (c : Chip) (k : Pkt) : Chip × Reply :=
  let id : CoreId := BitVec.ofNat 20 (k.n 32 4)
  if 2 ^ 20 ≤ k.n 32 4 then (c, refuse stBadParam)
  else if (c.core id).running then (c, busy0)
  else (c.modCore id (fun (x : Core) => { x with service := true }), ok)

/-- A descriptor walk is under way. -/
def Core.walks (k : Core) : Bool := match k.hold with
  | .walk _ => true
  | _ => false

def Chip.serviceRelease (c : Chip) (k : Pkt) : Chip × Reply :=
  if 2 ^ 20 ≤ k.n 32 4 then (c, refuse stBadParam)
  else if (c.core (BitVec.ofNat 20 (k.n 32 4))).walks then (c, busy0)
  else (c.modCore (BitVec.ofNat 20 (k.n 32 4)) (fun (x : Core) => { x with service := false }), ok)

/-- `debug.scratch`. -/
def Chip.debugScratch (c : Chip) (k : Pkt) : Chip × Reply :=
  let off := k.n 36 2
  let len := k.n 38 2
  let x := c.core (BitVec.ofNat 20 (k.n 32 4))
  if 2 ^ 20 ≤ k.n 32 4 || !x.service || len == 0 || 4096 < len || 4096 < off + len then (c, refuse stBadParam)
  else (c, { status := stOk, data := x.scratch.read off len })

end Sys2Proof
end

