-- ==== Sys2Proof/Machine/RegMap.lean ====
section
/-! DEFINITION. The device register map (R500 to R502, Tables 20.11 to 20.14), access by access code (R9), and the accesses of
application cores (R354, R370, R373). -/
namespace Sys2Proof

/-- The registers of Table 20.11 and of a doorbell page (Table 20.1). -/
inductive Reg where
  | devId
  | devChip
  | cmdClass
  | cbase (n : Nat)
  | rbase (n : Nat)
  | htNow
  | htFrac
  | htCfg
  | htStatus
  | htPps
  | htLink (n : Nat)
  | fabStatus (n : Nat)
  | fabErr (n : Nat)
  | gstat (n : Nat)
  | mltStatus (d : Nat)
  | mltInstar (j : Nat)
  | ownCfg
  | viol
  | spillCfg
  | spillUse
  | normCfg
  | qos
  | mapErr
  | tierCfg
  | errUnit (u : Nat)
  | pwrIn
  | pwrLimit
  | pwrNow
  | pwrCool
  | pwrSector (n : Nat)
  | eyePin (n : Nat)
  | eyeMark
  | eyeCtl (d : Nat)
  | eyeSrc (d : Nat)
  | eyeStatus (d : Nat)
  | eyeFreeze (d : Nat)
  | repBoot
  | repState
  | repCluster (n : Nat)
  | tail (n : Nat)
  | head (n : Nat)
  | rtail (n : Nat)
  | rhead (n : Nat)
  | rstat (n : Nat)
  deriving DecidableEq, Repr

/-- Index of an 8-byte offset in an array of registers. -/
def regIndex (off base stride count : Nat) : Option Nat :=
  if base ≤ off && off < base + stride * count && (off - base) % stride == 0 then some ((off - base) / stride) else none

/-- First register of a list that an offset names. -/
def regFirst (off : Nat) (xs : List (Nat × Nat × Nat × (Nat → Reg))) : Option Reg :=
  xs.findSome? (fun x => (regIndex off x.1 x.2.1 x.2.2.1).map x.2.2.2)

/-- Registers of blocks 0x00 to 0x50. -/
def regLow : List (Nat × Nat × Nat × (Nat → Reg)) := [
  (0x000000, 8, 1, fun _ => .devId), (0x000008, 8, 1, fun _ => .devChip), (0x100000, 8, 1, fun _ => .cmdClass),
  (0x101000, 16, 4112, .cbase), (0x101008, 16, 4112, .rbase),
  (0x200000, 8, 1, fun _ => .htNow), (0x200008, 8, 1, fun _ => .htFrac), (0x200010, 8, 1, fun _ => .htCfg),
  (0x200018, 8, 1, fun _ => .htStatus), (0x200020, 8, 1, fun _ => .htPps), (0x200400, 8, 64, .htLink),
  (0x300000, 8, 64, .fabStatus), (0x300200, 8, 64, .fabErr), (0x400000, 8, 4096, .gstat),
  (0x500100, 8, 8, .mltStatus), (0x501000, 8, 4096, .mltInstar)]

/-- Registers of blocks 0x60 to 0xA0, and the doorbell pages. -/
def regHigh : List (Nat × Nat × Nat × (Nat → Reg)) := [
  (0x600000, 8, 1, fun _ => .ownCfg), (0x600008, 8, 1, fun _ => .viol),
  (0x700000, 8, 1, fun _ => .spillCfg), (0x700008, 8, 1, fun _ => .spillUse), (0x700010, 8, 1, fun _ => .normCfg),
  (0x700018, 8, 1, fun _ => .qos), (0x700020, 8, 1, fun _ => .mapErr), (0x700028, 8, 1, fun _ => .tierCfg), (0x700100, 8, 36, .errUnit),
  (0x800000, 8, 1, fun _ => .pwrIn), (0x800008, 8, 1, fun _ => .pwrLimit), (0x800010, 8, 1, fun _ => .pwrNow),
  (0x800018, 8, 1, fun _ => .pwrCool), (0x800100, 8, 256, .pwrSector),
  (0x900000, 8, 4, .eyePin), (0x900020, 8, 1, fun _ => .eyeMark), (0x901000, 0x100, 8, .eyeCtl), (0x901008, 0x100, 8, .eyeSrc),
  (0x901010, 0x100, 8, .eyeStatus), (0x901018, 0x100, 8, .eyeFreeze),
  (0xA00000, 8, 1, fun _ => .repBoot), (0xA00008, 8, 1, fun _ => .repState), (0xA01000, 8, 16384, .repCluster),
  (0x100000000, 4096, 4112, .tail), (0x100000008, 4096, 4112, .head), (0x100000010, 4096, 4112, .rtail),
  (0x100000018, 4096, 4112, .rhead), (0x100000020, 4096, 4112, .rstat)]

/-- The register that an 8-byte aligned offset from 0x8_0000_0000_0000 names. -/
def Reg.ofOffset (off : Nat) : Option Reg := (regFirst off regLow).orElse (fun _ => regFirst off regHigh)

/-- The PCIe and CXL.io windows of the four ports. -/
def devWindow (off : Nat) : Bool := decide (0x1000000000000 ≤ off) && decide (off < 0x1000000000000 + 4 * 0x100000000000)

/-! ### Register words -/

/-- CMD_CLASS (Table 20.14). -/
def Chip.classWord (c : Chip) : W64 :=
  BitVec.ofNat 64 (c.cmd.waiting.length * 2 ^ 42 + c.queued .c * 2 ^ 32 + c.queued .q3 * 2 ^ 24 + c.queued .q2 * 2 ^ 16 + c.queued .q1 * 2 ^ 8 +
    c.queued .q0)

/-- FAB_PORTn_STATUS (Table 16.6). -/
def Port.word (p : Port) : W64 :=
  BitVec.ofNat 64 (p.partner.toNat * 2 ^ 32 + p.retired.toNat * 2 ^ 13 + 4096 * b2n p.swapEmpty + 2048 * b2n p.armed.isSome +
    1024 * b2n p.bank1.ready + 512 * b2n p.bank0.ready + 256 * b2n p.bank + 64 * p.missed.toNat + 32 * b2n p.absent + p.link.toNat)

/-- FAB_ERRn (Table 16.7). -/
def Port.errs (p : Port) : W64 :=
  p.fec ++ p.lcrc ++ p.lost ++ p.unsched ++ p.collide ++ p.ptp ++ p.e2e ++ p.openDrop

def Port.clearErrs (p : Port) (w : W64) : Port :=
  { p with fec := w1c p.fec (w.extractLsb' 56 8), lcrc := w1c p.lcrc (w.extractLsb' 48 8), lost := w1c p.lost (w.extractLsb' 40 8),
           unsched := w1c p.unsched (w.extractLsb' 32 8), collide := w1c p.collide (w.extractLsb' 24 8),
           ptp := w1c p.ptp (w.extractLsb' 16 8), e2e := w1c p.e2e (w.extractLsb' 8 8), openDrop := w1c p.openDrop (w.extractLsb' 0 8) }

/-- XLT_OWN_CFG and XLT_VIOL (Tables 13.3, 13.11). -/
def XltState.ownWord (x : XltState) : W64 := BitVec.ofNat 64 (x.ownBase.toNat * 4096 + b2n x.ownEnable)
def XltState.violWord (x : XltState) : W64 :=
  BitVec.ofNat 64 (x.lastTenant.toNat * 2 ^ 52 + x.lastKind.toNat * 2 ^ 48 + x.violations.toNat)

/-- The memory registers (Tables 07.7, 07.8, 10.1, 12.6, 12.8 to 12.10). -/
def MemState.spillWord (m : MemState) : W64 := BitVec.ofNat 64 (m.spillSize.toNat * 2 ^ 52 + m.spillBase.toNat * 4096)
def MemState.useWord (m : MemState) : W64 := BitVec.ofNat 64 (m.spillPeak.toNat * 2 ^ 32 + m.spillUse.toNat)
def MemState.normWord (m : MemState) : W64 := BitVec.ofNat 64 (m.normBase.toNat * 2 ^ 22 + b2n m.normEnable)
def MemState.qosWord (m : MemState) : W64 :=
  BitVec.ofNat 64 (m.qosGuard.toNat * 2 ^ 24 + m.qosCap.toNat * 2 ^ 20 + m.qosW3.toNat * 2 ^ 12 + m.qosW2.toNat * 2 ^ 8 + m.qosW1.toNat * 2 ^ 4)
def MemState.tierWord (m : MemState) : W64 :=
  let present := (List.range 4).foldl (fun (a : Nat) p => a + b2n (nth 0 m.t3Cap p != 0) * 2 ^ p) 0
  let spare := (List.range 16).foldl (fun (a : Nat) s => a + b2n ((tblFind m.spares s).any (·.switched)) * 2 ^ s) 0
  BitVec.ofNat 64 (m.t3Excess.toNat * 2 ^ 48 + m.t2Cap.toNat * 2 ^ 40 + present * 2 ^ 36 + m.t2Absent.toNat * 2 ^ 20 + spare)
def MemErr.word (e : MemErr) : W64 := e.corrected ++ e.uncorrectable ++ e.poisonReads

/-- A write of MEM_SPILL_CFG: ignored while entries are in use, or where SIZE exceeds 16. -/
def MemState.writeSpill (m : MemState) (w : W64) : MemState :=
  if m.spillUse != 0 || 16 < (w.extractLsb' 52 5).toNat then m
  else { m with spillSize := w.extractLsb' 52 5, spillBase := w.extractLsb' 12 40 }

/-- A write of MEM_QOS: a GUARD or CAP of 0 is ignored. -/
def MemState.writeQos (m : MemState) (w : W64) : MemState :=
  let g : Byte := w.extractLsb' 24 8
  let p : BitVec 4 := w.extractLsb' 20 4
  { m with qosGuard := if g == 0 then m.qosGuard else g, qosCap := if p == 0 then m.qosCap else p, qosW3 := w.extractLsb' 12 4,
           qosW2 := w.extractLsb' 8 4, qosW1 := w.extractLsb' 4 4 }

/-- EYE_PINn (Table 19.5). -/
def EyePin.word (p : EyePin) : W64 := BitVec.ofNat 64 (p.delay.toNat * 2 ^ 32 + p.polarity.toNat * 4 + p.enable.toNat)

namespace Machine

/-- The value that a read of a register returns; registers that may only be written read zero. -/
def State.regValue (s : State) (m : Master) (r : Reg) : W64 :=
  let c := s.chip
  let ring (n : Nat) : Ring := c.ring (BitVec.ofNat 13 n)
  match r with
  | .devId => BitVec.ofNat 64 devId
  | .devChip => BitVec.ofNat 64 c.devChip
  | .cmdClass => c.classWord
  | .cbase n => (ring n).cbaseWord
  | .rbase n => (ring n).rbaseWord
  | .htNow => BitVec.ofNat 64 s.time.ns
  | .htFrac => s.time.readFrac m
  | .htCfg => s.htRegs.cfg.word
  | .htStatus => s.time.status s.htRegs
  | .htPps => s.htRegs.pps.word
  | .htLink n => (s.time.link (BitVec.ofNat 6 n)).word
  | .fabStatus n => (c.port (BitVec.ofNat 6 n)).word
  | .fabErr n => (c.port (BitVec.ofNat 6 n)).errs
  | .gstat n => c.gstat (BitVec.ofNat 12 n)
  | .mltStatus d => c.mltStatus d
  | .mltInstar j => BitVec.ofNat 64 (c.mltInstar j)
  | .ownCfg => c.xlt.ownWord
  | .viol => c.xlt.violWord
  | .spillCfg => c.mem.spillWord
  | .spillUse => c.mem.useWord
  | .normCfg => c.mem.normWord
  | .qos => c.mem.qosWord
  | .mapErr => c.mem.unpopulated.setWidth 64
  | .tierCfg => c.mem.tierWord
  | .errUnit u => (tblGet {} c.mem.errs u : MemErr).word
  | .pwrIn => c.power.inWord
  | .pwrLimit => c.power.limitWord
  | .pwrNow => c.power.nowWord
  | .pwrCool => c.power.coolWord
  | .pwrSector n => (c.sector (BitVec.ofNat 8 n)).word
  | .eyePin n => (nth {} c.eye.pins n : EyePin).word
  | .eyeMark => 0
  | .eyeCtl d => (c.eyeUnit (BitVec.ofNat 3 d)).ctl
  | .eyeSrc d => (c.eyeUnit (BitVec.ofNat 3 d)).src
  | .eyeStatus d => (c.eyeUnit (BitVec.ofNat 3 d)).status
  | .eyeFreeze d => (c.eyeUnit (BitVec.ofNat 3 d)).freeze
  | .repBoot => c.sys.bootWord
  | .repState => c.sys.stateWord
  | .repCluster n => (c.cluster (BitVec.ofNat 14 n)).repWord
  | .tail n => (ring n).tail.setWidth 64
  | .head n => (ring n).head.setWidth 64
  | .rtail n => (ring n).rtail.setWidth 64
  | .rhead n => (ring n).rhead.setWidth 64
  | .rstat n => (ring n).statWord

/-- A read of a register: HT_NOW latches HT_FRAC for its master (R502). -/
def State.regRead (s : State) (m : Master) (r : Reg) : State × W64 :=
  (if r == .htNow then s.onTime (fun t _ => (t.readNow m).1) else s, s.regValue m r)

/-- A write of CMD_TAIL, the doorbell (R483; source 47). -/
def Chip.doorbell (c : Chip) (v : Env) (n : RingId) (w : W64) : Chip :=
  let on := (c.ring n).enabled
  let c := c.modRing n (fun (r : Ring) => r.doorbell (w.setWidth 32))
  if on then c.stamp v 47 0 else c

/-- A write of a register of the chip (R9): read-only fields ignore it, W1C fields lose the bits it holds. -/
def Chip.regWrite (c : Chip) (v : Env) (w : W64) : Reg → Chip
  | .cbase n => c.modRing (BitVec.ofNat 13 n) (fun (r : Ring) => r.writeCbase w)
  | .rbase n => c.modRing (BitVec.ofNat 13 n) (fun (r : Ring) => r.writeRbase w)
  | .fabStatus n => c.modPort (BitVec.ofNat 6 n) (fun (p : Port) => { p with swapEmpty := p.swapEmpty && !w.getLsbD 12 })
  | .fabErr n => c.modPort (BitVec.ofNat 6 n) (fun (p : Port) => p.clearErrs w)
  | .gstat n => c.writeGstat (BitVec.ofNat 12 n) w
  | .mltStatus d => c.writeMltStatus d w
  | .ownCfg => { c with xlt := { c.xlt with ownBase := w.extractLsb' 12 40, ownEnable := w.getLsbD 0 } }
  | .viol => { c with xlt := { c.xlt with violations := w1c c.xlt.violations (w.setWidth 32) } }
  | .spillCfg => { c with mem := c.mem.writeSpill w }
  | .spillUse => { c with mem := { c.mem with spillPeak := w1c c.mem.spillPeak (w.extractLsb' 32 21) } }
  | .normCfg => { c with mem := { c.mem with normBase := w.extractLsb' 22 30, normEnable := w.getLsbD 0 } }
  | .qos => { c with mem := c.mem.writeQos w }
  | .mapErr => { c with mem := { c.mem with unpopulated := w1c c.mem.unpopulated (w.setWidth 32) } }
  | .errUnit u => { c with mem := c.mem.modErr u (fun (e : MemErr) =>
      { corrected := w1c e.corrected (w.extractLsb' 32 32), uncorrectable := w1c e.uncorrectable (w.extractLsb' 16 16),
        poisonReads := w1c e.poisonReads (w.extractLsb' 0 16) }) }
  | .pwrIn => c.writePwrIn v w
  | .pwrLimit => { c with power := c.power.writeLimit w }
  | .pwrNow => { c with power := c.power.writeNow w }
  | .pwrCool => { c with power := c.power.writeCool w }
  | .pwrSector n => c.modSector (BitVec.ofNat 8 n) (fun (x : Sector) => x.writeWord w)
  | .eyePin n => { c with eye := { c.eye with pins := modNth c.eye.pins n (fun (p : EyePin) =>
      { p with delay := w.extractLsb' 32 16, polarity := w.extractLsb' 2 2, enable := w.extractLsb' 0 2 }) } }
  | .eyeMark => c.eyeMark v w
  | .eyeCtl d => c.modEye (BitVec.ofNat 3 d) (fun (u : Eye) => u.writeCtl w)
  | .eyeSrc d => c.modEye (BitVec.ofNat 3 d) (fun (u : Eye) => { u with src := w })
  | .eyeStatus d => c.modEye (BitVec.ofNat 3 d) (fun (u : Eye) => { u with lost := w1c u.lost (w.extractLsb' 48 16) })
  | .repState => { c with sys := { c.sys with switches := w1c c.sys.switches (w.extractLsb' 32 32) } }
  | .tail n => Chip.doorbell c v (BitVec.ofNat 13 n) w
  | .rtail n => c.writeRtail v (BitVec.ofNat 13 n) (w.setWidth 32)
  | .rstat n => c.modRing (BitVec.ofNat 13 n) (fun (r : Ring) =>
      { r with dropped := w1c r.dropped (w.extractLsb' 32 32), overrun := r.overrun && !w.getLsbD 1 })
  | .devId => c
  | .devChip => c
  | .cmdClass => c
  | .htNow => c
  | .htFrac => c
  | .htCfg => c
  | .htStatus => c
  | .htPps => c
  | .htLink _ => c
  | .mltInstar _ => c
  | .tierCfg => c
  | .eyeFreeze _ => c
  | .repBoot => c
  | .repCluster _ => c
  | .head _ => c
  | .rhead _ => c

/-- A write of any register. -/
def State.regWrite (s : State) (w : W64) (r : Reg) : State :=
  match r with
  | .htCfg => { s with htRegs := s.htRegs.writeCfg w }
  | .htPps => { s with htRegs := s.htRegs.writePps w }
  | .htStatus => { s with time := { s.time with stepped := s.time.stepped && !w.getLsbD 6 } }
  | .htLink n => { s with time := s.time.modLink (BitVec.ofNat 6 n) (fun (l : HtLink) =>
      { l with asym := w.extractLsb' 16 16, uncert := w.extractLsb' 8 8 }) }
  | _ => s.onChip (fun c => Chip.regWrite c s.env w r)

/-! ### Masters (R486, R501, Table 20.12) -/

/-- The tenant that an application core is bound to. -/
def Chip.appTenant (c : Chip) (a : AppId) : Option TenantId :=
  (c.tenants.find? (fun p => p.2.apps.contains a)).map (fun p => BitVec.ofNat 12 p.1)

/-- The tenant that confines a master; none for one with the device owner's rights. -/
def Chip.confined (c : Chip) : Master → Option TenantId
  | .app a => Chip.appTenant c a
  | _ => none

/-- Registers that a core bound to a tenant reads, and those that it writes. -/
def Chip.tenantReads (c : Chip) (t : TenantId) : Reg → Bool
  | .tail n => n == 16 + t.toNat
  | .head n => n == 16 + t.toNat
  | .rtail n => n == 16 + t.toNat
  | .rhead n => n == 16 + t.toNat
  | .rstat n => n == 16 + t.toNat
  | .htNow => true
  | .htFrac => true
  | .htStatus => true
  | .mltStatus _ => true
  | .mltInstar j => match tblFind c.jobs j with
    | some x => x.tenant == t
    | none => false
  | .gstat n => match c.group (BitVec.ofNat 12 n) with
    | some g => g.tenant == t
    | none => false
  | _ => false

def tenantWrites (t : TenantId) : Reg → Bool
  | .tail n => n == 16 + t.toNat
  | .head n => n == 16 + t.toNat
  | .rtail n => n == 16 + t.toNat
  | .rhead n => n == 16 + t.toNat
  | .rstat n => n == 16 + t.toNat
  | _ => false

/-- A page of a ring: offsets of a doorbell page that name no register belong to it all the same (R486). -/
def ringPage (off : Nat) : Option Nat := if 0x100000000 ≤ off && off < 0x100000000 + 4096 * 4112 then some ((off - 0x100000000) / 4096) else none

/-- A violation by an application core (R355, kind 6). -/
def State.appViolation (s : State) (t : TenantId) : State := s.onChip (fun c => c.violation s.env (some t) 6 0)

/-- An access of the device regions that no row names (R500). -/
def State.unnamed (s : State) : State := s.onChip (fun c => { c with mem := { c.mem with unpopulated := satInc c.mem.unpopulated 1 } })

/-- Whether a master may reach an offset: an owner all of it, a bound core what Table 20.12 lists. -/
def State.reaches (s : State) (m : Master) (off : Nat) (write : Bool) : Bool :=
  match Chip.confined s.chip m with
  | none => true
  | some t => ringPage off == some (16 + t.toNat) || (match Reg.ofOffset (off / 8 * 8) with
    | some r => if write then tenantWrites t r else Chip.tenantReads s.chip t r
    | none => false)

/-- A read by a master at an offset of the device regions (R500, R501): what a window's endpoint answers is free (log 6). -/
def State.deviceRead (s : State) (m : Master) (off : Nat) (whole : Bool) : State × W64 :=
  if !s.reaches m off false then
    (match Chip.confined s.chip m with
      | some t => s.appViolation t
      | none => s, 0)
  else if devWindow off then ({ s with fresh := s.fresh + 1 }, Config.freeValue s.fresh)
  else match Reg.ofOffset (off / 8 * 8) with
    | none => (s.unnamed, 0)
    | some r => if whole && off % 8 == 0 then s.regRead m r else (s, 0)

/-- A write by a master at an offset of the device regions. -/
def State.deviceWrite (s : State) (m : Master) (off : Nat) (whole : Bool) (w : W64) : State :=
  if !s.reaches m off true then
    match Chip.confined s.chip m with
    | some t => s.appViolation t
    | none => s
  else if devWindow off then s
  else match Reg.ofOffset (off / 8 * 8) with
    | none => s.unnamed
    | some r => if whole && off % 8 == 0 then s.regWrite w r else s

/-- The value that an access returned to its master. -/
def State.give (x : State × W64) (m : Master) : State :=
  x.1.onChip (fun c => { c with returned := tblSet c.returned m.num x.2 })

/-! ### Application cores (R324, R354, R370, R373) -/

/-- The core takes an exception, which ends its reservation. -/
def State.appException (s : State) (a : AppId) : State := s.onChip (fun c => { c with reservations := tblErase c.reservations a.toNat })

/-- The address passes the leaf test of R338 for the tenant of the core, byte by first and last byte. -/
def Chip.appMay (c : Chip) (a : AppId) (addr n : Nat) : Bool :=
  match Chip.appTenant c a with
  | none => true
  | some t => c.ownsLeaf t addr 0 && c.ownsLeaf t (addr + n - 1) 0

/-- An access of memory: refused silently, ended by poison, or performed at the home. -/
def State.appMemory (s : State) (a : AppId) (addr n : Nat) (reads : Bool) (f : State → State) : State :=
  if !Chip.appMay s.chip a addr n then
    match Chip.appTenant s.chip a with
    | some t => State.give (s.appViolation t, 0) (.app a)
    | none => s
  else if reads && s.chip.mem.poisonIn addr n then (s.onChip (fun c => c.poisonRead s.env addr 0)).appException a
  else f s

/-- Bytes of memory that a core reads; an unpopulated access is counted (R315). -/
def State.appLoad (s : State) (a : AppId) (addr n : Nat) : State :=
  State.give (s.onChip (fun c => { c with mem := c.mem.touch addr n }), BitVec.ofNat 64 (s.chip.loadLe addr n)) (.app a)

/-- Bytes of memory that a core writes. -/
def State.appStore (s : State) (a : AppId) (addr n v : Nat) : State := s.onChip (fun c => c.storeBy (some a.toNat) addr (leBytes n v))

/-- The atomic of a width on an old value, sign-extended from 32 bits (Table 14.3). -/
def appAmo (op : Nat) (wide : Bool) (old v : Nat) : Nat :=
  if wide then (amoResult op (BitVec.ofNat 64 old) (BitVec.ofNat 64 v) 0).toNat
  else (amoResult op (BitVec.ofNat 32 old) (BitVec.ofNat 32 v) 0).toNat

/-- Bytes of an access. -/
def wordBytes (wide : Bool) : Nat := if wide then 8 else 4

/-- What a 32-bit value returns in a register: sign-extended. -/
def appValue (wide : Bool) (v : Nat) : W64 := if wide then BitVec.ofNat 64 v else (BitVec.ofNat 32 v).signExtend 64

/-- APPLICATION_CORE_ACCESS to an atomic or a reservation outside memory: no access of a register but a whole read or write (R501). -/
def State.deviceOther (s : State) (a : AppId) (addr : Nat) : State :=
  State.give (s.deviceRead (.app a) (addr - deviceBase) false) (.app a)

/-- APPLICATION_CORE_ACCESS (R354, R370, R373, R501). -/
def State.appAccess (s : State) (a : AppId) (x : AppAccess) : State :=
  match x with
  | .exception => s.appException a
  | .load addr log2 =>
    let p := addr.toNat
    let n := 2 ^ log2.toNat
    if deviceBase ≤ p then State.give (s.deviceRead (.app a) (p - deviceBase) (n == 8)) (.app a)
    else s.appMemory a p n true (fun s => s.appLoad a p n)
  | .store addr log2 v =>
    let p := addr.toNat
    let n := 2 ^ log2.toNat
    if deviceBase ≤ p then s.deviceWrite (.app a) (p - deviceBase) (n == 8) v
    else s.appMemory a p n false (fun s => s.appStore a p n v.toNat)
  | .amo op addr wide v =>
    let p := addr.toNat
    let n := wordBytes wide
    if 8 < op.toNat then s.appException a
    else if deviceBase ≤ p then s.deviceOther a p
    else s.appMemory a p n true (fun s =>
      let old := s.chip.loadLe p n
      (State.give (s, appValue wide old) (.app a)).appStore a p n (appAmo op.toNat wide old v.toNat))
  | .lr addr wide =>
    let p := addr.toNat
    let n := wordBytes wide
    if deviceBase ≤ p then s.deviceOther a p
    else s.appMemory a p n true (fun s =>
      (State.give (s.onChip (fun c => { c with mem := c.mem.touch p n }), appValue wide (s.chip.loadLe p n)) (.app a)).onChip
        (fun c => { c with reservations := tblSet c.reservations a.toNat (p / 64) }))
  | .sc addr wide v =>
    let p := addr.toNat
    let n := wordBytes wide
    if deviceBase ≤ p then s.deviceOther a p
    else s.appMemory a p n false (fun s =>
      let held := tblFind s.chip.reservations a.toNat == some (p / 64)
      let s1 : State := if held then s.appStore a p n v.toNat else s
      (State.give (s1, if held then 0 else 1) (.app a)).onChip (fun c => { c with reservations := tblErase c.reservations a.toNat }))

/-! ### `debug.reg` (R501) -/

/-- A firmware command whose effect reaches hall time or counts free values. -/
def State.command (s : State) (p : PktRef) (op : Nat) (sub : Pkt → Bool) (body : State → Pkt → State × Reply) : State :=
  match s.chip.takePkt p op sub with
  | none => s
  | some (k, c1) =>
    let r := body { s with chip := c1 } k
    r.1.onChip (fun c => c.reply r.1.env k r.2)

/-- `debug.reg`, with owner rights. -/
def State.debugReg (s : State) (k : Pkt) : State × Reply :=
  let off := k.n 32 8
  if 1 < k.n 40 1 || 2 ^ 51 ≤ off then (s, refuse stBadParam)
  else if k.n 40 1 == 1 then (s.deviceWrite .debug off true (BitVec.ofNat 64 (k.n 48 8)), ok)
  else
    let r := s.deviceRead .debug off true
    (r.1, { status := stOk, body := leBytes 8 r.2.toNat })

end Machine

end Sys2Proof
end

