-- ==== Sys2Proof/Machine/ExecCmd.lean ====
section
/-! DEFINITION. Meanings of the command rings and of the firmware commands (chapter 20). -/
namespace Sys2Proof.Machine

/-- PACKET_READ (R484). -/
def execPacketRead (ring : RingId) (s : State) : Out :=
  .next (s.onChip (fun h => h.packetRead s.env ring))

/-- MANAGEMENT_DATAGRAM (R485). -/
def execManagementDatagram (mac : BitVec 48) (udp : BitVec 16) (bytes : List Byte) (s : State) : Out :=
  .next (s.onChip (fun h => h.datagramIn mac udp bytes))

/-- QUEUE_AGING (R489). -/
def execQueueAging (p : PktRef) (s : State) : Out :=
  .next (s.onChip (fun h => h.queueAging s.env p))

/-- DEVICE_NOP (R494). -/
def execDeviceNop (p : PktRef) (s : State) : Out :=
  .next (s.onChip (fun h => h.commandNow s.env p 0x0000 anySub (fun g _ => (g, ok))))

/-- DEVICE_QUERY (R494). -/
def execDeviceQuery (p : PktRef) (s : State) : Out :=
  .next (s.onChip (fun h => h.commandNow s.env p 0x0001 anySub (fun g k => g.deviceQuery s.env k)))

/-- DEVICE_ATTEST (R358). -/
def execDeviceAttest (p : PktRef) (s : State) : Out :=
  .next ((s.took 36 (fun h => h.commandNow s.env p 0x0002 anySub (fun g k => g.attest s.env k))))

/-- DEVICE_CANCEL (R492). -/
def execDeviceCancel (p : PktRef) (s : State) : Out :=
  .next (s.onChip (fun h => h.commandNow s.env p 0x0003 anySub (fun g k => g.deviceCancel s.env k)))

/-- DEVICE_CONFIG (R485). -/
def execDeviceConfig (p : PktRef) (s : State) : Out :=
  .next (s.onChip (fun h => h.commandNow s.env p 0x0004 anySub (fun g k => g.deviceConfig k)))

/-- DEVICE_RESET_COLD (R526). -/
def execDeviceResetCold (p : PktRef) (s : State) : Out :=
  .next (s.deviceReset p 0 State.coldReset)

/-- DEVICE_RESET_WARM (R526). -/
def execDeviceResetWarm (p : PktRef) (s : State) : Out :=
  .next (s.deviceReset p 1 (fun s => s.onChip Chip.warmReset))

/-- DEVICE_RESET_COMPUTE (R526). -/
def execDeviceResetCompute (p : PktRef) (s : State) : Out :=
  .next (s.deviceReset p 2 (fun s => s.onChip (fun h => h.computeReset s.env)))

/-- DEVICE_HEALTH (R544). -/
def execDeviceHealth (p : PktRef) (s : State) : Out :=
  .next (s.onChip (fun h => h.commandNow s.env p 0x0006 anySub (fun g _ => g.deviceHealth)))

/-- TENANT_BIND (R349). -/
def execTenantBind (p : PktRef) (s : State) : Out :=
  .next (s.onChip (fun h => h.commandNow s.env p 0x0100 anySub (fun g k => g.bind k)))

/-- TENANT_UNBIND (R351). -/
def execTenantUnbind (p : PktRef) (s : State) : Out :=
  .next (s.onChip (fun h => h.commandNow s.env p 0x0101 anySub (fun g k => g.unbind k)))

/-- TENANT_GUARD (R272). -/
def execTenantGuard (p : PktRef) (s : State) : Out :=
  .next (s.onChip (fun h => h.commandNow s.env p 0x0102 anySub (fun g k => g.guard k)))

/-- TENANT_QUERY (R355). -/
def execTenantQuery (p : PktRef) (s : State) : Out :=
  .next (s.onChip (fun h => h.commandNow s.env p 0x0103 anySub (fun g k => g.tenantQuery k)))

/-- PROGRAM_LOAD (R168). -/
def execProgramLoad (p : PktRef) (s : State) : Out :=
  .next (s.onChip (fun h => h.commandNow s.env p 0x0200 anySub (fun g k => g.programLoad k)))

/-- PROGRAM_LAUNCH (R170). -/
def execProgramLaunch (p : PktRef) (s : State) : Out :=
  .next (s.onChip (fun h => h.commandNow s.env p 0x0201 anySub (fun g k => g.launch k)))

/-- PROGRAM_MODE (R454). -/
def execProgramMode (p : PktRef) (s : State) : Out :=
  .next (s.onChip (fun h => h.command s.env p 0x0202 anySub (fun g k => g.programMode s.env k)))

/-- PROGRAM_PREEMPT (R110). -/
def execProgramPreempt (p : PktRef) (s : State) : Out :=
  .next (s.onChip (fun h => h.command s.env p 0x0203 anySub (fun g k => g.preempt k)))

/-- PROGRAM_RESUME (R112). -/
def execProgramResume (p : PktRef) (s : State) : Out :=
  .next (s.onChip (fun h => h.commandNow s.env p 0x0204 anySub (fun g k => g.resume k)))

/-- PROGRAM_STOP (R232). -/
def execProgramStop (p : PktRef) (s : State) : Out :=
  .next (s.onChip (fun h => h.commandNow s.env p 0x0205 anySub (fun g k => g.stopJob s.env k)))

/-- MEMORY_PLACE (R329). -/
def execMemoryPlace (p : PktRef) (s : State) : Out :=
  .next (s.onChip (fun h => h.commandNow s.env p 0x0300 anySub (fun g k => g.place k)))

/-- MEMORY_RESUME (R344). -/
def execMemoryResume (p : PktRef) (s : State) : Out :=
  .next (s.onChip (fun h => h.commandNow s.env p 0x0301 anySub (fun g k => g.memResume k)))

/-- MEMORY_END (R344). -/
def execMemoryEnd (p : PktRef) (s : State) : Out :=
  .next (s.onChip (fun h => h.commandNow s.env p 0x0302 anySub (fun g k => g.memEnd s.env k)))

/-- MEMORY_INVAL (R347). -/
def execMemoryInval (p : PktRef) (s : State) : Out :=
  .next (s.onChip (fun h => h.command s.env p 0x0303 anySub (fun g k => g.memInval k)))

/-- MEMORY_STREAM_RESUME (R197). -/
def execMemoryStreamResume (p : PktRef) (s : State) : Out :=
  .next (s.onChip (fun h => h.commandNow s.env p 0x0304 (subAt 34 0) (fun g k => g.streamResume k)))

/-- MEMORY_STREAM_END (R197). -/
def execMemoryStreamEnd (p : PktRef) (s : State) : Out :=
  .next (s.onChip (fun h => h.commandNow s.env p 0x0304 (subAt 34 1) (fun g k => g.streamEndCmd k)))

/-- MEMORY_TENSOR (R214). -/
def execMemoryTensor (p : PktRef) (s : State) : Out :=
  .next (s.onChip (fun h => h.commandNow s.env p 0x0305 anySub (fun g k => g.tensor k)))

/-- MEMORY_RELEASE (R331). -/
def execMemoryRelease (p : PktRef) (s : State) : Out :=
  .next (s.onChip (fun h => h.commandNow s.env p 0x0306 anySub (fun g k => g.release k)))

/-- HALL_TIME (R391). -/
def execHallTime (p : PktRef) (s : State) : Out :=
  .next (s.hallTime p)

/-- HALL_BARRIER_CLAIM (R393). -/
def execHallBarrierClaim (p : PktRef) (s : State) : Out :=
  .next (s.onChip (fun h => h.commandNow s.env p 0x0401 (subAt 34 0) (fun g k => g.barrierClaim k)))

/-- HALL_BARRIER_ARM (R394). -/
def execHallBarrierArm (p : PktRef) (s : State) : Out :=
  .next (s.onChip (fun h => h.commandNow s.env p 0x0401 (subAt 34 1) (fun g k => g.barrierArm s.env k)))

/-- HALL_BARRIER_DISARM (R393). -/
def execHallBarrierDisarm (p : PktRef) (s : State) : Out :=
  .next (s.onChip (fun h => h.commandNow s.env p 0x0401 (subAt 34 2) (fun g k => g.barrierDisarm k)))

/-- HALL_BARRIER_RELEASE (R393). -/
def execHallBarrierRelease (p : PktRef) (s : State) : Out :=
  .next (s.onChip (fun h => h.commandNow s.env p 0x0401 (subAt 34 3) (fun g k => g.barrierDrop k)))

/-- HALL_BARRIER_QUERY (R393). -/
def execHallBarrierQuery (p : PktRef) (s : State) : Out :=
  .next (s.onChip (fun h => h.commandNow s.env p 0x0401 (subAt 34 4) (fun g k => g.barrierQuery k)))

/-- HALL_SCHED (R407). -/
def execHallSched (p : PktRef) (s : State) : Out :=
  .next (s.onChip (fun h => h.command s.env p 0x0402 anySub (fun g k => g.sched s.env k)))

/-- HALL_CHANNEL_SEAL (R423). -/
def execHallChannelSeal (p : PktRef) (s : State) : Out :=
  .next (s.onChip (fun h => h.commandNow s.env p 0x0403 (subAt 34 0) (fun g k => g.channelSeal k)))

/-- HALL_CHANNEL_UNSEAL (R423). -/
def execHallChannelUnseal (p : PktRef) (s : State) : Out :=
  .next (s.onChip (fun h => h.commandNow s.env p 0x0403 (subAt 34 1) (fun g k => g.channelUnseal k)))

/-- HALL_ROUTE (R420). -/
def execHallRoute (p : PktRef) (s : State) : Out :=
  .next (s.onChip (fun h => h.commandNow s.env p 0x0404 anySub (fun g k => g.routeLoad k)))

/-- HALL_SEND (R503). -/
def execHallSend (p : PktRef) (s : State) : Out :=
  .next (s.onChip (fun h => h.command s.env p 0x0405 anySub (fun g k => g.hallSend s.env k)))

/-- HALL_CANCEL (R422). -/
def execHallCancel (p : PktRef) (s : State) : Out :=
  .next (s.onChip (fun h => h.commandNow s.env p 0x0406 anySub (fun g k => g.hallCancel s.env k)))

/-- COLLECTIVE_DEFINE (R426). -/
def execCollectiveDefine (p : PktRef) (s : State) : Out :=
  .next (s.onChip (fun h => h.commandNow s.env p 0x0500 anySub (fun g k => g.defineGroup k)))

/-- COLLECTIVE_FREE (R427). -/
def execCollectiveFree (p : PktRef) (s : State) : Out :=
  .next (s.onChip (fun h => h.commandNow s.env p 0x0501 anySub (fun g k => g.freeGroup k)))

/-- COLLECTIVE_OP (R431). -/
def execCollectiveOp (p : PktRef) (s : State) : Out :=
  .next (s.onChip (fun h => h.commandNow s.env p 0x0502 anySub (fun g k => g.registerOp k)))

/-- COLLECTIVE_QUERY (R448). -/
def execCollectiveQuery (p : PktRef) (s : State) : Out :=
  .next (s.onChip (fun h => h.commandNow s.env p 0x0503 anySub (fun g k => g.collQuery k)))

/-- INSTAR_PLAN (R235). -/
def execInstarPlan (p : PktRef) (s : State) : Out :=
  .next (s.onChip (fun h => h.commandNow s.env p 0x0600 anySub (fun g k => g.instarPlan s.env k)))

/-- INSTAR_MOULT (R261). -/
def execInstarMoult (p : PktRef) (s : State) : Out :=
  .next (s.onChip (fun h => h.command s.env p 0x0601 anySub (fun g k => g.instarMoult s.env k)))

/-- INSTAR_QUERY (R264). -/
def execInstarQuery (p : PktRef) (s : State) : Out :=
  .next (s.onChip (fun h => h.commandNow s.env p 0x0602 anySub (fun g k => g.instarQuery k)))

/-- CHRYSALIS_TAKE (R468). -/
def execChrysalisTake (p : PktRef) (s : State) : Out :=
  .next (s.onChip (fun h => h.command s.env p 0x0700 anySub (fun g k => g.chrysalisTake k)))

/-- CHRYSALIS_SHIP (R470). -/
def execChrysalisShip (p : PktRef) (s : State) : Out :=
  .next (s.onChip (fun h => h.command s.env p 0x0701 anySub (fun g k => g.chrysalisShip k)))

/-- CHRYSALIS_VERIFY (R471). -/
def execChrysalisVerify (p : PktRef) (s : State) : Out :=
  .next ((s.took 1 (fun h => h.commandNow s.env p 0x0702 anySub (fun g k => g.chrysalisVerify s.env k))))

/-- CHRYSALIS_LOAD (R471). -/
def execChrysalisLoad (p : PktRef) (s : State) : Out :=
  .next ((s.took 1 (fun h => h.commandNow s.env p 0x0703 anySub (fun g k => g.chrysalisLoad s.env k))))

/-- DIGEST_RING (R465). -/
def execDigestRing (p : PktRef) (s : State) : Out :=
  .next (s.onChip (fun h => h.commandNow s.env p 0x0800 anySub (fun g k => g.digestRing k)))

/-- DIGEST_REGION (R460). -/
def execDigestRegion (p : PktRef) (s : State) : Out :=
  .next (s.onChip (fun h => h.commandNow s.env p 0x0801 anySub (fun g k => g.digestRegion k)))

/-- POWER_QUERY (R522). -/
def execPowerQuery (p : PktRef) (s : State) : Out :=
  .next (s.onChip (fun h => h.commandNow s.env p 0x0900 anySub (fun g _ => g.powerQuery)))

/-- POWER_LIMIT (R522). -/
def execPowerLimit (p : PktRef) (s : State) : Out :=
  .next (s.onChip (fun h => h.commandNow s.env p 0x0901 anySub (fun g k => g.powerLimit k)))

/-- REPAIR_QUERY (R538). -/
def execRepairQuery (p : PktRef) (s : State) : Out :=
  .next (s.onChip (fun h => h.commandNow s.env p 0x0A00 anySub (fun g k => g.repairQuery k)))

/-- REPAIR_APPLY (R538). -/
def execRepairApply (p : PktRef) (s : State) : Out :=
  .next (s.onChip (fun h => h.commandNow s.env p 0x0A01 anySub (fun g k => g.repairApply s.env k)))

/-- REPAIR_FUSE_REVOKE (R538). -/
def execRepairFuseRevoke (p : PktRef) (s : State) : Out :=
  .next (s.onChip (fun h => h.commandNow s.env p 0x0A02 (subAt 32 0) (fun g k => g.fuseRevoke k)))

/-- REPAIR_FUSE_ROLLBACK (R538). -/
def execRepairFuseRollback (p : PktRef) (s : State) : Out :=
  .next (s.onChip (fun h => h.commandNow s.env p 0x0A02 (subAt 32 1) (fun g k => g.fuseRollback k)))

/-- EYESPOT_CONFIG (R475). -/
def execEyespotConfig (p : PktRef) (s : State) : Out :=
  .next (s.onChip (fun h => h.commandNow s.env p 0x0B00 anySub (fun g k => g.eyeConfig k)))

/-- EYESPOT_READ (R475). -/
def execEyespotRead (p : PktRef) (s : State) : Out :=
  .next (s.onChip (fun h => h.commandNow s.env p 0x0B01 anySub (fun g k => g.eyeRead k)))

/-- EYESPOT_TRIGGER (R477). -/
def execEyespotTrigger (p : PktRef) (s : State) : Out :=
  .next (s.onChip (fun h => h.commandNow s.env p 0x0B02 anySub (fun g k => g.eyeTrigger s.env k)))

/-- DEBUG_SERVICE_HOLD (R136). -/
def execDebugServiceHold (p : PktRef) (s : State) : Out :=
  .next (s.onChip (fun h => h.commandNow s.env p 0x0F01 (subAt 36 0) (fun g k => g.serviceHold k)))

/-- DEBUG_SERVICE_RELEASE (R136). -/
def execDebugServiceRelease (p : PktRef) (s : State) : Out :=
  .next (s.onChip (fun h => h.commandNow s.env p 0x0F01 (subAt 36 1) (fun g k => g.serviceRelease k)))

/-- DEBUG_SCRATCH (R174). -/
def execDebugScratch (p : PktRef) (s : State) : Out :=
  .next (s.onChip (fun h => h.commandNow s.env p 0x0F02 anySub (fun g k => g.debugScratch k)))

end Sys2Proof.Machine
end

