-- ==== Sys2Proof/Machine/ExecColl.lean ====
section
/-! DEFINITION. Meanings of the events of collective steps and eyespot units (chapters 17 and 19). -/
namespace Sys2Proof.Machine

/-- HOLD_LIMIT (R438). -/
def execHoldLimit (g : GroupId) (s : State) : Out :=
  .next (s.onChip (fun h => h.holdLimit s.env g))

/-- LATE_CONTRIBUTION_READY (R439). -/
def execLateContributionReady (g : GroupId) (seg : BitVec 12) (s : State) : Out :=
  .next (s.onChip (fun h => h.lateReady s.env g seg.toNat))

/-- STEP_DEADLINE (R441). -/
def execStepDeadline (g : GroupId) (s : State) : Out :=
  .next (s.onChip (fun h => h.stepDeadline s.env g))

/-- STEP_END (R441). -/
def execStepEnd (g : GroupId) (s : State) : Out :=
  .next (s.onChip (fun h => h.stepEnd s.env g))

/-- EXACT_LIMIT (R442). -/
def execExactLimit (g : GroupId) (s : State) : Out :=
  .next (s.onChip (fun h => h.exactLimit s.env g))

/-- COLLECTIVE_STEP_BOUNDARY (R446). -/
def execCollectiveStepBoundary (g : GroupId) (s : State) : Out :=
  .next (s.onChip (fun h => h.stepBoundary s.env g))

/-- EYE_STAMP (R474). -/
def execEyeStamp (d : DieId) (s : State) : Out :=
  .next (s.onChip (fun h => h.eyeStamp s.env d))

/-- EYE_FREEZE (R478). -/
def execEyeFreeze (d : DieId) (s : State) : Out :=
  .next (s.onChip (fun h => h.eyeFreeze s.env d))

/-- EVT_EDGE (R476). -/
def execEvtEdge (pin : BitVec 2) (rising : Bool) (s : State) : Out :=
  .next (s.onChip (fun h => h.evtEdge s.env pin.toNat rising))

end Sys2Proof.Machine
end

