-- ==== Sys2Proof/Machine/ExecCore.lean ====
section
/-! DEFINITION. Meanings of the instructions of a core and of what completes them, in the order of the opcode table. -/
namespace Sys2Proof.Machine

/-- NOP (R145). -/
def execNop (c : CoreId) (w : Fields) (s : State) : Out :=
  .next (s.onCore c (fun k => k.seq (when (w.bad {}) cIllegal) (fun k => k)))

/-- END (R149). -/
def execEndItem (c : CoreId) (w : Fields) (s : State) : Out :=
  .next (s.onChip (fun h => (h.endItem s.env c w).preemptReplies s.env))

/-- JAL (R148). -/
def execJal (c : CoreId) (w : Fields) (s : State) : Out :=
  .next (s.onCore c (fun k => k.jal w))

/-- JR (R148). -/
def execJr (c : CoreId) (w : Fields) (s : State) : Out :=
  .next (s.onCore c (fun k => k.jr w))

/-- BEQ (R148). -/
def execBeq (c : CoreId) (w : Fields) (s : State) : Out :=
  .next (s.onCore c (fun k => k.branch w (fun k => k.reg w.a == k.reg w.b)))

/-- BNE (R148). -/
def execBne (c : CoreId) (w : Fields) (s : State) : Out :=
  .next (s.onCore c (fun k => k.branch w (fun k => k.reg w.a != k.reg w.b)))

/-- BLT (R148). -/
def execBlt (c : CoreId) (w : Fields) (s : State) : Out :=
  .next (s.onCore c (fun k => k.branch w (fun k => (k.reg w.a).slt (k.reg w.b))))

/-- BGE (R148). -/
def execBge (c : CoreId) (w : Fields) (s : State) : Out :=
  .next (s.onCore c (fun k => k.branch w (fun k => !(k.reg w.a).slt (k.reg w.b))))

/-- BLTU (R148). -/
def execBltu (c : CoreId) (w : Fields) (s : State) : Out :=
  .next (s.onCore c (fun k => k.branch w (fun k => (k.reg w.a).ult (k.reg w.b))))

/-- BGEU (R148). -/
def execBgeu (c : CoreId) (w : Fields) (s : State) : Out :=
  .next (s.onCore c (fun k => k.branch w (fun k => !(k.reg w.a).ult (k.reg w.b))))

/-- LOOP (R148). -/
def execLoop (c : CoreId) (w : Fields) (s : State) : Out :=
  .next (s.onCore c (fun k => k.loop w))

/-- BSEL (R172). -/
def execBsel (c : CoreId) (w : Fields) (s : State) : Out :=
  .next (s.onCore c (fun k => k.bsel (s.chip.coreDims c) w))

/-- TRAP (R163). -/
def execTrap (c : CoreId) (w : Fields) (s : State) : Out :=
  .next (s.onCore c (fun k => k.trap w))

/-- ADD (R145). -/
def execAdd (c : CoreId) (w : Fields) (s : State) : Out :=
  .next (s.onCore c (fun k => k.alu w (fun x y => x + y)))

/-- SUB (R145). -/
def execSub (c : CoreId) (w : Fields) (s : State) : Out :=
  .next (s.onCore c (fun k => k.alu w (fun x y => x - y)))

/-- AND (R145). -/
def execAnd (c : CoreId) (w : Fields) (s : State) : Out :=
  .next (s.onCore c (fun k => k.alu w (fun x y => x &&& y)))

/-- OR (R145). -/
def execOr (c : CoreId) (w : Fields) (s : State) : Out :=
  .next (s.onCore c (fun k => k.alu w (fun x y => x ||| y)))

/-- XOR (R145). -/
def execXor (c : CoreId) (w : Fields) (s : State) : Out :=
  .next (s.onCore c (fun k => k.alu w (fun x y => x ^^^ y)))

/-- SHL (R145). -/
def execShl (c : CoreId) (w : Fields) (s : State) : Out :=
  .next (s.onCore c (fun k => k.alu w (fun x y => x <<< (y.toNat % 32))))

/-- SHR (R145). -/
def execShr (c : CoreId) (w : Fields) (s : State) : Out :=
  .next (s.onCore c (fun k => k.alu w (fun x y => x >>> (y.toNat % 32))))

/-- SRA (R145). -/
def execSra (c : CoreId) (w : Fields) (s : State) : Out :=
  .next (s.onCore c (fun k => k.alu w (fun x y => x.sshiftRight (y.toNat % 32))))

/-- MUL (R145). -/
def execMul (c : CoreId) (w : Fields) (s : State) : Out :=
  .next (s.onCore c (fun k => k.alu w (fun x y => x * y)))

/-- MIN (R145). -/
def execMin (c : CoreId) (w : Fields) (s : State) : Out :=
  .next (s.onCore c (fun k => k.alu w (fun x y => if y.slt x then y else x)))

/-- MAX (R145). -/
def execMax (c : CoreId) (w : Fields) (s : State) : Out :=
  .next (s.onCore c (fun k => k.alu w (fun x y => if x.slt y then y else x)))

/-- ADDI (R145). -/
def execAddi (c : CoreId) (w : Fields) (s : State) : Out :=
  .next (s.onCore c (fun k => k.seq (when (w.bad { d := true, a := true, imm := 0xFFFFFF }) cIllegal) (fun k =>
    k.setReg w.d (k.reg w.a + w.sext))))

/-- LI (R145). -/
def execLi (c : CoreId) (w : Fields) (s : State) : Out :=
  .next (s.onCore c (fun k => k.seq (when (w.bad { d := true, imm := 0xFFFFFF }) cIllegal) (fun k => k.setReg w.d w.sext)))

/-- LIH (R145). -/
def execLih (c : CoreId) (w : Fields) (s : State) : Out :=
  .next (s.onCore c (fun k => k.seq (when (w.bad { d := true, imm := 0xFFFF }) cIllegal) (fun k =>
    k.setReg w.d ((w.imm.setWidth 16) ++ (k.reg w.d).setWidth 16))))

/-- LD_S (R145). -/
def execLdS (c : CoreId) (w : Fields) (s : State) : Out :=
  .next (s.onCore c (fun k => k.ldS w))

/-- ST_S (R145). -/
def execStS (c : CoreId) (w : Fields) (s : State) : Out :=
  .next (s.onCore c (fun k => k.stS w))

/-- MMA (R90). -/
def execMma (c : CoreId) (w : Fields) (s : State) : Out :=
  .next (s.onCore c (fun k => k.mma 0 w))

/-- MMA_T4 (R95). -/
def execMmaT4 (c : CoreId) (w : Fields) (s : State) : Out :=
  .next (s.onCore c (fun k => k.mma 1 w))

/-- MMA_T4T (R98). -/
def execMmaT4t (c : CoreId) (w : Fields) (s : State) : Out :=
  .next (s.onCore c (fun k => k.mma 2 w))

/-- MMA_T4S (R99). -/
def execMmaT4s (c : CoreId) (w : Fields) (s : State) : Out :=
  .next (s.onCore c (fun k => k.mma 3 w))

/-- MCLOSE (R154). -/
def execMclose (c : CoreId) (w : Fields) (s : State) : Out :=
  .next (s.onCore c (fun k => k.mclose w))

/-- MWAIT (R146). -/
def execMwait (c : CoreId) (w : Fields) (s : State) : Out :=
  .next (s.onCore c (fun k => k.mwait w))

/-- VADD (R117). -/
def execVadd (c : CoreId) (w : Fields) (s : State) : Out :=
  .next (s.onCore c (fun k => k.vecBin w FVal.add))

/-- VSUB (R117). -/
def execVsub (c : CoreId) (w : Fields) (s : State) : Out :=
  .next (s.onCore c (fun k => k.vecBin w (fun x y => x.add y.neg)))

/-- VMUL (R117). -/
def execVmul (c : CoreId) (w : Fields) (s : State) : Out :=
  .next (s.onCore c (fun k => k.vecBin w FVal.mul))

/-- VFMA (R117). -/
def execVfma (c : CoreId) (w : Fields) (s : State) : Out :=
  .next (s.onCore c (fun k => k.vecFma w))

/-- VMIN (R117). -/
def execVmin (c : CoreId) (w : Fields) (s : State) : Out :=
  .next (s.onCore c (fun k => k.vecBin w FVal.min))

/-- VMAX (R117). -/
def execVmax (c : CoreId) (w : Fields) (s : State) : Out :=
  .next (s.onCore c (fun k => k.vecBin w FVal.max))

/-- VABS (R117). -/
def execVabs (c : CoreId) (w : Fields) (s : State) : Out :=
  .next (s.onCore c (fun k => k.vecUn w FVal.abs))

/-- VNEG (R117). -/
def execVneg (c : CoreId) (w : Fields) (s : State) : Out :=
  .next (s.onCore c (fun k => k.vecUn w FVal.neg))

/-- VCMP (R125). -/
def execVcmp (c : CoreId) (w : Fields) (s : State) : Out :=
  .next (s.onCore c (fun k => k.vecCmp w))

/-- VSEL (R122). -/
def execVsel (c : CoreId) (w : Fields) (s : State) : Out :=
  .next (s.onCore c (fun k => k.vecSel w))

/-- VRSUM (R119). -/
def execVrsum (c : CoreId) (w : Fields) (s : State) : Out :=
  .next (s.onCore c (fun k => k.vecReduce w false (fun _ vs => exactSum (vs.map (fun p => p.2))) (fun _ => 0)))

/-- VRMAX (R119). -/
def execVrmax (c : CoreId) (w : Fields) (s : State) : Out :=
  .next (s.onCore c (fun k => k.vecReduce w false (fun _ vs => largest (fmt2 w) (vs.map (fun p => p.2))) (fun _ => 0)))

/-- VRMAXI (R119). -/
def execVrmaxi (c : CoreId) (w : Fields) (s : State) : Out :=
  .next (s.onCore c (fun k => k.vecReduce w true (fun _ _ => .zero) largestIndex))

/-- VCVT (R44). -/
def execVcvt (c : CoreId) (w : Fields) (s : State) : Out :=
  .next (s.onCore c (fun k => k.vecCvt w))

/-- VLDQ (R158). -/
def execVldq (c : CoreId) (w : Fields) (s : State) : Out :=
  .next (s.onCore c (fun k => k.vecLdq w))

/-- VEXP2 (R126). -/
def execVexp2 (c : CoreId) (w : Fields) (s : State) : Out :=
  .next (s.onCore c (fun k => k.vecFunc w (funcF32 .exp2)))

/-- VEXP (R126). -/
def execVexp (c : CoreId) (w : Fields) (s : State) : Out :=
  .next (s.onCore c (fun k => k.vecFunc w (funcF32 .exp)))

/-- VLOG2 (R126). -/
def execVlog2 (c : CoreId) (w : Fields) (s : State) : Out :=
  .next (s.onCore c (fun k => k.vecFunc w (funcF32 .log2)))

/-- VLOG (R126). -/
def execVlog (c : CoreId) (w : Fields) (s : State) : Out :=
  .next (s.onCore c (fun k => k.vecFunc w (funcF32 .log)))

/-- VRCP (R126). -/
def execVrcp (c : CoreId) (w : Fields) (s : State) : Out :=
  .next (s.onCore c (fun k => k.vecFunc w (funcF32 .rcp)))

/-- VRSQRT (R126). -/
def execVrsqrt (c : CoreId) (w : Fields) (s : State) : Out :=
  .next (s.onCore c (fun k => k.vecFunc w (funcF32 .rsqrt)))

/-- VSQRT (R126). -/
def execVsqrt (c : CoreId) (w : Fields) (s : State) : Out :=
  .next (s.onCore c (fun k => k.vecFunc w sqrtF32))

/-- VERF (R126). -/
def execVerf (c : CoreId) (w : Fields) (s : State) : Out :=
  .next (s.onCore c (fun k => k.vecFunc w (funcF32 .erf)))

/-- VTANH (R126). -/
def execVtanh (c : CoreId) (w : Fields) (s : State) : Out :=
  .next (s.onCore c (fun k => k.vecFunc w (funcF32 .tanh)))

/-- VSIGM (R126). -/
def execVsigm (c : CoreId) (w : Fields) (s : State) : Out :=
  .next (s.onCore c (fun k => k.vecFunc w (funcF32 .sigm)))

/-- VSILU (R126). -/
def execVsilu (c : CoreId) (w : Fields) (s : State) : Out :=
  .next (s.onCore c (fun k => k.vecFunc w (funcF32 .silu)))

/-- VGELU (R126). -/
def execVgelu (c : CoreId) (w : Fields) (s : State) : Out :=
  .next (s.onCore c (fun k => k.vecFunc w (funcF32 .gelu)))

/-- VCOMPRESS (R123). -/
def execVcompress (c : CoreId) (w : Fields) (s : State) : Out :=
  .next (s.onCore c (fun k => k.vecCompress w))

/-- VEXPAND (R124). -/
def execVexpand (c : CoreId) (w : Fields) (s : State) : Out :=
  .next (s.onCore c (fun k => k.vecExpand w))

/-- VMOV (R579). -/
def execVmov (c : CoreId) (w : Fields) (s : State) : Out :=
  .next (s.onCore c (fun k => k.vecMov w))

/-- VBCAST (R117). -/
def execVbcast (c : CoreId) (w : Fields) (s : State) : Out :=
  .next (s.onCore c (fun k => k.vecBcast w))

/-- VPOPC (R119). -/
def execVpopc (c : CoreId) (w : Fields) (s : State) : Out :=
  .next (s.onCore c (fun k => k.vecPopc w))

/-- VDESC (R136). -/
def execVdesc (c : CoreId) (w : Fields) (s : State) : Out :=
  .next (s.onChip (fun h => h.vdesc s.env c w))

/-- DESCRIPTOR_WALK_END (R139). -/
def execDescriptorWalkEnd (c : CoreId) (f : WalkFindings) (s : State) : Out :=
  .next (s.onChip (fun h => h.descriptorWalkEnd c f))

/-- TQPOP (R134). -/
def execTqpop (c : CoreId) (w : Fields) (s : State) : Out :=
  .next (s.onCore c (fun k => k.tqPop w))

/-- VSEED (R131). -/
def execVseed (c : CoreId) (w : Fields) (s : State) : Out :=
  .next (s.onCore c (fun k => k.vseed w))

/-- VSEED_ST (R131). -/
def execVseedSt (c : CoreId) (w : Fields) (s : State) : Out :=
  .next (s.onCore c (fun k => k.vseedSt w))

/-- CSEED (R69). -/
def execCseed (c : CoreId) (w : Fields) (s : State) : Out :=
  .next (s.onCore c (fun k => k.cseed w))

/-- CSEED_ST (R69). -/
def execCseedSt (c : CoreId) (w : Fields) (s : State) : Out :=
  .next (s.onCore c (fun k => k.cseedSt w))

/-- VRAND (R307). -/
def execVrand (c : CoreId) (w : Fields) (s : State) : Out :=
  .next (s.onCore c (fun k => k.vrand w))

/-- VSAMPLE (R311). -/
def execVsample (c : CoreId) (w : Fields) (s : State) : Out :=
  .next (s.onCore c (fun k => k.vsample w))

/-- VTOPK (R310). -/
def execVtopk (c : CoreId) (w : Fields) (s : State) : Out :=
  .next (s.onCore c (fun k => k.vtopk w))

/-- VTOPP (R310). -/
def execVtopp (c : CoreId) (w : Fields) (s : State) : Out :=
  .next (s.onCore c (fun k => k.vtopp w))

/-- VDROP (R308). -/
def execVdrop (c : CoreId) (w : Fields) (s : State) : Out :=
  .next (s.onCore c (fun k => k.vdrop w))

/-- VOSM_STAT (R296). -/
def execVosmStat (c : CoreId) (w : Fields) (s : State) : Out :=
  .next (s.onCore c (fun k => k.vosmStat w))

/-- VOSM_MERGE (R297). -/
def execVosmMerge (c : CoreId) (w : Fields) (s : State) : Out :=
  .next (s.onCore c (fun k => k.vosmMerge w))

/-- VOSM_SCALE (R295). -/
def execVosmScale (c : CoreId) (w : Fields) (s : State) : Out :=
  .next (s.onCore c (fun k => k.vosmScale w))

/-- VOSM_NORM (R298). -/
def execVosmNorm (c : CoreId) (w : Fields) (s : State) : Out :=
  .next (s.onCore c (fun k => k.vosmNorm w))

/-- VOSM_PROB (R298). -/
def execVosmProb (c : CoreId) (w : Fields) (s : State) : Out :=
  .next (s.onCore c (fun k => k.vosmProb w))

/-- NBIND (R157). -/
def execNbind (c : CoreId) (w : Fields) (s : State) : Out :=
  .next (s.onCore c (fun k => k.nbind w))

/-- NFLUSH (R157). -/
def execNflush (c : CoreId) (w : Fields) (s : State) : Out :=
  .next (s.onCore c (fun k => k.nflush w))

/-- NORM_FLUSH_UPDATE (R267). -/
def execNormFlushUpdate (c : CoreId) (s : State) : Out :=
  .next (s.onChip (fun h => h.normFlushUpdate s.env c))

/-- VNORM (R157). -/
def execVnorm (c : CoreId) (w : Fields) (s : State) : Out :=
  .next (s.onCore c (fun k => k.vecNorm w))

/-- MSCORE (R161). -/
def execMscore (c : CoreId) (w : Fields) (s : State) : Out :=
  .next (s.onCore c (fun k => k.mscore w))

/-- MSIEVE (R161). -/
def execMsieve (c : CoreId) (w : Fields) (s : State) : Out :=
  .next (s.onCore c (fun k => k.msieve w))

/-- XBEGIN (R159). -/
def execXbegin (c : CoreId) (w : Fields) (s : State) : Out :=
  .next (s.onChip (fun h => h.xbegin s.env c w))

/-- TRANSFER_PHASE_ADMIT (R106). -/
def execTransferPhaseAdmit (cl : ClusterId) (s : State) : Out :=
  .next (s.onChip (fun h => h.admitNext cl))

/-- XEND (R159). -/
def execXend (c : CoreId) (w : Fields) (s : State) : Out :=
  .next (s.onChip (fun h => h.xend s.env c w))

/-- XFER (R180). -/
def execXfer (c : CoreId) (w : Fields) (s : State) : Out :=
  .next (s.onChip (fun h => h.xfer s.env c w .plain))

/-- XFER_WIN (R189). -/
def execXferWin (c : CoreId) (w : Fields) (s : State) : Out :=
  .next (s.onChip (fun h => h.xfer s.env c w .win))

/-- XFER_FILL (R187). -/
def execXferFill (c : CoreId) (w : Fields) (s : State) : Out :=
  .next (s.onChip (fun h => h.xfer s.env c w .fill))

/-- XFER_COPY (R188). -/
def execXferCopy (c : CoreId) (w : Fields) (s : State) : Out :=
  .next (s.onChip (fun h => h.xfer s.env c w .copy))

/-- XFER_MC (R190). -/
def execXferMc (c : CoreId) (w : Fields) (s : State) : Out :=
  .next (s.onChip (fun h => h.xfer s.env c w .multicast))

/-- FENCE (R363). -/
def execFence (c : CoreId) (w : Fields) (s : State) : Out :=
  .next (s.onChip (fun h => h.fence s.env c w))

/-- FENCE_SC (R364). -/
def execFenceSc (c : CoreId) (w : Fields) (s : State) : Out :=
  .next (s.onChip (fun h => h.fenceSc s.env c w))

/-- DRAIN_REQUEST_ARRIVAL (R364). -/
def execDrainRequestArrival (c : CoreId) (m : DrainMaster) (s : State) : Out :=
  .next (s.onChip (fun h => h.drainArrive c m))

/-- DRAIN_ACKNOWLEDGE (R364). -/
def execDrainAcknowledge (c : CoreId) (m : DrainMaster) (s : State) : Out :=
  .next (s.onChip (fun h => h.drainAck c m))

/-- LD_G (R160). -/
def execLdG (c : CoreId) (w : Fields) (s : State) : Out :=
  .next (s.onChip (fun h => h.ldG s.env c w))

/-- LOAD_RETURN (R160). -/
def execLoadReturn (c : CoreId) (s : State) : Out :=
  .next (s.onChip (fun h => (h.loadReturn s.env c).invalReplies s.env))

/-- ST_G (R160). -/
def execStG (c : CoreId) (w : Fields) (s : State) : Out :=
  .next (s.onChip (fun h => h.stG s.env c w))

/-- AMO (R370). -/
def execAmo (c : CoreId) (w : Fields) (s : State) : Out :=
  .next (s.onChip (fun h => h.amo s.env c w))

/-- WAITHT (R396). -/
def execWaitht (c : CoreId) (w : Fields) (s : State) : Out :=
  .next (s.onCore c (fun k => k.waitht s.env w))

/-- WAITHT_RELEASE (R396). -/
def execWaithtRelease (c : CoreId) (s : State) : Out :=
  .next (s.onChip (fun h => h.waithtRelease s.env c))

/-- BARW (R395). -/
def execBarw (c : CoreId) (w : Fields) (s : State) : Out :=
  .next (s.onChip (fun h => h.barw s.env c w))

/-- BARW_RELEASE (R396). -/
def execBarwRelease (sec : SectorId) (e : BitVec 12) (s : State) : Out :=
  .next (s.onChip (fun h => h.barwRelease s.env sec e))

/-- HTRD (R376). -/
def execHtrd (c : CoreId) (w : Fields) (s : State) : Out :=
  .next (s.onCore c (fun k => k.htrd s.env false w))

/-- HTRD_H (R376). -/
def execHtrdH (c : CoreId) (w : Fields) (s : State) : Out :=
  .next (s.onCore c (fun k => k.htrd s.env true w))

/-- STAT_RD (R162). -/
def execStatRd (c : CoreId) (w : Fields) (s : State) : Out :=
  .next (s.onCore c (fun k => k.statRd c w))

/-- STAT_CLR (R162). -/
def execStatClr (c : CoreId) (w : Fields) (s : State) : Out :=
  .next (s.onCore c (fun k => k.statClr w))

end Sys2Proof.Machine
end

