-- ==== Sys2Proof/Machine/ExecFabric.lean ====
section
/-! DEFINITION. Meanings of the events of the Myeth ports (chapter 16). -/
namespace Sys2Proof.Machine

/-- LANE_LOCK_LOSS (R399). -/
def execLaneLockLoss (port : PortId) (lane : BitVec 2) (s : State) : Out :=
  .next (s.onChip (fun h => h.laneLockLoss s.env port lane))

/-- LANE_SWAP (R399). -/
def execLaneSwap (port : PortId) (transmit : Bool) (s : State) : Out :=
  .next (s.onChip (fun h => h.laneSwap s.env port transmit))

/-- SCHEDULED_SEND (R411). -/
def execScheduledSend (port : PortId) (frame : FrameNo) (slot : SlotNo) (s : State) : Out :=
  .next (s.onChip (fun h => h.scheduledSend s.env (s.linkOut port) port frame.toNat slot.toNat))

/-- SCHEDULED_RECEIVE (R404). -/
def execScheduledReceive (port : PortId) (frame : FrameNo) (slot : SlotNo) (a : Arrival) (s : State) : Out :=
  .next (s.onChip (fun h => h.scheduledReceive s.env (s.linkOut port) port frame.toNat slot.toNat a))

/-- FORWARD_SEND (R412). -/
def execForwardSend (port : PortId) (frame : FrameNo) (slot : SlotNo) (s : State) : Out :=
  .next (s.onChip (fun h => h.forwardSend s.env (s.linkOut port) port frame.toNat slot.toNat))

/-- REPAIR_REQUEST_SEND (R416). -/
def execRepairRequestSend (port : PortId) (s : State) : Out :=
  .next (s.onChip (fun h => h.repairRequestSend s.env port))

/-- REPAIR_REQUEST_RECEIVE (R417). -/
def execRepairRequestReceive (port : PortId) (a : Arrival) (s : State) : Out :=
  .next (s.onChip (fun h => h.repairRequestReceive s.env port a))

/-- REPAIR_FLIT_SEND (R417). -/
def execRepairFlitSend (port : PortId) (frame : FrameNo) (slot : SlotNo) (s : State) : Out :=
  .next (s.onChip (fun h => h.repairFlitSend s.env port frame.toNat slot.toNat))

/-- REPAIR_FLIT_RECEIVE (R417). -/
def execRepairFlitReceive (port : PortId) (a : Arrival) (s : State) : Out :=
  .next (s.onChip (fun h => h.repairFlitReceive s.env port a))

/-- FLIT_LOSS (R418). -/
def execFlitLoss (port : PortId) (frame : FrameNo) (slot : SlotNo) (s : State) : Out :=
  .next (s.onChip (fun h => h.flitLoss s.env port frame.toNat slot.toNat))

/-- PARTNER_ABSENT (R419). -/
def execPartnerAbsent (port : PortId) (s : State) : Out :=
  .next (s.onChip (fun h => h.absentPort s.env port))

/-- ABSENT_CLEAR (R419). -/
def execAbsentClear (port : PortId) (s : State) : Out :=
  .next (s.onChip (fun h => h.absentClear s.env port (s.time.link port).upState))

/-- OPEN_MESSAGE_RECEIVE (R420). -/
def execOpenMessageReceive (port : PortId) (a : Arrival) (s : State) : Out :=
  .next (s.onChip (fun h => h.openReceive s.env port a))

/-- OPEN_SLOT_GRANT (R421). -/
def execOpenSlotGrant (port : PortId) (frame : FrameNo) (slot : SlotNo) (s : State) : Out :=
  .next (s.onChip (fun h => h.openGrant s.env port frame.toNat slot.toNat))

/-- SEALED_ACKNOWLEDGEMENT (R424). -/
def execSealedAcknowledgement (g : GroupId) (s : State) : Out :=
  .next (s.onChip (fun h => h.sealedAck s.env g))

/-- SEALED_RESEND_REQUEST (R424). -/
def execSealedResendRequest (g : GroupId) (chunk : BitVec 32) (resend : Bool) (s : State) : Out :=
  .next (s.onChip (fun h => h.sealedInbox g chunk resend))

/-- SCHEDULE_LOAD_DONE (R408). -/
def execScheduleLoadDone (port : PortId) (s : State) : Out :=
  .next (s.onChip (fun h => (h.scheduleLoadDone port).schedReplies s.env))

/-- BANK_SWAP (R409). -/
def execBankSwap (port : PortId) (s : State) : Out :=
  .next (s.onChip (fun h => h.bankSwap s.env port))

end Sys2Proof.Machine
end

