-- ==== Sys2Proof/Machine/ExecJob.lean ====
section
/-! DEFINITION. Meanings of the events of work items, pre-emption and repair (chapters 04, 06, 12 and 22). -/
namespace Sys2Proof.Machine

/-- TILE_RESTORE (R536). -/
def execTileRestore (c : CoreId) (s : State) : Out :=
  .next (s.onChip (fun h => h.tileRestore s.env c))

/-- CORE_OUT_OF_SERVICE (R535). -/
def execCoreOutOfService (c : CoreId) (s : State) : Out :=
  .next (s.onChip (fun h => (h.coreOut s.env c).preemptReplies s.env))

/-- WORK_ITEM_START (R171). -/
def execWorkItemStart (c : CoreId) (item : BitVec 32) (s : State) : Out :=
  .next (s.onChip (fun h => h.workItemStart c item.toNat))

/-- PREEMPT_REQUEST (R110). -/
def execPreemptRequest (c : CoreId) (s : State) : Out :=
  .next (s.onChip (fun h => h.preemptRequest s.env c))

/-- PREEMPT_BOUNDARY (R110). -/
def execPreemptBoundary (c : CoreId) (s : State) : Out :=
  .next (s.onChip (fun h => h.preemptBoundary c))

/-- PREEMPT_DISCARD (R110). -/
def execPreemptDiscard (c : CoreId) (s : State) : Out :=
  .next (s.onCore c (fun k => k.preemptDiscard))

/-- CONTEXT_SAVE_DONE (R166). -/
def execContextSaveDone (c : CoreId) (s : State) : Out :=
  .next (s.onChip (fun h => h.contextSaveDone s.env c))

/-- HBM_ROW_REPAIR (R326). -/
def execHbmRowRepair (stack : BitVec 4) (pc : BitVec 6) (bank : BitVec 6) (row : BitVec 16) (s : State) : Out :=
  .next (s.onChip (fun h => h.rowRepair s.env stack.toNat pc.toNat bank.toNat row.toNat))

/-- PSEUDO_CHANNEL_COPY_END (R327). -/
def execPseudoChannelCopyEnd (stack : BitVec 4) (s : State) : Out :=
  .next (s.onChip (fun h => h.copyEnd stack.toNat))

/-- STAGED_REPAIR_APPLY (R532). -/
def execStagedRepairApply (entry : BitVec 14) (s : State) : Out :=
  .next (s.onChip (fun h => h.stagedApply s.env entry.toNat))

/-- CORE_RESET (R526). -/
def execCoreReset (c : CoreId) (s : State) : Out :=
  .next (s.onChip (fun h => h.coreReset c))

/-- REGULATOR_PHASE_FAIL (R531). -/
def execRegulatorPhaseFail (rail phase : BitVec 8) (s : State) : Out :=
  .next (s.onChip (fun h => h.phaseFail s.env rail.toNat phase.toNat))

/-- AGEING_SCAN (R539). -/
def execAgeingScan (cl : ClusterId) (margin : BitVec 8) (pair : BitVec 6) (s : State) : Out :=
  .next (s.onChip (fun h => h.ageingScan s.env cl margin pair))

/-- MANAGEMENT_PAIR_FAILURE (R540). -/
def execManagementPairFailure (_lockstep : Bool) (s : State) : Out :=
  .next (s.onChip (fun h => h.pairFailure s.env))

/-- SPARE_PAIR_READY (R541). -/
def execSparePairReady (s : State) : Out :=
  .next (s.onChip (fun h => h.spareReady s.env))

/-- REPAIR_TRIGGER (R530). -/
def execRepairTrigger (kind : Byte) (location : BitVec 32) (s : State) : Out :=
  .next (s.onChip (fun h => h.repairTrigger s.env kind.toNat location.toNat))

end Sys2Proof.Machine
end

