-- ==== Sys2Proof/Machine/ExecMem.lean ====
section
/-! DEFINITION. Meanings of the events of streams, write buffers, homes, controllers and walkers (chapters 07, 12, 13, 14). -/
namespace Sys2Proof.Machine

/-- STREAM_PREEMPT_PARK (R199). -/
def execStreamPreemptPark (cl : ClusterId) (serial : BitVec 16) (s : State) : Out :=
  .next (s.onChip (fun h => h.preemptPark cl serial))

/-- LINE_DELIVERY (R183). -/
def execLineDelivery (cl : ClusterId) (serial : BitVec 16) (s : State) : Out :=
  .next (s.onChip (fun h => h.lineDelivery s.env cl serial))

/-- STREAM_END (R185). -/
def execStreamEnd (cl : ClusterId) (serial : BitVec 16) (s : State) : Out :=
  .next (s.onChip (fun h => h.streamEnd cl serial))

/-- PARKED_STREAM_SPILL (R194). -/
def execParkedStreamSpill (cl : ClusterId) (serial : BitVec 16) (s : State) : Out :=
  .next (s.onChip (fun h => h.parkedSpill cl serial))

/-- PARK_LIMIT_EXPIRY (R198). -/
def execParkLimitExpiry (cl : ClusterId) (serial : BitVec 16) (s : State) : Out :=
  .next (s.onChip (fun h => h.parkExpiry s.env cl serial))

/-- SPILL_ROTATION (R193). -/
def execSpillRotation (cl : ClusterId) (s : State) : Out :=
  .next (s.onChip (fun h => h.spillRotation cl))

/-- SPILL_PROMOTION (R193). -/
def execSpillPromotion (cl : ClusterId) (s : State) : Out :=
  .next (s.onChip (fun h => h.spillPromotion cl))

/-- MULTICAST_RECEIVE_TIMEOUT (R190). -/
def execMulticastReceiveTimeout (cl : ClusterId) (serial : BitVec 16) (s : State) : Out :=
  .next (s.onChip (fun h => h.mcRecvTimeout s.env cl serial))

/-- MULTICAST_SEND_TIMEOUT (R190). -/
def execMulticastSendTimeout (cl : ClusterId) (serial : BitVec 16) (s : State) : Out :=
  .next (s.onChip (fun h => h.mcSendTimeout s.env cl serial))

/-- DETACHED_COPY_END (R188). -/
def execDetachedCopyEnd (cl : ClusterId) (serial : BitVec 16) (s : State) : Out :=
  .next (s.onChip (fun h => h.detachedEnd s.env cl serial))

/-- WRITE_BUFFER_SEND (R360). -/
def execWriteBufferSend (cl : ClusterId) (line : BitVec 46) (s : State) : Out :=
  .next (s.onChip (fun h => h.wbSend cl line.toNat))

/-- HOME_WRITE_PERFORM (R359). -/
def execHomeWritePerform (cl : ClusterId) (line : BitVec 46) (s : State) : Out :=
  .next (s.onChip (fun h => (h.homeWrite cl line.toNat).invalReplies s.env))

/-- HOME_ATOMIC (R372). -/
def execHomeAtomic (c : CoreId) (s : State) : Out :=
  .next (s.onChip (fun h => (h.homeAtomic s.env c).invalReplies s.env))

/-- MEMORY_REQUEST_SERVICE (R322). -/
def execMemoryRequestService (u : MemUnit) (ecc : EccResult) (s : State) : Out :=
  .next (s.onChip (fun h => h.memService s.env u.toNat ecc))

/-- STARVATION_GUARD (R322). -/
def execStarvationGuard (u : MemUnit) (s : State) : Out :=
  .next (s.onChip (fun h => h.starvationGuard s.env u.toNat))

/-- PATROL_SCRUB (R325). -/
def execPatrolScrub (line : BitVec 46) (ecc : EccResult) (newer : Bool) (s : State) : Out :=
  .next (s.onChip (fun h => h.patrolScrub s.env line.toNat ecc newer))

/-- WALK_START (R339). -/
def execWalkStart (r : Requester) (s : State) : Out :=
  .next (s.onChip (fun h => h.walkStart r))

/-- WALK_END (R340). -/
def execWalkEnd (d : DieId) (tenant : TenantId) (page : BitVec 36) (s : State) : Out :=
  .next (s.onChip (fun h => h.walkEnd s.env d tenant page))

/-- ACCESS_PARK_LIMIT (R345). -/
def execAccessParkLimit (c : CoreId) (s : State) : Out :=
  .next (s.onChip (fun h => h.accessParkLimit s.env c))

end Sys2Proof.Machine
end

