-- ==== Sys2Proof/Machine/ExecMoult.lean ====
section
/-! DEFINITION. Meanings of the events of moults, mode changes, digests and chrysalises (chapters 09 and 18). -/
namespace Sys2Proof.Machine

/-- MOULT_START (R243). -/
def execMoultStart (d : DieId) (job : JobId) (s : State) : Out :=
  .next (s.onChip (fun h => h.moultStart s.env d job))

/-- MOULT_SCORE (R245). -/
def execMoultScore (d : DieId) (s : State) : Out :=
  .next (s.onChip (fun h => h.moultScore d))

/-- MOULT_SIEVE (R240). -/
def execMoultSieve (d : DieId) (s : State) : Out :=
  .next (s.onChip (fun h => h.moultSieve d))

/-- MOULT_REDUCE (R246). -/
def execMoultReduce (job : JobId) (peers : List PeerLanes) (s : State) : Out :=
  .next (s.onChip (fun h => h.moultReduce s.env job peers))

/-- MOULT_DROP_GROW (R249). -/
def execMoultDropGrow (d : DieId) (s : State) : Out :=
  .next (s.onChip (fun h => h.moultDropGrow d))

/-- MOULT_RECHOOSE (R252). -/
def execMoultRechoose (d : DieId) (s : State) : Out :=
  .next (s.onChip (fun h => h.moultRechoose d))

/-- MOULT_REBUILD (R253). -/
def execMoultRebuild (d : DieId) (s : State) : Out :=
  .next (s.onChip (fun h => h.moultRebuild d))

/-- MOULT_CANDIDATES (R257). -/
def execMoultCandidates (d : DieId) (s : State) : Out :=
  .next (s.onChip (fun h => h.moultCandidates d))

/-- MOULT_VOTE (R258). -/
def execMoultVote (job : JobId) (s : State) : Out :=
  .next (s.onChip (fun h => h.moultVote s.env job))

/-- MOULT_VOTE_RESULT (R258). -/
def execMoultVoteResult (job : JobId) (peers : BitVec 64) (s : State) : Out :=
  .next (s.onChip (fun h => h.moultVoteResult s.env job peers))

/-- MOULT_COMMIT (R259). -/
def execMoultCommit (job : JobId) (s : State) : Out :=
  .next (s.onChip (fun h => h.moultCommit s.env job))

/-- MOULT_TIMEOUT (R260). -/
def execMoultTimeout (job : JobId) (s : State) : Out :=
  .next (s.onChip (fun h => h.moultTimeout s.env job))

/-- MODE_VOTE (R454). -/
def execModeVote (g : GroupId) (s : State) : Out :=
  .next (s.onChip (fun h => h.modeVote s.env g))

/-- MODE_VOTE_RESULT (R454). -/
def execModeVoteResult (g : GroupId) (peers : BitVec 64) (s : State) : Out :=
  .next (s.onChip (fun h => h.modeVoteResult s.env g peers))

/-- MODE_COMMIT (R454). -/
def execModeCommit (g : GroupId) (s : State) : Out :=
  .next (s.onChip (fun h => h.modeCommit s.env g))

/-- MODE_TIMEOUT (R454). -/
def execModeTimeout (g : GroupId) (s : State) : Out :=
  .next (s.onChip (fun h => h.modeTimeout s.env g))

/-- DIGEST_CLOSE (R462). -/
def execDigestClose (job : JobId) (s : State) : Out :=
  .next (s.onChip (fun h => h.digestClose s.env job))

/-- CHRYSALIS_COPY_END (R468). -/
def execChrysalisCopyEnd (job : JobId) (s : State) : Out :=
  .next (s.onChip (fun h => h.chrysalisCopyEnd s.env job))

/-- CHRYSALIS_SHIP_END (R470). -/
def execChrysalisShipEnd (area : BitVec 48) (status : ShipResult) (s : State) : Out :=
  .next (s.onChip (fun h => h.chrysalisShipEnd s.env area status))

end Sys2Proof.Machine
end

