-- ==== Sys2Proof/Machine/ExecPower.lean ====
section
/-! DEFINITION. Meanings of the events of power, start-up, managers and pins (chapters 21, 22 and 24). -/
namespace Sys2Proof.Machine

/-- INPUT_LOSS (R504). -/
def execInputLoss (inputB : Bool) (s : State) : Out :=
  .next (s.onChip (fun h => { h with power := h.power.inputLoss s.now inputB }))

/-- SUPPLY_SWITCH_OVER (R505). -/
def execSupplySwitchOver (s : State) : Out :=
  .next (s.onChip (fun h => h.switchOver s.env))

/-- INPUT_RESTORE (R506). -/
def execInputRestore (inputB : Bool) (s : State) : Out :=
  .next (s.onChip (fun h => { h with power := h.power.inputRestore inputB }))

/-- POWER_LOSS_RESET (R506). -/
def execPowerLossReset (s : State) : Out :=
  .next (s.powerLoss)

/-- POWER_ON_RESET (R524). -/
def execPowerOnReset (pos cool : BitVec 2) (s : State) : Out :=
  .next (s.powerOn pos cool)

/-- OPERATING_POINT_CHANGE (R509). -/
def execOperatingPointChange (sec : SectorId) (s : State) : Out :=
  .next (s.onChip (fun h => h.pointChange sec))

/-- DROOP (R511). -/
def execDroop (sec : SectorId) (s : State) : Out :=
  .next (s.onChip (fun h => h.droop s.env sec))

/-- DROOP_DECAY (R511). -/
def execDroopDecay (sec : SectorId) (s : State) : Out :=
  .next (s.onChip (fun h => h.droopDecay s.env sec))

/-- THERMAL_CONTROL (R511). -/
def execThermalControl (sec : SectorId) (tj : BitVec 8) (s : State) : Out :=
  .next (s.onChip (fun h => h.thermalControl s.env sec tj))

/-- POWER_CONTROL (R512). -/
def execPowerControl (watts : BitVec 16) (s : State) : Out :=
  .next (s.powerControl watts)

/-- THERMAL_TRIP (R514). -/
def execThermalTrip (_sec : SectorId) (tj : BitVec 8) (s : State) : Out :=
  .next (s.thermalTrip tj)

/-- CLUSTER_GATE (R516). -/
def execClusterGate (cl : ClusterId) (s : State) : Out :=
  .next (s.onChip (fun h => h.clusterGate s.env cl))

/-- CLUSTER_UNGATE (R516). -/
def execClusterUngate (cl : ClusterId) (s : State) : Out :=
  .next (s.onChip (fun h => h.clusterUngate s.env cl))

/-- SECTOR_SLEEP (R517). -/
def execSectorSleep (sec : SectorId) (s : State) : Out :=
  .next (s.onChip (fun h => h.sectorSleep s.env sec))

/-- SECTOR_WAKE (R518). -/
def execSectorWake (sec : SectorId) (s : State) : Out :=
  .next (s.onChip (fun h => h.sectorWake s.env sec))

/-- BOOT_STAGE_END (R524). -/
def execBootStageEnd (r : BootResult) (s : State) : Out :=
  .next (s.bootStage r)

/-- COCOON_TAKEOVER (R542). -/
def execCocoonTakeover (s : State) : Out :=
  .next (s.takeover)

/-- SMBUS_READ_BOOT (R543). -/
def execSmbusReadBoot (s : State) : Out :=
  .next (s.onChip (fun h => { h with sys := { h.sys with smbus := h.sys.bootWord } }))

/-- SMBUS_READ_STATE (R543). -/
def execSmbusReadState (s : State) : Out :=
  .next (s.onChip (fun h => { h with sys := { h.sys with smbus := h.sys.stateWord } }))

/-- SMBUS_COLD_RESET (R543). -/
def execSmbusColdReset (value : Byte) (s : State) : Out :=
  .next (if value == 0xC5 then s.coldReset else s)

/-- JTAG_BYPASS (R570). -/
def execJtagBypass (s : State) : Out :=
  .next (s.onChip (fun h => { h with sys := h.sys.tapLoad 0 }))

/-- JTAG_IDCODE (R570). -/
def execJtagIdcode (s : State) : Out :=
  .next (s.onChip (fun h => { h with sys := h.sys.tapLoad 1 }))

/-- JTAG_SAMPLE_PRELOAD (R570). -/
def execJtagSamplePreload (s : State) : Out :=
  .next (s.onChip (fun h => { h with sys := h.sys.tapLoad 2 }))

/-- JTAG_EXTEST (R570). -/
def execJtagExtest (s : State) : Out :=
  .next (s.onChip (fun h => { h with sys := h.sys.tapLoad 3 }))

/-- THERMAL_TRIP_RECOVERY (R574). -/
def execThermalTripRecovery (tjMax : BitVec 8) (s : State) : Out :=
  .next (s.tripRecovery tjMax)

/-- REFERENCE_CLOCK_LOSS (R563). -/
def execReferenceClockLoss (s : State) : Out :=
  .next (s.onChip (fun h => h.refLoss))

/-- REFERENCE_CLOCK_RETURN (R563). -/
def execReferenceClockReturn (s : State) : Out :=
  .next (s.onChip (fun h => h.refReturn))

end Sys2Proof.Machine
end

