-- ==== Sys2Proof/Machine/ExecReg.lean ====
section
/-! DEFINITION. Meanings of the accesses of registers and of application cores (chapters 13, 14, 15, 19, 20 and 21). -/
namespace Sys2Proof.Machine

/-- HT_CFG_WRITE (R380). -/
def execHtCfgWrite (m : Master) (v : BitVec 64) (s : State) : Out :=
  .next (s.deviceWrite m 0x200010 true v)

/-- HT_NOW_READ (R502). -/
def execHtNowRead (m : Master) (s : State) : Out :=
  .next (State.give (s.deviceRead m 0x200000 true) m)

/-- EYE_MARK_WRITE (R480). -/
def execEyeMarkWrite (m : Master) (v : BitVec 64) (s : State) : Out :=
  .next (s.deviceWrite m 0x900020 true v)

/-- EYE_CTL_WRITE (R475). -/
def execEyeCtlWrite (m : Master) (d : DieId) (v : BitVec 64) (s : State) : Out :=
  .next (s.deviceWrite m (0x901000 + 0x100 * d.toNat) true v)

/-- DOORBELL (R483). -/
def execDoorbell (m : Master) (ring : RingId) (v : BitVec 64) (s : State) : Out :=
  .next (s.deviceWrite m (0x100000000 + 4096 * ring.toNat) true v)

/-- CMD_RTAIL_WRITE (R484). -/
def execCmdRtailWrite (m : Master) (ring : RingId) (v : BitVec 64) (s : State) : Out :=
  .next (s.deviceWrite m (0x100000010 + 4096 * ring.toNat) true v)

/-- CMD_RING_ENABLE (R482). -/
def execCmdRingEnable (m : Master) (ring : RingId) (v : BitVec 64) (s : State) : Out :=
  .next (s.deviceWrite m (0x101000 + 16 * ring.toNat) true v)

/-- DEBUG_REG (R501). -/
def execDebugReg (p : PktRef) (s : State) : Out :=
  .next (s.command p 0x0F00 anySub State.debugReg)

/-- REGISTER_WRITE (R9). -/
def execRegisterWrite (m : Master) (offset : BitVec 51) (v : BitVec 64) (s : State) : Out :=
  .next (s.deviceWrite m offset.toNat true v)

/-- PREF_WRITE (R505). -/
def execPrefWrite (m : Master) (v : BitVec 64) (s : State) : Out :=
  .next (s.deviceWrite m 0x800000 true v)

/-- APPLICATION_CORE_ACCESS (R354). -/
def execApplicationCoreAccess (a : AppId) (x : AppAccess) (s : State) : Out :=
  .next (s.appAccess a x)

end Sys2Proof.Machine
end

