-- ==== Sys2Proof/Machine/ExecTime.lean ====
section
/-! DEFINITION. Meanings of the events of hall time and barriers (chapter 15). -/
namespace Sys2Proof.Machine

/-- UPSTREAM_SWITCH (R379). -/
def execUpstreamSwitch (s : State) : Out :=
  .next (s.upstreamSwitch)

/-- HOLDOVER_ENTRY (R379). -/
def execHoldoverEntry (s : State) : Out :=
  .next (s.timeEvent (fun t r => t.holdoverEntry r))

/-- HOLDOVER_EXIT (R379). -/
def execHoldoverExit (s : State) : Out :=
  .next (s.timeEvent (fun t r => t.holdoverExit r))

/-- TIME_FLIT_SEND (R382). -/
def execTimeFlitSend (port : PortId) (s : State) : Out :=
  .next (s.onTime (fun t r => t.timeFlitSend r port ((s.chip.port port).link == 2)))

/-- TIME_FLIT_RECEIVE (R388). -/
def execTimeFlitReceive (port : PortId) (f : TimeArrival) (s : State) : Out :=
  .next (s.timeFlitReceive port f)

/-- PARTNER_OUT_CLEAR (R388). -/
def execPartnerOutClear (port : PortId) (s : State) : Out :=
  .next (s.onTime (fun t _ => t.partnerOutClear port))

/-- SLEW_COMPLETE (R390). -/
def execSlewComplete (s : State) : Out :=
  .next (s.onTime (fun t _ => t.slewComplete))

/-- DELAY_VALID_EXPIRY (R384). -/
def execDelayValidExpiry (port : PortId) (s : State) : Out :=
  .next (s.onTime (fun t r => t.delayExpiry r port))

/-- ENTER_OUT (R387). -/
def execEnterOut (s : State) : Out :=
  .next (s.timeEvent (fun t r => t.enterOut r))

/-- ENTER_TRACK (R386). -/
def execEnterTrack (s : State) : Out :=
  .next (s.timeEvent (fun t r => t.enterTrack r))

/-- ENTER_LOCKED (R386). -/
def execEnterLocked (s : State) : Out :=
  .next (s.timeEvent (fun t r => t.enterLocked r))

/-- PPS_IN_EDGE (R391). -/
def execPpsInEdge (rising : Bool) (s : State) : Out :=
  .next (s.ppsInEdge rising)

/-- PPS_LOST (R391). -/
def execPpsLost (s : State) : Out :=
  .next (s.timeEvent (fun t r => t.loseTick r))

/-- PPS_OUT_EDGE (R392). -/
def execPpsOutEdge (rising : Bool) (s : State) : Out :=
  .next (s.ppsOutEdge rising)

/-- HT_END (R549). -/
def execHtEnd (s : State) : Out :=
  .next (s.timeEvent (fun t r => (fun (_ : HtRegs) => t.htEnd) r))

/-- BARRIER_INSTANT_RELEASE (R394). -/
def execBarrierInstantRelease (e : BitVec 12) (s : State) : Out :=
  .next (s.onChip (fun h => h.barrierInstant s.env e))

end Sys2Proof.Machine
end

