-- ==== Sys2Proof/Machine/Dispatch.lean ====
section
/-! DEFINITION. One arm for each command, in the order of spec/opcode_table.json. -/
namespace Sys2Proof.Machine

/-- The effect of a command on everything but the queue. -/
def exec (i : Instr) (s : State) : Host.Outcome State Fault Refusal :=
  match i with
  | .nop c w => Sys2Proof.Machine.execNop c w s
  | .endItem c w => Sys2Proof.Machine.execEndItem c w s
  | .jal c w => Sys2Proof.Machine.execJal c w s
  | .jr c w => Sys2Proof.Machine.execJr c w s
  | .beq c w => Sys2Proof.Machine.execBeq c w s
  | .bne c w => Sys2Proof.Machine.execBne c w s
  | .blt c w => Sys2Proof.Machine.execBlt c w s
  | .bge c w => Sys2Proof.Machine.execBge c w s
  | .bltu c w => Sys2Proof.Machine.execBltu c w s
  | .bgeu c w => Sys2Proof.Machine.execBgeu c w s
  | .loop c w => Sys2Proof.Machine.execLoop c w s
  | .bsel c w => Sys2Proof.Machine.execBsel c w s
  | .trap c w => Sys2Proof.Machine.execTrap c w s
  | .add c w => Sys2Proof.Machine.execAdd c w s
  | .sub c w => Sys2Proof.Machine.execSub c w s
  | .and c w => Sys2Proof.Machine.execAnd c w s
  | .or c w => Sys2Proof.Machine.execOr c w s
  | .xor c w => Sys2Proof.Machine.execXor c w s
  | .shl c w => Sys2Proof.Machine.execShl c w s
  | .shr c w => Sys2Proof.Machine.execShr c w s
  | .sra c w => Sys2Proof.Machine.execSra c w s
  | .mul c w => Sys2Proof.Machine.execMul c w s
  | .min c w => Sys2Proof.Machine.execMin c w s
  | .max c w => Sys2Proof.Machine.execMax c w s
  | .addi c w => Sys2Proof.Machine.execAddi c w s
  | .li c w => Sys2Proof.Machine.execLi c w s
  | .lih c w => Sys2Proof.Machine.execLih c w s
  | .ldS c w => Sys2Proof.Machine.execLdS c w s
  | .stS c w => Sys2Proof.Machine.execStS c w s
  | .mma c w => Sys2Proof.Machine.execMma c w s
  | .mmaT4 c w => Sys2Proof.Machine.execMmaT4 c w s
  | .mmaT4t c w => Sys2Proof.Machine.execMmaT4t c w s
  | .mmaT4s c w => Sys2Proof.Machine.execMmaT4s c w s
  | .mclose c w => Sys2Proof.Machine.execMclose c w s
  | .mwait c w => Sys2Proof.Machine.execMwait c w s
  | .vadd c w => Sys2Proof.Machine.execVadd c w s
  | .vsub c w => Sys2Proof.Machine.execVsub c w s
  | .vmul c w => Sys2Proof.Machine.execVmul c w s
  | .vfma c w => Sys2Proof.Machine.execVfma c w s
  | .vmin c w => Sys2Proof.Machine.execVmin c w s
  | .vmax c w => Sys2Proof.Machine.execVmax c w s
  | .vabs c w => Sys2Proof.Machine.execVabs c w s
  | .vneg c w => Sys2Proof.Machine.execVneg c w s
  | .vcmp c w => Sys2Proof.Machine.execVcmp c w s
  | .vsel c w => Sys2Proof.Machine.execVsel c w s
  | .vrsum c w => Sys2Proof.Machine.execVrsum c w s
  | .vrmax c w => Sys2Proof.Machine.execVrmax c w s
  | .vrmaxi c w => Sys2Proof.Machine.execVrmaxi c w s
  | .vcvt c w => Sys2Proof.Machine.execVcvt c w s
  | .vldq c w => Sys2Proof.Machine.execVldq c w s
  | .vexp2 c w => Sys2Proof.Machine.execVexp2 c w s
  | .vexp c w => Sys2Proof.Machine.execVexp c w s
  | .vlog2 c w => Sys2Proof.Machine.execVlog2 c w s
  | .vlog c w => Sys2Proof.Machine.execVlog c w s
  | .vrcp c w => Sys2Proof.Machine.execVrcp c w s
  | .vrsqrt c w => Sys2Proof.Machine.execVrsqrt c w s
  | .vsqrt c w => Sys2Proof.Machine.execVsqrt c w s
  | .verf c w => Sys2Proof.Machine.execVerf c w s
  | .vtanh c w => Sys2Proof.Machine.execVtanh c w s
  | .vsigm c w => Sys2Proof.Machine.execVsigm c w s
  | .vsilu c w => Sys2Proof.Machine.execVsilu c w s
  | .vgelu c w => Sys2Proof.Machine.execVgelu c w s
  | .vcompress c w => Sys2Proof.Machine.execVcompress c w s
  | .vexpand c w => Sys2Proof.Machine.execVexpand c w s
  | .vmov c w => Sys2Proof.Machine.execVmov c w s
  | .vbcast c w => Sys2Proof.Machine.execVbcast c w s
  | .vpopc c w => Sys2Proof.Machine.execVpopc c w s
  | .vdesc c w => Sys2Proof.Machine.execVdesc c w s
  | .descriptorWalkEnd c f => Sys2Proof.Machine.execDescriptorWalkEnd c f s
  | .tqpop c w => Sys2Proof.Machine.execTqpop c w s
  | .vseed c w => Sys2Proof.Machine.execVseed c w s
  | .vseedSt c w => Sys2Proof.Machine.execVseedSt c w s
  | .cseed c w => Sys2Proof.Machine.execCseed c w s
  | .cseedSt c w => Sys2Proof.Machine.execCseedSt c w s
  | .vrand c w => Sys2Proof.Machine.execVrand c w s
  | .vsample c w => Sys2Proof.Machine.execVsample c w s
  | .vtopk c w => Sys2Proof.Machine.execVtopk c w s
  | .vtopp c w => Sys2Proof.Machine.execVtopp c w s
  | .vdrop c w => Sys2Proof.Machine.execVdrop c w s
  | .vosmStat c w => Sys2Proof.Machine.execVosmStat c w s
  | .vosmMerge c w => Sys2Proof.Machine.execVosmMerge c w s
  | .vosmScale c w => Sys2Proof.Machine.execVosmScale c w s
  | .vosmNorm c w => Sys2Proof.Machine.execVosmNorm c w s
  | .vosmProb c w => Sys2Proof.Machine.execVosmProb c w s
  | .nbind c w => Sys2Proof.Machine.execNbind c w s
  | .nflush c w => Sys2Proof.Machine.execNflush c w s
  | .normFlushUpdate c => Sys2Proof.Machine.execNormFlushUpdate c s
  | .vnorm c w => Sys2Proof.Machine.execVnorm c w s
  | .mscore c w => Sys2Proof.Machine.execMscore c w s
  | .msieve c w => Sys2Proof.Machine.execMsieve c w s
  | .xbegin c w => Sys2Proof.Machine.execXbegin c w s
  | .transferPhaseAdmit cl => Sys2Proof.Machine.execTransferPhaseAdmit cl s
  | .xend c w => Sys2Proof.Machine.execXend c w s
  | .xfer c w => Sys2Proof.Machine.execXfer c w s
  | .xferWin c w => Sys2Proof.Machine.execXferWin c w s
  | .xferFill c w => Sys2Proof.Machine.execXferFill c w s
  | .xferCopy c w => Sys2Proof.Machine.execXferCopy c w s
  | .xferMc c w => Sys2Proof.Machine.execXferMc c w s
  | .fence c w => Sys2Proof.Machine.execFence c w s
  | .fenceSc c w => Sys2Proof.Machine.execFenceSc c w s
  | .drainRequestArrival c m => Sys2Proof.Machine.execDrainRequestArrival c m s
  | .drainAcknowledge c m => Sys2Proof.Machine.execDrainAcknowledge c m s
  | .ldG c w => Sys2Proof.Machine.execLdG c w s
  | .loadReturn c => Sys2Proof.Machine.execLoadReturn c s
  | .stG c w => Sys2Proof.Machine.execStG c w s
  | .amo c w => Sys2Proof.Machine.execAmo c w s
  | .waitht c w => Sys2Proof.Machine.execWaitht c w s
  | .waithtRelease c => Sys2Proof.Machine.execWaithtRelease c s
  | .barw c w => Sys2Proof.Machine.execBarw c w s
  | .barwRelease sec e => Sys2Proof.Machine.execBarwRelease sec e s
  | .htrd c w => Sys2Proof.Machine.execHtrd c w s
  | .htrdH c w => Sys2Proof.Machine.execHtrdH c w s
  | .statRd c w => Sys2Proof.Machine.execStatRd c w s
  | .statClr c w => Sys2Proof.Machine.execStatClr c w s
  | .passStart c par => Sys2Proof.Machine.execPassStart c par s
  | .productEntry c dryRows dryCols par => Sys2Proof.Machine.execProductEntry c dryRows dryCols par s
  | .overflowRepeat c => Sys2Proof.Machine.execOverflowRepeat c s
  | .deferredSwap c => Sys2Proof.Machine.execDeferredSwap c s
  | .drainRead c held par => Sys2Proof.Machine.execDrainRead c held par s
  | .drainOutput c => Sys2Proof.Machine.execDrainOutput c s
  | .parityRestart c => Sys2Proof.Machine.execParityRestart c s
  | .tileRestore c => Sys2Proof.Machine.execTileRestore c s
  | .coreOutOfService c => Sys2Proof.Machine.execCoreOutOfService c s
  | .workItemStart c item => Sys2Proof.Machine.execWorkItemStart c item s
  | .preemptRequest c => Sys2Proof.Machine.execPreemptRequest c s
  | .preemptBoundary c => Sys2Proof.Machine.execPreemptBoundary c s
  | .preemptDiscard c => Sys2Proof.Machine.execPreemptDiscard c s
  | .streamPreemptPark cl serial => Sys2Proof.Machine.execStreamPreemptPark cl serial s
  | .contextSaveDone c => Sys2Proof.Machine.execContextSaveDone c s
  | .lineDelivery cl serial => Sys2Proof.Machine.execLineDelivery cl serial s
  | .streamEnd cl serial => Sys2Proof.Machine.execStreamEnd cl serial s
  | .parkedStreamSpill cl serial => Sys2Proof.Machine.execParkedStreamSpill cl serial s
  | .parkLimitExpiry cl serial => Sys2Proof.Machine.execParkLimitExpiry cl serial s
  | .spillRotation cl => Sys2Proof.Machine.execSpillRotation cl s
  | .spillPromotion cl => Sys2Proof.Machine.execSpillPromotion cl s
  | .multicastReceiveTimeout cl serial => Sys2Proof.Machine.execMulticastReceiveTimeout cl serial s
  | .multicastSendTimeout cl serial => Sys2Proof.Machine.execMulticastSendTimeout cl serial s
  | .detachedCopyEnd cl serial => Sys2Proof.Machine.execDetachedCopyEnd cl serial s
  | .writeBufferSend cl line => Sys2Proof.Machine.execWriteBufferSend cl line s
  | .homeWritePerform cl line => Sys2Proof.Machine.execHomeWritePerform cl line s
  | .homeAtomic c => Sys2Proof.Machine.execHomeAtomic c s
  | .memoryRequestService u ecc => Sys2Proof.Machine.execMemoryRequestService u ecc s
  | .starvationGuard u => Sys2Proof.Machine.execStarvationGuard u s
  | .patrolScrub line ecc newer => Sys2Proof.Machine.execPatrolScrub line ecc newer s
  | .hbmRowRepair stack pc bank row => Sys2Proof.Machine.execHbmRowRepair stack pc bank row s
  | .pseudoChannelCopyEnd stack => Sys2Proof.Machine.execPseudoChannelCopyEnd stack s
  | .walkStart r => Sys2Proof.Machine.execWalkStart r s
  | .walkEnd d tenant page => Sys2Proof.Machine.execWalkEnd d tenant page s
  | .accessParkLimit c => Sys2Proof.Machine.execAccessParkLimit c s
  | .moultStart d job => Sys2Proof.Machine.execMoultStart d job s
  | .moultScore d => Sys2Proof.Machine.execMoultScore d s
  | .moultSieve d => Sys2Proof.Machine.execMoultSieve d s
  | .moultReduce job peers => Sys2Proof.Machine.execMoultReduce job peers s
  | .moultDropGrow d => Sys2Proof.Machine.execMoultDropGrow d s
  | .moultRechoose d => Sys2Proof.Machine.execMoultRechoose d s
  | .moultRebuild d => Sys2Proof.Machine.execMoultRebuild d s
  | .moultCandidates d => Sys2Proof.Machine.execMoultCandidates d s
  | .moultVote job => Sys2Proof.Machine.execMoultVote job s
  | .moultVoteResult job peers => Sys2Proof.Machine.execMoultVoteResult job peers s
  | .moultCommit job => Sys2Proof.Machine.execMoultCommit job s
  | .moultTimeout job => Sys2Proof.Machine.execMoultTimeout job s
  | .stagedRepairApply entry => Sys2Proof.Machine.execStagedRepairApply entry s
  | .upstreamSwitch => Sys2Proof.Machine.execUpstreamSwitch s
  | .holdoverEntry => Sys2Proof.Machine.execHoldoverEntry s
  | .holdoverExit => Sys2Proof.Machine.execHoldoverExit s
  | .timeFlitSend port => Sys2Proof.Machine.execTimeFlitSend port s
  | .timeFlitReceive port f => Sys2Proof.Machine.execTimeFlitReceive port f s
  | .partnerOutClear port => Sys2Proof.Machine.execPartnerOutClear port s
  | .slewComplete => Sys2Proof.Machine.execSlewComplete s
  | .delayValidExpiry port => Sys2Proof.Machine.execDelayValidExpiry port s
  | .enterOut => Sys2Proof.Machine.execEnterOut s
  | .enterTrack => Sys2Proof.Machine.execEnterTrack s
  | .enterLocked => Sys2Proof.Machine.execEnterLocked s
  | .ppsInEdge rising => Sys2Proof.Machine.execPpsInEdge rising s
  | .ppsLost => Sys2Proof.Machine.execPpsLost s
  | .ppsOutEdge rising => Sys2Proof.Machine.execPpsOutEdge rising s
  | .htCfgWrite m v => Sys2Proof.Machine.execHtCfgWrite m v s
  | .htNowRead m => Sys2Proof.Machine.execHtNowRead m s
  | .htEnd => Sys2Proof.Machine.execHtEnd s
  | .barrierInstantRelease e => Sys2Proof.Machine.execBarrierInstantRelease e s
  | .laneLockLoss port lane => Sys2Proof.Machine.execLaneLockLoss port lane s
  | .laneSwap port transmit => Sys2Proof.Machine.execLaneSwap port transmit s
  | .scheduledSend port frame slot => Sys2Proof.Machine.execScheduledSend port frame slot s
  | .scheduledReceive port frame slot a => Sys2Proof.Machine.execScheduledReceive port frame slot a s
  | .forwardSend port frame slot => Sys2Proof.Machine.execForwardSend port frame slot s
  | .repairRequestSend port => Sys2Proof.Machine.execRepairRequestSend port s
  | .repairRequestReceive port a => Sys2Proof.Machine.execRepairRequestReceive port a s
  | .repairFlitSend port frame slot => Sys2Proof.Machine.execRepairFlitSend port frame slot s
  | .repairFlitReceive port a => Sys2Proof.Machine.execRepairFlitReceive port a s
  | .flitLoss port frame slot => Sys2Proof.Machine.execFlitLoss port frame slot s
  | .partnerAbsent port => Sys2Proof.Machine.execPartnerAbsent port s
  | .absentClear port => Sys2Proof.Machine.execAbsentClear port s
  | .openMessageReceive port a => Sys2Proof.Machine.execOpenMessageReceive port a s
  | .openSlotGrant port frame slot => Sys2Proof.Machine.execOpenSlotGrant port frame slot s
  | .sealedAcknowledgement g => Sys2Proof.Machine.execSealedAcknowledgement g s
  | .sealedResendRequest g chunk resend => Sys2Proof.Machine.execSealedResendRequest g chunk resend s
  | .scheduleLoadDone port => Sys2Proof.Machine.execScheduleLoadDone port s
  | .bankSwap port => Sys2Proof.Machine.execBankSwap port s
  | .holdLimit g => Sys2Proof.Machine.execHoldLimit g s
  | .lateContributionReady g seg => Sys2Proof.Machine.execLateContributionReady g seg s
  | .stepDeadline g => Sys2Proof.Machine.execStepDeadline g s
  | .stepEnd g => Sys2Proof.Machine.execStepEnd g s
  | .exactLimit g => Sys2Proof.Machine.execExactLimit g s
  | .collectiveStepBoundary g => Sys2Proof.Machine.execCollectiveStepBoundary g s
  | .modeVote g => Sys2Proof.Machine.execModeVote g s
  | .modeVoteResult g peers => Sys2Proof.Machine.execModeVoteResult g peers s
  | .modeCommit g => Sys2Proof.Machine.execModeCommit g s
  | .modeTimeout g => Sys2Proof.Machine.execModeTimeout g s
  | .digestClose job => Sys2Proof.Machine.execDigestClose job s
  | .chrysalisCopyEnd job => Sys2Proof.Machine.execChrysalisCopyEnd job s
  | .eyeStamp d => Sys2Proof.Machine.execEyeStamp d s
  | .eyeFreeze d => Sys2Proof.Machine.execEyeFreeze d s
  | .evtEdge pin rising => Sys2Proof.Machine.execEvtEdge pin rising s
  | .eyeMarkWrite m v => Sys2Proof.Machine.execEyeMarkWrite m v s
  | .eyeCtlWrite m d v => Sys2Proof.Machine.execEyeCtlWrite m d v s
  | .doorbell m ring v => Sys2Proof.Machine.execDoorbell m ring v s
  | .cmdRtailWrite m ring v => Sys2Proof.Machine.execCmdRtailWrite m ring v s
  | .cmdRingEnable m ring v => Sys2Proof.Machine.execCmdRingEnable m ring v s
  | .packetRead ring => Sys2Proof.Machine.execPacketRead ring s
  | .managementDatagram mac udp bytes => Sys2Proof.Machine.execManagementDatagram mac udp bytes s
  | .queueAging p => Sys2Proof.Machine.execQueueAging p s
  | .deviceNop p => Sys2Proof.Machine.execDeviceNop p s
  | .deviceQuery p => Sys2Proof.Machine.execDeviceQuery p s
  | .deviceAttest p => Sys2Proof.Machine.execDeviceAttest p s
  | .deviceCancel p => Sys2Proof.Machine.execDeviceCancel p s
  | .deviceConfig p => Sys2Proof.Machine.execDeviceConfig p s
  | .deviceResetCold p => Sys2Proof.Machine.execDeviceResetCold p s
  | .deviceResetWarm p => Sys2Proof.Machine.execDeviceResetWarm p s
  | .deviceResetCompute p => Sys2Proof.Machine.execDeviceResetCompute p s
  | .deviceHealth p => Sys2Proof.Machine.execDeviceHealth p s
  | .tenantBind p => Sys2Proof.Machine.execTenantBind p s
  | .tenantUnbind p => Sys2Proof.Machine.execTenantUnbind p s
  | .tenantGuard p => Sys2Proof.Machine.execTenantGuard p s
  | .tenantQuery p => Sys2Proof.Machine.execTenantQuery p s
  | .programLoad p => Sys2Proof.Machine.execProgramLoad p s
  | .programLaunch p => Sys2Proof.Machine.execProgramLaunch p s
  | .programMode p => Sys2Proof.Machine.execProgramMode p s
  | .programPreempt p => Sys2Proof.Machine.execProgramPreempt p s
  | .programResume p => Sys2Proof.Machine.execProgramResume p s
  | .programStop p => Sys2Proof.Machine.execProgramStop p s
  | .memoryPlace p => Sys2Proof.Machine.execMemoryPlace p s
  | .memoryResume p => Sys2Proof.Machine.execMemoryResume p s
  | .memoryEnd p => Sys2Proof.Machine.execMemoryEnd p s
  | .memoryInval p => Sys2Proof.Machine.execMemoryInval p s
  | .memoryStreamResume p => Sys2Proof.Machine.execMemoryStreamResume p s
  | .memoryStreamEnd p => Sys2Proof.Machine.execMemoryStreamEnd p s
  | .memoryTensor p => Sys2Proof.Machine.execMemoryTensor p s
  | .memoryRelease p => Sys2Proof.Machine.execMemoryRelease p s
  | .hallTime p => Sys2Proof.Machine.execHallTime p s
  | .hallBarrierClaim p => Sys2Proof.Machine.execHallBarrierClaim p s
  | .hallBarrierArm p => Sys2Proof.Machine.execHallBarrierArm p s
  | .hallBarrierDisarm p => Sys2Proof.Machine.execHallBarrierDisarm p s
  | .hallBarrierRelease p => Sys2Proof.Machine.execHallBarrierRelease p s
  | .hallBarrierQuery p => Sys2Proof.Machine.execHallBarrierQuery p s
  | .hallSched p => Sys2Proof.Machine.execHallSched p s
  | .hallChannelSeal p => Sys2Proof.Machine.execHallChannelSeal p s
  | .hallChannelUnseal p => Sys2Proof.Machine.execHallChannelUnseal p s
  | .hallRoute p => Sys2Proof.Machine.execHallRoute p s
  | .hallSend p => Sys2Proof.Machine.execHallSend p s
  | .hallCancel p => Sys2Proof.Machine.execHallCancel p s
  | .collectiveDefine p => Sys2Proof.Machine.execCollectiveDefine p s
  | .collectiveFree p => Sys2Proof.Machine.execCollectiveFree p s
  | .collectiveOp p => Sys2Proof.Machine.execCollectiveOp p s
  | .collectiveQuery p => Sys2Proof.Machine.execCollectiveQuery p s
  | .instarPlan p => Sys2Proof.Machine.execInstarPlan p s
  | .instarMoult p => Sys2Proof.Machine.execInstarMoult p s
  | .instarQuery p => Sys2Proof.Machine.execInstarQuery p s
  | .chrysalisTake p => Sys2Proof.Machine.execChrysalisTake p s
  | .chrysalisShip p => Sys2Proof.Machine.execChrysalisShip p s
  | .chrysalisVerify p => Sys2Proof.Machine.execChrysalisVerify p s
  | .chrysalisLoad p => Sys2Proof.Machine.execChrysalisLoad p s
  | .digestRing p => Sys2Proof.Machine.execDigestRing p s
  | .digestRegion p => Sys2Proof.Machine.execDigestRegion p s
  | .powerQuery p => Sys2Proof.Machine.execPowerQuery p s
  | .powerLimit p => Sys2Proof.Machine.execPowerLimit p s
  | .repairQuery p => Sys2Proof.Machine.execRepairQuery p s
  | .repairApply p => Sys2Proof.Machine.execRepairApply p s
  | .repairFuseRevoke p => Sys2Proof.Machine.execRepairFuseRevoke p s
  | .repairFuseRollback p => Sys2Proof.Machine.execRepairFuseRollback p s
  | .eyespotConfig p => Sys2Proof.Machine.execEyespotConfig p s
  | .eyespotRead p => Sys2Proof.Machine.execEyespotRead p s
  | .eyespotTrigger p => Sys2Proof.Machine.execEyespotTrigger p s
  | .debugReg p => Sys2Proof.Machine.execDebugReg p s
  | .debugServiceHold p => Sys2Proof.Machine.execDebugServiceHold p s
  | .debugServiceRelease p => Sys2Proof.Machine.execDebugServiceRelease p s
  | .debugScratch p => Sys2Proof.Machine.execDebugScratch p s
  | .registerWrite m offset v => Sys2Proof.Machine.execRegisterWrite m offset v s
  | .inputLoss inputB => Sys2Proof.Machine.execInputLoss inputB s
  | .supplySwitchOver => Sys2Proof.Machine.execSupplySwitchOver s
  | .prefWrite m v => Sys2Proof.Machine.execPrefWrite m v s
  | .inputRestore inputB => Sys2Proof.Machine.execInputRestore inputB s
  | .powerLossReset => Sys2Proof.Machine.execPowerLossReset s
  | .powerOnReset pos cool => Sys2Proof.Machine.execPowerOnReset pos cool s
  | .operatingPointChange sec => Sys2Proof.Machine.execOperatingPointChange sec s
  | .droop sec => Sys2Proof.Machine.execDroop sec s
  | .droopDecay sec => Sys2Proof.Machine.execDroopDecay sec s
  | .thermalControl sec tj => Sys2Proof.Machine.execThermalControl sec tj s
  | .powerControl watts => Sys2Proof.Machine.execPowerControl watts s
  | .thermalTrip sec tj => Sys2Proof.Machine.execThermalTrip sec tj s
  | .clusterGate cl => Sys2Proof.Machine.execClusterGate cl s
  | .clusterUngate cl => Sys2Proof.Machine.execClusterUngate cl s
  | .sectorSleep sec => Sys2Proof.Machine.execSectorSleep sec s
  | .sectorWake sec => Sys2Proof.Machine.execSectorWake sec s
  | .bootStageEnd r => Sys2Proof.Machine.execBootStageEnd r s
  | .coreReset c => Sys2Proof.Machine.execCoreReset c s
  | .regulatorPhaseFail rail phase => Sys2Proof.Machine.execRegulatorPhaseFail rail phase s
  | .ageingScan cl margin pair => Sys2Proof.Machine.execAgeingScan cl margin pair s
  | .managementPairFailure lockstep => Sys2Proof.Machine.execManagementPairFailure lockstep s
  | .sparePairReady => Sys2Proof.Machine.execSparePairReady s
  | .cocoonTakeover => Sys2Proof.Machine.execCocoonTakeover s
  | .smbusReadBoot => Sys2Proof.Machine.execSmbusReadBoot s
  | .smbusReadState => Sys2Proof.Machine.execSmbusReadState s
  | .smbusColdReset value => Sys2Proof.Machine.execSmbusColdReset value s
  | .jtagBypass => Sys2Proof.Machine.execJtagBypass s
  | .jtagIdcode => Sys2Proof.Machine.execJtagIdcode s
  | .jtagSamplePreload => Sys2Proof.Machine.execJtagSamplePreload s
  | .jtagExtest => Sys2Proof.Machine.execJtagExtest s
  | .thermalTripRecovery tjMax => Sys2Proof.Machine.execThermalTripRecovery tjMax s
  | .referenceClockLoss => Sys2Proof.Machine.execReferenceClockLoss s
  | .referenceClockReturn => Sys2Proof.Machine.execReferenceClockReturn s
  | .applicationCoreAccess a x => Sys2Proof.Machine.execApplicationCoreAccess a x s
  | .repairTrigger kind location => Sys2Proof.Machine.execRepairTrigger kind location s
  | .chrysalisShipEnd area status => Sys2Proof.Machine.execChrysalisShipEnd area status s

end Sys2Proof.Machine
end

