-- ==== Sys2Proof/Machine/Tick.lean ====
section
/-! DEFINITION. The tick (log 3): what happens when no command waits. 10 ns of the model's clock pass: hall time and the time since
the last reset advance, the voltages of the inputs are measured (log 40), a write of HT_CFG that waits takes effect at a frame boundary (R380), and the cores in use count cycles. -/
namespace Sys2Proof

/-- Cycles that a sector's clock has completed at an instant of the model's clock: its point in 25 MHz units, its period stretched by
(16 + s) / 16 (R510). -/
def Sector.cyclesAt (s : Sector) (now : Nat) : Nat := now * s.clock.toNat * 16 / (2560 * (16 + s.stretch.toNat))

namespace Machine

/-- The tick in 1/64 ns. -/
def tickUnits : Nat := 640

/-- The cores whose clocks run count the cycles of a tick (R162). -/
def tickCores (c : Chip) (now : Nat) : Tbl Core :=
  tblMap c.cores (fun i (k : Core) =>
    let id : CoreId := BitVec.ofNat 20 i
    if c.coreRuns id then
      let s := c.sector (sectorOf id)
      { k with cycles := k.cycles + BitVec.ofNat 64 (s.cyclesAt (now + tickUnits) - s.cyclesAt now) }
    else k)

/-- 10 ns pass. -/
def State.tick (s : State) : State :=
  let t := s.time.advance tickUnits
  { s with
    time := t
    htRegs := if frameOf s.time.ht.toNat == frameOf t.ht.toNat then s.htRegs else s.htRegs.boundary
    now := s.now + tickUnits
    chip := { s.chip with
      cores := tickCores s.chip s.now
      sys := { s.chip.sys with time := s.chip.sys.time + tickUnits }
      power := { s.chip.power with va := Config.inputVolts false s.now, vb := Config.inputVolts true s.now } } }

end Machine

end Sys2Proof
end

