-- ==== Sys2Proof/Safety.lean ====
section
/-! DEFINITION. What a run keeps: the invariant of hall time's registers, and what a safe step is. -/
namespace Sys2Proof.Machine

/-- The fields of HT_CFG stay in their ranges: a DOMAIN above 127 is never taken (R380, Table 15.2). -/
def CfgInv (c : HtCfg) : Prop := c.domain.toNat ≤ 127

/-- HT_CFG, the write of it that waits, and the offsets of HT_PPS keep their ranges (Tables 15.2 and 15.8). -/
def HtInv (r : HtRegs) : Prop :=
  CfgInv r.cfg ∧ (∀ c, r.waiting = some c → CfgInv c) ∧ r.pps.outOffset.toNat < 1000000000 ∧ r.pps.inOffset.toNat < 1000000000

/-- The invariant that every step keeps. -/
def Inv (s : State) : Prop := HtInv s.htRegs

/-- A step goes on. -/
def StepsOn (s : State) : Prop := ∃ t, step s = .next t

end Sys2Proof.Machine
end

