-- ==== Sys2Proof/Certificates/Slice0/Obligations.lean ====
section
/-! DEFINITION. The statements about the model. `Sys2Proof.Claims` holds the words they are put in. -/
namespace Sys2Proof.Claims

open Sys2Proof.Machine

/-- An instruction word whose fields are all 0. -/
def w0 : Fields := ⟨0, 0, 0, 0, 0, 0, 0, 0⟩

/-- The state with core `id` replaced by `k`. -/
def after (s : State) (id : CoreId) (k : Core) : State := { s with chip := s.chip.setCore id k }

/-- The core's clocks run and it can issue (R145, R516, R517). -/
abbrev CanIssue (s : State) (id : CoreId) : Prop := s.chip.coreRuns id = true ∧ (s.chip.core id).canIssue = true

/-- It can issue, and its next index lies in the store (R148). -/
abbrev Ready (s : State) (id : CoreId) : Prop := CanIssue s id ∧ (s.chip.core id).pc ≠ 2047

/-- The state after an instruction of core `id` has had its effect `f` on the core and the core has gone on to the next index. -/
def issued (s : State) (id : CoreId) (f : Core → Core) : State :=
  after s id { f (s.chip.core id) with pc := (s.chip.core id).pc + 1 }

/-- The state after it has had its effect and gone to another index. -/
def jumped (s : State) (id : CoreId) (f : Core → Core) (target : BitVec 11) : State :=
  after s id { f (s.chip.core id) with pc := target }

/-- The core after an exception with a cause and a code: EXC takes them with the index of the instruction unless it holds a cause,
and the core issues nothing more (R163, R164). -/
def excepted (k : Core) (cause code : Byte) : Core :=
  if k.excCause = 0 then { k with excCause := cause, excCode := code, excIndex := k.pc, halted := true } else { k with halted := true }

/-- `t` is `s` after an exception of core `id`: the core stands as R163 and R164 say, and nothing else has changed but the
queues of eyespot units that stamp it (R473). -/
def Raised (s t : State) (id : CoreId) (cause code : Byte) : Prop :=
  ∃ e : EyeState, t = { s with chip := { s.chip.setCore id (excepted (s.chip.core id) cause code) with eye := e } }

end Sys2Proof.Claims

open Sys2Proof Sys2Proof.Machine Sys2Proof.Claims

/-- A step with a command in front of the queue is the meaning of that command on the state with the rest of the queue. -/
def Sys2Proof.Claims.StepRunsFrontCommand : Prop :=
  ∀ (i : Instr) (rest : List Instr) (s : State), s.pending = i :: rest → step s = exec i { s with pending := rest }

/-- On an empty queue 10 ns of the model's clock pass (the model's choice, log 3): hall time advances, and no core's register,
program counter or memory, no memory of the chip, no tenant, job, ring or port changes. -/
def Sys2Proof.Claims.EmptyQueueTicks : Prop :=
  ∀ s : State, s.pending = [] → ∃ t, step s = .next t ∧ t.now = s.now + 640 ∧ t.time = s.time.advance 640 ∧ t.pending = [] ∧
    t.fresh = s.fresh ∧ t.chip.mem = s.chip.mem ∧ t.chip.tenants = s.chip.tenants ∧ t.chip.jobs = s.chip.jobs ∧
    t.chip.cmd = s.chip.cmd ∧ t.chip.fab = s.chip.fab ∧ t.chip.coll = s.chip.coll ∧ t.chip.clusters = s.chip.clusters ∧
    (∀ id : CoreId, (t.chip.core id).regs = (s.chip.core id).regs ∧ (t.chip.core id).pc = (s.chip.core id).pc ∧
      (t.chip.core id).scratch = (s.chip.core id).scratch ∧ (t.chip.core id).arr = (s.chip.core id).arr)

/-- Whatever the state, every command goes on to a next state, which leaves the commands that wait as they were and never takes a free
value back. -/
def Obligations.EveryCommandGoesOn : Prop :=
  ∀ (i : Instr) (s : State), ∃ t, exec i s = .next t ∧ t.pending = s.pending ∧ s.fresh ≤ t.fresh

/-- At reset DOMAIN and the offsets of HT_PPS lie in their ranges. -/
def Obligations.InvariantAtReset : Prop := Inv State.reset

/-- Every step keeps DOMAIN at or below 127, in HT_CFG and in a write of it that waits, and the offsets of HT_PPS below
10^9. -/
def Obligations.StepKeepsInvariant : Prop := ∀ s t : State, Inv s → step s = .next t → Inv t

/-- The register file (R144): S0 reads as zero and takes no write; a write of any other register is what that register reads as and
changes no other one, and nothing else of the core. -/
def Sys2Proof.Claims.RegisterFile : Prop :=
  ∀ (k : Core) (d r : BitVec 4) (v : W32),
    k.reg 0 = 0 ∧ (d ≠ 0 → (k.setReg d v).reg d = v) ∧ (r ≠ d → (k.setReg d v).reg r = k.reg r) ∧ k.setReg 0 v = k ∧
    { k.setReg d v with regs := k.regs } = k

/-- The scalar instructions of Table 06.3 that compute from two registers. -/
def Sys2Proof.Claims.ScalarArithmetic : Prop :=
  ∀ (s : State) (id : CoreId) (d a b : BitVec 4), Ready s id →
    let w := { w0 with d := d, a := a, b := b }
    let x := (s.chip.core id).reg a
    let y := (s.chip.core id).reg b
    let put (v : W32) : Host.Outcome State Fault Refusal := .next (issued s id (fun k => k.setReg d v))
    exec (.add id w) s = put (BitVec.ofNat 32 (x.toNat + y.toNat)) ∧
    exec (.sub id w) s = put (BitVec.ofInt 32 ((x.toNat : Int) - y.toNat)) ∧
    exec (.and id w) s = put (x &&& y) ∧
    exec (.or id w) s = put (x ||| y) ∧
    exec (.xor id w) s = put (x ^^^ y) ∧
    exec (.shl id w) s = put (BitVec.ofNat 32 (x.toNat * 2 ^ (y.toNat % 32))) ∧
    exec (.shr id w) s = put (BitVec.ofNat 32 (x.toNat / 2 ^ (y.toNat % 32))) ∧
    exec (.sra id w) s = put (BitVec.ofInt 32 (x.toInt / 2 ^ (y.toNat % 32))) ∧
    exec (.mul id w) s = put (BitVec.ofNat 32 (x.toNat * y.toNat)) ∧
    exec (.min id w) s = put (BitVec.ofInt 32 (min x.toInt y.toInt)) ∧
    exec (.max id w) s = put (BitVec.ofInt 32 (max x.toInt y.toInt))

/-- The scalar instructions of Table 06.3 with an immediate, and `NOP`. -/
def Sys2Proof.Claims.ScalarImmediate : Prop :=
  ∀ (s : State) (id : CoreId) (d a : BitVec 4) (imm : BitVec 24), Ready s id →
    exec (.nop id w0) s = .next (issued s id (fun k => k)) ∧
    exec (.addi id { w0 with d := d, a := a, imm := imm }) s = .next (issued s id (fun k =>
      k.setReg d (BitVec.ofInt 32 ((k.reg a).toInt + imm.toInt)))) ∧
    exec (.li id { w0 with d := d, imm := imm }) s = .next (issued s id (fun k => k.setReg d (BitVec.ofInt 32 imm.toInt))) ∧
    (imm.toNat < 65536 → exec (.lih id { w0 with d := d, imm := imm }) s = .next (issued s id (fun k =>
      k.setReg d (BitVec.ofNat 32 (imm.toNat * 65536 + (k.reg d).toNat % 65536)))))

/-- `LD.S` and `ST.S` (Table 06.3): the word at s[a] + imm, when it lies in the scratchpad, is aligned, and no pass or drain that
has not ended writes it (or, for a store, reads it). A store changes the 4 bytes and no other. -/
def Sys2Proof.Claims.ScalarMemory : Prop :=
  ∀ (s : State) (id : CoreId) (d a b : BitVec 4) (imm : BitVec 24), Ready s id →
    let k := s.chip.core id
    let addr := (k.regN a : Int) + imm.toInt
    k.regN a < 4096 → 0 ≤ addr → addr + 4 ≤ 4096 → addr % 4 = 0 →
    (k.mustWait [(addr.toNat, 4)] [] = false →
      exec (.ldS id { w0 with d := d, a := a, imm := imm }) s =
        .next (issued s id (fun k => k.setReg d (BitVec.ofNat 32 (k.scratch.readLe addr.toNat 4))))) ∧
    (k.mustWait [] [(addr.toNat, 4)] = false →
      exec (.stS id { w0 with a := a, b := b, imm := imm }) s =
        .next (issued s id (fun k => { k with scratch := k.scratch.writeLe addr.toNat 4 (k.regN b) })) ∧
      (k.scratch.writeLe addr.toNat 4 (k.regN b)).readLe addr.toNat 4 = k.regN b ∧
      ∀ x : Nat, x < addr.toNat ∨ addr.toNat + 4 ≤ x → (k.scratch.writeLe addr.toNat 4 (k.regN b)).get x = k.scratch.get x)

/-- Branches, jumps and `LOOP` (Table 06.3, R148): where the next index lies in the store, it is the next instruction's, and no
register changes but the one that the instruction writes. -/
def Sys2Proof.Claims.Branches : Prop :=
  ∀ (s : State) (id : CoreId) (d a b : BitVec 4) (imm : BitVec 24) (target : BitVec 11), CanIssue s id →
    let k := s.chip.core id
    let w := { w0 with a := a, b := b, imm := imm }
    let next : Int := k.pc.toNat + 1
    let there : Int := k.pc.toNat + imm.toInt
    let goes (c : Prop) : Prop := (target.toNat : Int) = there ∧ c ∨ (target.toNat : Int) = next ∧ ¬c
    let x := k.reg a
    let y := k.reg b
    let arrived : Host.Outcome State Fault Refusal := .next (jumped s id (fun k => k) target)
    (goes (x = y) → exec (.beq id w) s = arrived) ∧
    (goes (x ≠ y) → exec (.bne id w) s = arrived) ∧
    (goes (x.toInt < y.toInt) → exec (.blt id w) s = arrived) ∧
    (goes (y.toInt ≤ x.toInt) → exec (.bge id w) s = arrived) ∧
    (goes (x.toNat < y.toNat) → exec (.bltu id w) s = arrived) ∧
    (goes (y.toNat ≤ x.toNat) → exec (.bgeu id w) s = arrived) ∧
    (goes (x - 1 ≠ 0) → exec (.loop id { w0 with a := a, imm := imm }) s = .next (jumped s id (fun k => k.setReg a (x - 1)) target)) ∧
    ((target.toNat : Int) = there → exec (.jal id { w0 with d := d, imm := imm }) s =
      .next (jumped s id (fun k => k.setReg d (BitVec.ofInt 32 next)) target)) ∧
    (target.toNat = x.toNat → exec (.jr id { w0 with a := a }) s = arrived)

/-- An index beyond the 2,048 of the store raises instruction-bounds, cause 0x0E, at the instruction that steps or goes there, and no
register is written (R148, R163). -/
def Sys2Proof.Claims.InstructionBounds : Prop :=
  ∀ (s : State) (id : CoreId) (d a b : BitVec 4) (imm : BitVec 24), CanIssue s id →
    let k := s.chip.core id
    let there : Int := k.pc.toNat + imm.toInt
    let outside (i : Instr) : Prop := ∃ t, exec i s = .next t ∧ Raised s t id 0x0E 0
    (k.pc = 2047 → outside (.nop id w0) ∧ outside (.add id { w0 with d := d, a := a, b := b }) ∧
      outside (.li id { w0 with d := d, imm := imm })) ∧
    (there < 0 ∨ 2047 < there → outside (.jal id { w0 with d := d, imm := imm }) ∧
      (k.reg a = k.reg b → outside (.beq id { w0 with a := a, b := b, imm := imm })) ∧
      (k.reg a - 1 ≠ 0 → outside (.loop id { w0 with a := a, imm := imm }))) ∧
    (2047 < (k.reg a).toNat → outside (.jr id { w0 with a := a }))

/-- `TRAP` raises the software trap, cause 0x10, with its code (R163). -/
def Sys2Proof.Claims.SoftwareTrap : Prop :=
  ∀ (s : State) (id : CoreId) (imm : BitVec 24), CanIssue s id → imm.toNat < 256 →
    ∃ t, exec (.trap id { w0 with imm := imm }) s = .next t ∧ Raised s t id 0x10 (imm.setWidth 8)

/-- A field that an instruction does not use and that is not 0 raises illegal instruction, cause 0x01, and nothing else happens
(R143, R163): for every instruction of two registers, with an immediate or without a field. -/
def Sys2Proof.Claims.UnusedFields : Prop :=
  ∀ (s : State) (id : CoreId) (w : Fields), CanIssue s id →
    let illegal (i : Instr) : Prop := ∃ t, exec i s = .next t ∧ Raised s t id 0x01 0
    let used (d a b imm : Bool) : Prop := ((d = true ∨ w.d = 0) ∧ (a = true ∨ w.a = 0) ∧ (b = true ∨ w.b = 0) ∧ w.c = 0 ∧ w.f1 = 0 ∧
      w.f2 = 0 ∧ (imm = true ∨ w.imm = 0) ∧ w.mod = 0)
    (¬used true true true false → illegal (.add id w) ∧ illegal (.sub id w) ∧ illegal (.and id w) ∧ illegal (.or id w) ∧
      illegal (.xor id w) ∧ illegal (.shl id w) ∧ illegal (.shr id w) ∧ illegal (.sra id w) ∧ illegal (.mul id w) ∧
      illegal (.min id w) ∧ illegal (.max id w)) ∧
    (¬used true true false true → illegal (.addi id w)) ∧ (¬used true false false true → illegal (.li id w)) ∧
    (¬used false true true true → illegal (.beq id w) ∧ illegal (.bne id w) ∧ illegal (.blt id w) ∧ illegal (.bge id w) ∧
      illegal (.bltu id w) ∧ illegal (.bgeu id w)) ∧
    (¬used true false false true → illegal (.jal id w)) ∧ (¬used false true false false → illegal (.jr id w)) ∧
    (¬used false true false true → illegal (.loop id w)) ∧ (¬used false false false false → illegal (.nop id w))

/-- `BSEL` (R172): the first bucket of the dimension at or above the size goes to s[d] and its index to s[b]; without one, or in a
dimension that the image does not have, cause 0x09 and no register written. -/
def Obligations.BucketSelection : Prop :=
  ∀ (s : State) (id : CoreId) (d a b : BitVec 4) (n : Fin 4) (j : JobId) (job : Job),
    let w := { w0 with d := d, a := a, b := b, imm := BitVec.ofNat 24 n.val }
    let v := ((s.chip.core id).reg a).toNat
    let miss : Prop := ∃ t, exec (.bsel id w) s = .next t ∧ Raised s t id 0x09 0
    (s.chip.core id).job = some j → s.chip.job j = some job →
    (∀ dim, job.image.dims[n.val]? = some dim →
      (∀ i : Fin dim.sizes.length, Ready s id → v ≤ dim.sizes[i].toNat → (∀ m : Fin dim.sizes.length, m < i → dim.sizes[m].toNat < v) →
        exec (.bsel id w) s = .next (issued s id (fun k => (k.setReg d dim.sizes[i]).setReg b (BitVec.ofNat 32 i.val)))) ∧
      (CanIssue s id → (∀ i : Fin dim.sizes.length, dim.sizes[i].toNat < v) → miss)) ∧
    (CanIssue s id → job.image.dims.length ≤ n.val → miss)

/-- Status words (R162, R11, Tables 03.8, 04.5, 06.13 to 06.15): the value that `STAT.RD` returns for each word, the latch of word 9
by a read of word 8, and the bits that `STAT.CLR` clears. -/
def Sys2Proof.Claims.StatusWords : Prop :=
  ∀ (s : State) (id : CoreId) (d a : BitVec 4), Ready s id →
    let rd (n : BitVec 24) (v : Core → W32) : Prop :=
      exec (.statRd id { w0 with d := d, imm := n }) s = .next (issued s id (fun k => k.setReg d (v k)))
    let clr (n : BitVec 24) (f : Core → W32 → Core) : Prop :=
      exec (.statClr id { w0 with a := a, imm := n }) s = .next (issued s id (fun k => f k (k.reg a)))
    rd 0 (fun k => k.cvt.setWidth 32) ∧
    rd 1 (fun k => BitVec.ofNat 32 (k.excCause.toNat + 256 * k.excCode.toNat + 65536 * k.excIndex.toNat)) ∧
    rd 2 (fun k => k.repeats) ∧ rd 3 (fun k => k.fallbacks) ∧
    rd 4 (fun k => BitVec.ofNat 32 (k.restarts.toNat + 65536 * k.restores.toNat)) ∧
    rd 5 (fun _ => BitVec.ofNat 32 id.toNat) ∧
    rd 7 (fun k => BitVec.ofNat 32 (k.exact.toNat + 2 * k.service.toNat)) ∧ rd 9 (fun k => k.cycleHi) ∧
    exec (.statRd id { w0 with d := d, imm := 8 }) s = .next (issued s id (fun k =>
      ({ k with cycleHi := BitVec.ofNat 32 (k.cycles.toNat / 2 ^ 32) }).setReg d (BitVec.ofNat 32 k.cycles.toNat))) ∧
    clr 0 (fun k m => { k with cvt := k.cvt &&& ~~~m.setWidth 4 }) ∧
    clr 1 (fun k m => { k with excCause := k.excCause &&& ~~~m.setWidth 8 }) ∧
    clr 2 (fun k m => { k with repeats := k.repeats &&& ~~~m }) ∧
    clr 3 (fun k m => { k with fallbacks := k.fallbacks &&& ~~~m }) ∧
    clr 4 (fun k m => { k with restarts := k.restarts &&& ~~~m.setWidth 16, restores := k.restores &&& ~~~m.extractLsb' 16 16 }) ∧
    clr 5 (fun k _ => k) ∧ clr 6 (fun k _ => k) ∧ clr 7 (fun k _ => k) ∧ clr 8 (fun k _ => k) ∧ clr 9 (fun k _ => k)

/-- `HTRD` and `HTRD.H` (R376): the low half of HT in ns with the upper half latched, and the latched half. -/
def Sys2Proof.Claims.HallTimeRead : Prop :=
  ∀ (s : State) (id : CoreId) (d : BitVec 4), Ready s id →
    let ns := s.time.ht.toNat / 64
    exec (.htrd id { w0 with d := d }) s = .next (issued s id (fun k =>
      ({ k with htHi := BitVec.ofNat 32 (ns / 2 ^ 32) }).setReg d (BitVec.ofNat 32 ns))) ∧
    exec (.htrdH id { w0 with d := d, mod := 1 }) s = .next (issued s id (fun k => k.setReg d k.htHi))

namespace Sys2Proof.Claims

/-- Fields, modifiers and count of a vector instruction are legal (R143, R156, R159, Tables 06.2 and 06.8): `u` are the fields in
use and `fnMask` the bits of FN in use. -/
structure VecLegal (k : Core) (w : Fields) (u : Used) (fnMask : Nat) : Prop where
  phase : k.phase ≠ .transfer
  fields : w.bad { u with imm := 0xF01FFF + 8192 * fnMask, mod := 0x3F } = false
  pop : vPop w = true → vTq w = true
  head : vTq w = true → w.a = 0 ∧ k.count w ≤ 16
  imm : vecN w ≤ 4096 ∧ (vecReg w ≠ 0 → vecN w = 0)
  count : k.count w ≤ 4096

/-- An operand range lies in the scratchpad (R144); an empty one lies anywhere. -/
abbrev Fits (r : Nat × Nat) : Prop := r.2 = 0 ∨ r.1 ≤ 4095 ∧ r.1 + r.2 ≤ 4096

/-- Two ranges share no byte. -/
abbrev Beside (r q : Nat × Nat) : Prop := r.1 + r.2 ≤ q.1 ∨ q.1 + q.2 ≤ r.1

/-- Source A is the queue head when `.TQ` asks for it: visible, and of the format F2 (R134, R158). -/
abbrev HeadIs (k : Core) (w : Fields) (h : Head) : Prop :=
  vTq w = false ∧ h = none ∨
  vTq w = true ∧ ∃ e rest, k.tq = e :: rest ∧ e.visible = true ∧ e.fmt.toNat = (fmt2 w).code ∧ h = some e

/-- Operand ranges of an element-wise instruction (R578): array A unless it is the head, array B unless it is scalar, the mask, and
the destination. -/
def rangeA (k : Core) (w : Fields) : Nat × Nat := (k.regN w.a, (fmt2 w).operandBytes (k.count w))
def rangeB (k : Core) (w : Fields) : Nat × Nat := (k.regN w.b, (fmt2 w).operandBytes (k.count w))
def rangeC (k : Core) (w : Fields) : Nat × Nat := (k.regN w.c, maskBytes (k.count w))
def rangeD (k : Core) (w : Fields) : Nat × Nat := (k.regN w.d, (fmt1 w).operandBytes (k.count w))

/-- The ranges that it reads. -/
def vecReads (k : Core) (w : Fields) (vf : VecForm) : List (Nat × Nat) :=
  (if vTq w then [] else [rangeA k w]) ++ (if vf.useB && !vS w then [rangeB k w] else []) ++
  (if vf.sel || w.c != 0 then [rangeC k w] else []) ++ (if vf.acc then [rangeD k w] else [])

/-- An element-wise instruction that can be carried out at once, with at least one element. -/
structure VecRuns (s : State) (id : CoreId) (w : Fields) (vf : VecForm) (h : Head) : Prop where
  ready : Ready s id
  legal : VecLegal (s.chip.core id) w { d := true, a := true, b := vf.useB, c := true, f1 := true, f2 := true } 0
  some : 0 < (s.chip.core id).count w
  formats : vf.arith = true → (fmt1 w).noArith = false ∧ (fmt2 w).noArith = false
  fits : ∀ r ∈ vecReads (s.chip.core id) w vf ++ [rangeD (s.chip.core id) w], Fits r
  aligned : vf.sel = true ∨ w.c ≠ 0 → (s.chip.core id).regN w.c % 4 = 0
  free : (s.chip.core id).mustWait (vecReads (s.chip.core id) w vf) [rangeD (s.chip.core id) w] = false
  head : HeadIs (s.chip.core id) w h

/-- No source shares a byte with the destination, but that array A or B may be the destination itself in the same format. -/
structure SourcesApart (k : Core) (w : Fields) (vf : VecForm) : Prop where
  a : vTq w = true ∨ Beside (rangeA k w) (rangeD k w) ∨ k.regN w.a = k.regN w.d ∧ fmt1 w = fmt2 w
  b : vf.useB = false ∨ vS w = true ∨ Beside (rangeB k w) (rangeD k w) ∨ k.regN w.b = k.regN w.d ∧ fmt1 w = fmt2 w
  c : vf.sel = false ∧ w.c = 0 ∨ Beside (rangeC k w) (rangeD k w)

/-- The roundings of an instruction's elements and the generators after their draws (R45, R47, R130). -/
def drawn (k : Core) (w : Fields) : List Rnd × Core := k.roundings w [fmt1 w, fmt2 w] (k.count w)

/-- What element `i` of the destination takes: the encoding of its value with its flags when it is active, 0 under `.Z`, else
nothing (R117, R121, R122). -/
def taken (k : Core) (w : Fields) (vf : VecForm) (val : Nat → FVal) (enc : FVal → Rnd → Nat × Flags) (i : Nat) : Option (Nat × Flags) :=
  if vf.sel || k.active w k.scratch i then some (enc (val i) (nth .rn (drawn k w).1 i)) else if vZ w then some (0, 0) else none

/-- `i`, which computes `val` element by element and encodes it by `enc`, completes: every element of the destination has what it
takes, or its old encoding; every byte outside the destination stays; CVT collects the flags; the generators have made their draws; the
head is popped under `.POP`; and nothing else of the machine changes but the program counter. -/
def ElementWise (s : State) (id : CoreId) (w : Fields) (vf : VecForm) (val : Nat → FVal) (enc : FVal → Rnd → Nat × Flags)
    (i : Instr) : Prop :=
  let k := s.chip.core id
  let got := taken k w vf val enc
  ∃ k' : Core, exec i s = .next (after s id k') ∧
    k' = { k with
      pc := k.pc + 1
      scratch := k'.scratch
      cvt := k.cvt ||| (List.range (k.count w)).foldl (fun (fl : Flags) j => match got j with
        | some x => fl ||| x.2
        | none => fl) 0
      lanes := (drawn k w).2.lanes
      tq := if vPop w then k.tq.drop 1 else k.tq } ∧
    (∀ j, j < k.count w → elemAt k'.scratch (fmt1 w) (k.regN w.d) j = match got j with
      | some x => x.1 % 2 ^ (fmt1 w).width
      | none => elemAt k.scratch (fmt1 w) (k.regN w.d) j) ∧
    ∀ a, a < k.regN w.d ∨ k.regN w.d + (fmt1 w).elemBytes (k.count w) ≤ a → k'.scratch.get a = k.scratch.get a

end Sys2Proof.Claims

/-- The element-wise arithmetic of Table 06.9, in every operand form: masks, `.Z`, `.S`, `.TQ`, `.SR` and `.SAT`, any count and any two
formats that vector arithmetic takes. -/
def Obligations.VectorArithmetic : Prop :=
  ∀ (s : State) (id : CoreId) (w : Fields) (h : Head),
    let k := s.chip.core id
    let n := k.count w
    let a := k.srcA w h n k.scratch
    let b := k.srcB w n k.scratch
    let d := operandVal k.scratch (fmt1 w) (k.regN w.d) n
    let two : VecForm := { useB := true }
    (VecRuns s id w two h → SourcesApart k w two →
      ElementWise s id w two (fun i => (a i).add (b i)) (roundInto w) (.vadd id w) ∧
      ElementWise s id w two (fun i => (a i).add (b i).neg) (roundInto w) (.vsub id w) ∧
      ElementWise s id w two (fun i => (a i).mul (b i)) (roundInto w) (.vmul id w) ∧
      ElementWise s id w two (fun i => (a i).min (b i)) (roundInto w) (.vmin id w) ∧
      ElementWise s id w two (fun i => (a i).max (b i)) (roundInto w) (.vmax id w)) ∧
    (VecRuns s id w {} h → SourcesApart k w {} →
      ElementWise s id w {} (fun i => (a i).abs) (roundInto w) (.vabs id w) ∧
      ElementWise s id w {} (fun i => (a i).neg) (roundInto w) (.vneg id w)) ∧
    (VecRuns s id w { two with acc := true } h → SourcesApart k w { two with acc := true } →
      ElementWise s id w { two with acc := true } (fun i => (a i).fma (b i) (d i)) (roundInto w) (.vfma id w)) ∧
    (VecRuns s id w { two with sel := true } h → SourcesApart k w { two with sel := true } →
      ElementWise s id w { two with sel := true } (fun i => if maskBit k.scratch (k.regN w.c) i then a i else b i) (roundInto w)
        (.vsel id w))

/-- The functions of Table 05.3 (R126, R128): the operand widened to FP32, the function's FP32 result converted once to F1; and `VCVT`
between the formats of whole bytes (R44 to R53). -/
def Sys2Proof.Claims.FunctionTables : Prop :=
  ∀ (s : State) (id : CoreId) (w : Fields) (h : Head),
    let k := s.chip.core id
    let a := k.srcA w h (k.count w) k.scratch
    let enc (f : Nat → Nat × Flags) (v : FVal) (r : Rnd) : Nat × Flags :=
      let y := f (if v.sig then 0x7F800001 else toF32 v)
      let z := roundInto w (f32 y.1) r
      (z.1, y.2 ||| z.2)
    let fun1 : VecForm := { func := true }
    let cvt : VecForm := { arith := false }
    (VecRuns s id w fun1 h → SourcesApart k w fun1 →
      ElementWise s id w fun1 a (enc (funcF32 .exp2)) (.vexp2 id w) ∧ ElementWise s id w fun1 a (enc (funcF32 .exp)) (.vexp id w) ∧
      ElementWise s id w fun1 a (enc (funcF32 .log2)) (.vlog2 id w) ∧ ElementWise s id w fun1 a (enc (funcF32 .log)) (.vlog id w) ∧
      ElementWise s id w fun1 a (enc (funcF32 .rcp)) (.vrcp id w) ∧ ElementWise s id w fun1 a (enc (funcF32 .rsqrt)) (.vrsqrt id w) ∧
      ElementWise s id w fun1 a (enc sqrtF32) (.vsqrt id w) ∧ ElementWise s id w fun1 a (enc (funcF32 .erf)) (.verf id w) ∧
      ElementWise s id w fun1 a (enc (funcF32 .tanh)) (.vtanh id w) ∧ ElementWise s id w fun1 a (enc (funcF32 .sigm)) (.vsigm id w) ∧
      ElementWise s id w fun1 a (enc (funcF32 .silu)) (.vsilu id w) ∧ ElementWise s id w fun1 a (enc (funcF32 .gelu)) (.vgelu id w)) ∧
    (VecRuns s id w cvt h → SourcesApart k w cvt → (fmt1 w).noArith = false →
      (vTq w = true ∨ Beside (rangeA k w) (rangeD k w)) →
      ElementWise s id w cvt a (fun v r => convert (fmt2 w) (fmt1 w) v r (vSat w)) (.vcvt id w))

/-- An element count of 0 makes a vector instruction do nothing but go on (R156). -/
def Sys2Proof.Claims.EmptyVector : Prop :=
  ∀ (s : State) (id : CoreId) (w : Fields), Ready s id →
    let k := s.chip.core id
    let still (i : Instr) : Prop := exec i s = .next (issued s id (fun k => k))
    let legal (useB : Bool) : Prop := VecLegal k w { d := true, a := true, b := useB, c := true, f1 := true, f2 := true } 0
    (k.count w = 0 → (w.c ≠ 0 → k.regN w.c % 4 = 0) → VecLegal k w { d := true, c := true } 0 → k.arr.passes = [] → k.arr.drains = [] →
      exec (.vpopc id w) s = .next (issued s id (fun k => k.setReg w.d 0))) ∧
    (k.count w = 0 → (w.c ≠ 0 → k.regN w.c % 4 = 0) → (fmt1 w).noArith = false → (fmt2 w).noArith = false →
    (legal true → still (.vadd id w) ∧ still (.vmul id w) ∧ still (.vfma id w) ∧ still (.vdrop id w)) ∧
    (legal false → still (.vabs id w) ∧ still (.vexp2 id w) ∧ still (.vcvt id w) ∧ (w.f1 = w.f2 → still (.vmov id w))))

namespace Sys2Proof.Claims

/-- A vector instruction over given ranges and masks that can be carried out at once (R121, R143 to R146, R156). -/
structure VecCan (s : State) (id : CoreId) (w : Fields) (u : Used) (fnMask : Nat) (reads writes : List (Nat × Nat))
    (masks : List Nat) : Prop where
  ready : Ready s id
  legal : VecLegal (s.chip.core id) w u fnMask
  some : 0 < (s.chip.core id).count w
  fits : ∀ r ∈ reads ++ writes, Fits r
  aligned : ∀ a ∈ masks, a % 4 = 0
  free : (s.chip.core id).mustWait reads writes = false

/-- Array A, unless the head takes its place, and the mask. -/
def sourceA (k : Core) (w : Fields) : List (Nat × Nat) := if vTq w then [] else [rangeA k w]
def maskOf (k : Core) (w : Fields) : List (Nat × Nat) := if w.c = 0 then [] else [rangeC k w]
def maskAt (k : Core) (w : Fields) : List Nat := if w.c = 0 then [] else [k.regN w.c]

/-- The active elements with their values of source A, in ascending index. -/
def actives (k : Core) (w : Fields) (h : Head) : List (Nat × FVal) :=
  ((List.range (k.count w)).filter (k.active w k.scratch)).map (fun i => (i, k.srcA w h (k.count w) k.scratch i))

/-- The core with the head popped under `.POP`. -/
def popped (w : Fields) (k : Core) : Core := { k with tq := if vPop w then k.tq.drop 1 else k.tq }

end Sys2Proof.Claims

/-- `VCMP` (R125): bit i of the mask is set when element i is active and compares, the tail bits are 0, and no byte outside the
mask changes. -/
def Sys2Proof.Claims.VectorCompare : Prop :=
  ∀ (s : State) (id : CoreId) (w : Fields) (h : Head),
    let k := s.chip.core id
    let n := k.count w
    let dst := k.regN w.d
    let reads := sourceA k w ++ (if vS w then [] else [rangeB k w]) ++ maskOf k w
    VecCan s id w { d := true, a := true, b := true, c := true, f2 := true } 7 reads [(dst, maskBytes n)] (dst :: maskAt k w) →
    HeadIs k w h → vecFn w ≤ 5 → (fmt2 w).noArith = false → (∀ r ∈ reads, Beside r (dst, maskBytes n)) →
    ∃ m, exec (.vcmp id w) s = .next (issued s id (fun k => popped w { k with scratch := m })) ∧
      (∀ i, i < n → maskBit m dst i =
        (k.active w k.scratch i && compareVals (vecFn w) (k.srcA w h n k.scratch i) (k.srcB w n k.scratch i))) ∧
      (∀ i, n ≤ i → i < 8 * maskBytes n → maskBit m dst i = false) ∧
      ∀ a, a < dst ∨ dst + maskBytes n ≤ a → m.get a = k.scratch.get a

/-- The reductions of Table 06.9 and `VPOPC`: the exact sum rounded once, the largest value, the index of the first largest (the first
NaN before any number), and the count of the active positions. -/
def Sys2Proof.Claims.Reductions : Prop :=
  ∀ (s : State) (id : CoreId) (w : Fields) (h : Head),
    let k := s.chip.core id
    let vs := actives k w h
    let toMem : Used := { d := true, a := true, c := true, f1 := true, f2 := true }
    let dst := (k.regN w.d, (fmt1 w).operandBytes 1)
    let reads := sourceA k w ++ maskOf k w
    let stored (v : FVal) (i : Instr) : Prop :=
      let r := k.roundings w [fmt1 w, fmt2 w] 1
      let x := roundInto w v (nth .rn r.1 0)
      exec i s = .next (issued s id (fun k => popped w { k with
        lanes := r.2.lanes, scratch := writeElem k.scratch (fmt1 w) dst.1 0 x.1, cvt := k.cvt ||| x.2 }))
    (VecCan s id w toMem 0 reads [dst] (maskAt k w) → HeadIs k w h → (fmt1 w).noArith = false → (fmt2 w).noArith = false →
      stored (exactSum (vs.map (·.2))) (.vrsum id w) ∧ stored (largest (fmt2 w) (vs.map (·.2))) (.vrmax id w)) ∧
    (VecCan s id w { d := true, a := true, c := true, f2 := true } 0 reads [] (maskAt k w) → HeadIs k w h → (fmt2 w).noArith = false →
      (vs = [] → exec (.vrmaxi id w) s = .next (issued s id (fun k => popped w (k.setReg w.d 0xFFFFFFFF)))) ∧
      (∀ p, vs.find? (fun p => p.2.isNan) = some p →
        exec (.vrmaxi id w) s = .next (issued s id (fun k => popped w (k.setReg w.d (BitVec.ofNat 32 p.1))))) ∧
      (vs.find? (fun p => p.2.isNan) = none → vs ≠ [] →
        exec (.vrmaxi id w) s = .next (issued s id (fun k => popped w (k.setReg w.d (largestIndex vs)))))) ∧
    (VecCan s id w { d := true, c := true } 0 (maskOf k w) [] (maskAt k w) →
      exec (.vpopc id w) s = .next (issued s id (fun k => k.setReg w.d (BitVec.ofNat 32
        ((List.range (k.count w)).countP (k.active w k.scratch))))))

/-- `VMOV`, `VCOMPRESS` and `VEXPAND` outside the MX formats, between ranges that share no byte (R123, R124): where each encoding goes,
and that nothing else changes. -/
def Sys2Proof.Claims.Moves : Prop :=
  ∀ (s : State) (id : CoreId) (w : Fields) (h : Head),
    let k := s.chip.core id
    let n := k.count w
    let f := fmt1 w
    let dst := k.regN w.d
    let on := (List.range n).filter (k.active w k.scratch)
    let code (i : Nat) : Nat := k.codeA w h k.scratch i
    let was (i : Nat) : Nat := elemAt k.scratch f dst i
    let moves (useB : Bool) (len : Nat) : Prop :=
      VecCan s id w { d := true, a := true, b := useB, c := true, f1 := true, f2 := true } 0
        ((if vTq w then [] else [(k.regN w.a, (fmt2 w).operandBytes len)]) ++ maskOf k w) [rangeD k w] (maskAt k w) ∧ HeadIs k w h ∧
      w.f1 = w.f2 ∧ f.noArith = false ∧ (vTq w = true ∨ Beside (k.regN w.a, (fmt2 w).operandBytes len) (rangeD k w)) ∧
      (w.c = 0 ∨ Beside (rangeC k w) (rangeD k w))
    let gives (i : Instr) (g : Core → Core) (el : Nat → Nat) : Prop :=
      ∃ m, exec i s = .next (issued s id (fun k => popped w (g { k with scratch := m }))) ∧
        (∀ i, i < n → elemAt m f dst i = el i % 2 ^ f.width) ∧
        ∀ a, a < dst ∨ dst + f.elemBytes n ≤ a → m.get a = k.scratch.get a
    (moves false n → gives (.vmov id w) (fun k => k) (fun i =>
      if k.active w k.scratch i then code i else if vZ w then 0 else was i)) ∧
    (moves true n → gives (.vcompress id w) (fun k => k.setReg w.b (BitVec.ofNat 32 on.length)) (fun i =>
      match on[i]? with
      | some j => code j
      | none => was i)) ∧
    (moves false on.length → gives (.vexpand id w) (fun k => k) (fun i =>
      match on.findIdx? (· == i) with
      | some j => code j
      | none => if vZ w then 0 else was i))

/-- `VBCAST`, `VLDQ`, `VDROP` without a kept mask, `TQPOP` and `MSIEVE` (R134, R158, R161, R308): every element, the draws, the record,
and the head. -/
def Sys2Proof.Claims.VectorFills : Prop :=
  ∀ (s : State) (id : CoreId) (w : Fields),
    let k := s.chip.core id
    let n := k.count w
    (VecCan s id w { d := true, b := true, c := true, f1 := true, f2 := true } 0 (maskOf k w) [rangeD k w] (maskAt k w) →
      vS w = true → vTq w = false → (fmt1 w).noArith = false → (w.c = 0 ∨ Beside (rangeC k w) (rangeD k w)) →
      ElementWise s id w {} (fun _ => scalarVal (fmt2 w) (k.reg w.b)) (roundInto w) (.vbcast id w)) ∧
    (∀ e rest, k.tq = e :: rest → e.visible = true →
      (k.phase ≠ .transfer → Ready s id → exec (.tqpop id w0) s = .next (issued s id (fun k => { k with tq := rest }))) ∧
      (VecCan s id w { d := true, c := true, f1 := true } 0 (maskOf k w) [rangeD k w] (maskAt k w) → n ≤ 16 →
        let src := (Fmt.ofCode e.fmt.toNat).getD .fp32
        let r := k.roundings w [fmt1 w, src] n
        exec (.vldq id w) s = .next (issued s id (fun k => { r.2.elementwise w (k.regN w.d) n (min (fmt1 w).lanes src.lanes)
          (k.active w) r.1 (fun _ i => e.val i) (fun v r => convert src (fmt1 w) v r (vSat w)) with tq := rest }))) ∧
      (∀ (d : BitVec 4) (mod : BitVec 8), Ready s id → k.phase ≠ .transfer → mod = 0 ∨ mod = 0x08 ∨ mod = 0x18 → k.regN d + 8 ≤ 4096 →
        k.mustWait [] [(k.regN d, 8)] = false → e.wide = false →
        exec (.msieve id { w0 with d := d, mod := mod }) s = .next (issued s id (fun k => { k with
          tq := rest, scratch := k.scratch.write (k.regN d) (scoreRecord (scoreBlock ((List.range 16).map e.val))) })))) ∧
    (∀ h, VecCan s id w { d := true, a := true, b := true, c := true, f1 := true, f2 := true } 0 (sourceA k w) [rangeD k w] [] →
      HeadIs k w h → w.c = 0 → (fmt1 w).noArith = false → (fmt2 w).noArith = false →
      let ds := takeDraws k.lanes (max (fmt1 w).lanes (fmt2 w).lanes) n
      let q := k.regN w.b % 65536
      exec (.vdrop id w) s = .next (issued s id (fun k => popped w (({ k with lanes := ds.2 }).elementwise w (k.regN w.d) n
        (min (fmt1 w).lanes (fmt2 w).lanes) (fun _ _ => true) (ds.1.map (fun d => if vSr w then Rnd.sr d else .rn))
        (fun m i => if q ≤ nth 0 ds.1 i then dropScale (k.srcA w h n m i) q else .zero) (roundInto w)))))

/-- The seeds (R69, R131): the 128 bytes at s[a] become the states of the 16 lane or cell generators, 0 read as the value that a load of
0 gives, and are stored from them. -/
def Sys2Proof.Claims.Generators : Prop :=
  ∀ (s : State) (id : CoreId) (a : BitVec 4), Ready s id →
    let k := s.chip.core id
    let at' := k.regN a
    let ld := { w0 with a := a }
    let st := { w0 with a := a, mod := 0x40 }
    let word (i : Nat) : W64 := lfsrLoad (k.scratch.readLe (at' + 8 * i) 8)
    k.phase ≠ .transfer → at' + 128 ≤ 4096 →
    (k.mustWait [(at', 128)] [] = false →
      exec (.vseed id ld) s = .next (issued s id (fun k => { k with lanes := (List.range 16).map word })) ∧
      (k.arr.passes = [] → k.arr.drains = [] → exec (.cseed id ld) s = .next (issued s id (fun k =>
        let seeded (p : Cell × Nat) : Cell := { p.1 with lfsr := nth 1 ((List.range 16).map word) p.2 }
        { k with arr := { k.arr with cells := k.arr.cells.zipIdx.map seeded } })))) ∧
    (k.mustWait [] [(at', 128)] = false →
      exec (.vseedSt id st) s = .next (issued s id (fun k => { k with
        scratch := k.scratch.write at' (k.lanes.flatMap (fun g => leBytes 8 g.toNat)) })) ∧
      (k.arr.passes = [] → k.arr.drains = [] → exec (.cseedSt id st) s = .next (issued s id (fun k => { k with
        scratch := k.scratch.write at' ((k.arr.cells.map (·.lfsr)).flatMap (fun g => leBytes 8 g.toNat)) }))))

/-- `VRAND` (R307): each element takes its draws from its lane, scaled by s[b] under `.S`, in ascending index. -/
def Sys2Proof.Claims.RandomValues : Prop :=
  ∀ (s : State) (id : CoreId) (w : Fields),
    let k := s.chip.core id
    let n := k.count w
    let f := fmt1 w
    VecCan s id w { d := true, b := vS w, c := true, f1 := true } 3 (maskOf k w) [rangeD k w] (maskAt k w) →
    vecFn w ≤ 2 → vSr w = false → f = .fp32 ∨ f = .bf16 ∨ f = .fp16 → (vecFn w = 2 → n ≤ 1024) →
    let ds := takeDrawsK k.lanes f.lanes n (if vecFn w = 2 then 12 else if f = .fp32 then 2 else 1)
    exec (.vrand id w) s = .next (issued s id (fun k => ({ k with lanes := ds.2 }).elementwise w (k.regN w.d) n f.lanes (k.active w) []
      (fun _ i => (randValue (vecFn w) f (nth [] ds.1 i)).mul (if vS w then f32 (k.regN w.b) else .one)) (roundInto w)))

/-- `VTOPK`, `VTOPP` and `VSAMPLE` (R309 to R311, Tables 11.6 to 11.9): the mask of what remains with the status word in the parameter
record; the index drawn with two draws of lane 0. -/
def Sys2Proof.Claims.Sampling : Prop :=
  ∀ (s : State) (id : CoreId) (w : Fields) (h : Head),
    let k := s.chip.core id
    let n := k.count w
    let b := k.regN w.b
    let cs := candidates (actives k w h)
    let tau := f32 (k.scratch.readLe b 4)
    let topk := k.scratch.readLe (b + 4) 4
    let p := f32 (k.scratch.readLe (b + 8) 4)
    let reads := sourceA k w ++ [(b, 16)] ++ maskOf k w
    let u : Used := { d := true, a := true, b := true, c := true, f2 := true }
    let status (kept : Nat) (bad : Bool) : Nat := samplingStatus kept bad cs.2.2.1 cs.2.1 cs.2.2.2
    HeadIs k w h → (fmt2 w).isScore = true → b % 16 = 0 →
    (VecCan s id w u 0 reads [(b + 12, 4), (k.regN w.d, maskBytes n)] (k.regN w.d :: maskAt k w) →
      (let fin := topK topk cs.1
       exec (.vtopk id w) s = .next (issued s id (fun k => popped w (k.writeSample w n (fin.map (·.1)) (status fin.length false))))) ∧
      (badTau tau = false →
       let fin := topP p (cs.1.map (fun q => (q.1, weight (candMax cs.1) tau q.2)))
       exec (.vtopp id w) s = .next (issued s id (fun k => popped w (k.writeSample w n (fin.map (·.1)) (status fin.length false)))))) ∧
    (VecCan s id w u 0 reads [(b + 12, 4)] (maskAt k w) →
      let ds := takeDrawsK k.lanes 1 1 2
      let put (index kept : Nat) (bad : Bool) : Host.Outcome State Fault Refusal := .next (issued s id (fun k =>
        let k' : Core := { k with lanes := ds.2, scratch := k.scratch.writeLe (b + 12) 4 (status kept bad) }
        popped w (k'.setReg w.d (BitVec.ofNat 32 index))))
      (cs.2.1 = true ∨ cs.2.2.2 = true ∨ badTau tau = true → exec (.vsample id w) s = put 0xFFFFFFFF 0 (badTau tau)) ∧
      (cs.2.1 = false → cs.2.2.2 = false → badTau tau = false → tau.eqv .zero = true →
        exec (.vsample id w) s = put (((cs.1.find? (fun q => q.2.eqv (candMax cs.1) || q.2 == candMax cs.1)).map (·.1)).getD 0) 1 false) ∧
      (cs.2.1 = false → cs.2.2.2 = false → badTau tau = false → tau.eqv .zero = false →
        let draw := nth 0 (nth [] ds.1 0) 0 + 65536 * nth 0 (nth [] ds.1 0) 1
        let kept := topP p ((topK topk cs.1).map (fun q => (q.1, weight (candMax cs.1) tau q.2)))
        let fin := sortBy (fun (a b : Nat × FVal) => a.1 ≤ b.1) kept
        exec (.vsample id w) s = put (pickIndex ((exactSum (fin.map (·.2))).mul (.fin false draw 0)) .zero fin 0) fin.length false))

/-- The online softmax (R295 to R298, Tables 11.1 to 11.3): the row record and the elements that each operation writes. -/
def Sys2Proof.Claims.OnlineSoftmax : Prop :=
  ∀ (s : State) (id : CoreId) (w : Fields) (h : Head),
    let k := s.chip.core id
    let n := k.count w
    let b := k.regN w.b
    let u : Used := { d := true, a := true, b := true, c := true, f1 := true, f2 := true }
    let reads := sourceA k w ++ [(b, 32)] ++ maskOf k w
    let row := RowState.load k.scratch b
    let a := k.srcA w h n
    let rr := drawn k w
    let lanes := min (fmt1 w).lanes (fmt2 w).lanes
    HeadIs k w h → (fmt2 w).isScore = true → b % 32 = 0 →
    (VecCan s id w u 7 reads [rangeD k w, (b, 32)] (maskAt k w) → vecFn w = 0 →
      let scores := (List.range n).map (fun i => if k.active w k.scratch i then a k.scratch i else .inf true)
      let r := foldScores row scores
      let ps := scores.map (fun v => if r.1.nan then .nan false false else f32 (expTerm (toF32 v) r.1.m).1)
      exec (.vosmStat id w) s = .next (issued s id (fun k =>
        let k' := rr.2.elementwise w (k.regN w.d) n n (fun _ i => k.active w k.scratch i) rr.1 (fun _ i => nth .zero ps i) (roundInto w)
        popped w { k' with scratch := k'.scratch.write b r.1.bytes, cvt := k'.cvt ||| r.2 }))) ∧
    (VecCan s id w u 7 reads [rangeD k w] (maskAt k w) → vecFn w = 2 →
      exec (.vosmScale id w) s = .next (issued s id (fun k => popped w (rr.2.elementwise w (k.regN w.d) n lanes (k.active w) rr.1
        (fun m i => (a m i).mul (f32 row.alpha)) (roundInto w))))) ∧
    (VecCan s id w u 127 reads [rangeD k w] (maskAt k w) → vecFn w % 8 = 3 → row.nan = false → row.m ≠ 0xFF800000 →
      let val (v : FVal) : Nat × Flags := f32div (if v.sig then 0x7F800001 else toF32 v) row.l
      exec (.vosmNorm id w) s = .next (issued s id (fun k =>
        let k' := rr.2.elementwise w (k.regN w.d) n 4 (k.active w) rr.1 (fun m i => f32 (val (a m i)).1) (roundInto w)
        let fl := ((List.range n).filter (k.active w k.scratch)).foldl (fun (fl : Flags) i => fl ||| (val (a k.scratch i)).2) 0
        popped w { k' with cvt := k'.cvt ||| fl }))) ∧
    (VecCan s id w u 127 reads [rangeD k w] (maskAt k w) → vecFn w % 8 = 4 → row.nan = false → row.m ≠ 0xFF800000 →
      let val (v : FVal) : Nat × Flags :=
        let e := expTerm (toF32 v) row.m
        let q := f32div e.1 row.l
        (q.1, e.2 ||| q.2 ||| (if v.sig then flagNV else 0))
      exec (.vosmProb id w) s = .next (issued s id (fun k =>
        let k' := rr.2.elementwise w (k.regN w.d) n 4 (k.active w) rr.1 (fun m i => f32 (val (a m i)).1) (roundInto w)
        let fl := ((List.range n).filter (k.active w k.scratch)).foldl (fun (fl : Flags) i => fl ||| (val (a k.scratch i)).2) 0
        popped w { k' with cvt := k'.cvt ||| fl })))

/-- `VOSM.NORM` and `VOSM.PROB` on a row with a NaN or without a finite score (R298): every element NaN, or 0 for every active one and the
counter that E names up by one. -/
def Sys2Proof.Claims.SoftmaxOfNoScores : Prop :=
  ∀ (s : State) (id : CoreId) (w : Fields) (h : Head),
    let k := s.chip.core id
    let n := k.count w
    let b := k.regN w.b
    let u : Used := { d := true, a := true, b := true, c := true, f1 := true, f2 := true }
    let row := RowState.load k.scratch b
    let rr := drawn k w
    let e := BitVec.ofNat 4 (vecFn w / 8)
    let gives (i : Instr) : Prop :=
      (row.nan = true → exec i s = .next (issued s id (fun k => popped w { rr.2.elementwise w (k.regN w.d) n 4 (fun _ _ => true) rr.1
        (fun _ _ => .nan false false) (roundInto w) with cvt := k.cvt }))) ∧
      (row.nan = false → row.m = 0xFF800000 → exec i s = .next (issued s id (fun k => popped w
        ((rr.2.elementwise w (k.regN w.d) n 4 (k.active w) rr.1 (fun _ _ => .zero) (roundInto w)).setReg e (satInc (k.reg e) 1)))))
    HeadIs k w h → (fmt2 w).isScore = true → b % 32 = 0 →
    VecCan s id w u 127 (sourceA k w ++ [(b, 32)] ++ maskOf k w) [rangeD k w] (maskAt k w) →
    (vecFn w % 8 = 3 → gives (.vosmNorm id w)) ∧ (vecFn w % 8 = 4 → gives (.vosmProb id w))

/-- `VOSM.MERGE` (R297): two row records without a NaN become one with the larger maximum, its sum rescaled and its count of infinities
the sum of both; the factor of the other record goes to that record. -/
def Sys2Proof.Claims.SoftmaxMerge : Prop :=
  ∀ (s : State) (id : CoreId) (a b : BitVec 4), Ready s id →
    let k := s.chip.core id
    let x := RowState.load k.scratch (k.regN a)
    let y := RowState.load k.scratch (k.regN b)
    let rs := [(k.regN a, 32), (k.regN b, 32)]
    let m := f32max y.m x.m
    let factor (v : Nat) : Nat × Flags := if (f32 v).eqv (f32 m) then (0x3F800000, 0) else expTerm v m
    let p := toF32F ((f32 x.l).mul (f32 (factor x.m).1))
    let l := rescaleSum y.l (factor y.m).1 p.1
    k.phase ≠ .transfer → k.regN a + 32 ≤ 4096 → k.regN b + 32 ≤ 4096 → k.regN a % 32 = 0 → k.regN b % 32 = 0 →
    k.mustWait rs rs = false → x.nan = false → y.nan = false →
    exec (.vosmMerge id { w0 with a := a, b := b, imm := 0x002000 }) s = .next (issued s id (fun k => { k with
      scratch := (k.scratch.write (k.regN b) (RowState.bytes ⟨m, l.1, (factor y.m).1, min (2 ^ 32 - 1) (y.k + x.k), false⟩)).writeLe
        (k.regN a + 8) 4 (factor x.m).1
      cvt := k.cvt ||| (factor y.m).2 ||| (factor x.m).2 ||| p.2 ||| l.2 }))

/-- The norm slots (R157, R267): binding with the flush of a slot that is not clear, flushing, and `VNORM` over the active values. -/
def Sys2Proof.Claims.NormSlots : Prop :=
  ∀ (s : State) (id : CoreId) (slot : Fin 4) (tag : W16), Ready s id →
    let k := s.chip.core id
    let old := nth {} k.norms slot.val
    let bind := { w0 with imm := BitVec.ofNat 24 (slot.val * 65536 + tag.toNat) }
    let flush := { w0 with imm := BitVec.ofNat 24 (slot.val * 65536) }
    k.phase ≠ .transfer → k.slotBusy slot.val = false →
    (old.isZero = true → exec (.nbind id bind) s = .next (issued s id (fun k => { k with
      norms := k.norms.set slot.val { old with tag := tag, bound := true } }))) ∧
    (old.isZero = false → old.bound = true → exec (.nbind id bind) s = .next (issued s id (fun k => { k with
      norms := k.norms.set slot.val { tag := tag, bound := true }, flushes := k.flushes ++ [old] }))) ∧
    (old.bound = true → exec (.nflush id flush) s = .next (issued s id (fun k => { k with
      norms := k.norms.set slot.val { tag := old.tag, bound := true }, flushes := k.flushes ++ [old] }))) ∧
    ∀ (w : Fields) (h : Head), VecCan s id w { a := true, c := true, f2 := true } 3 (sourceA k w ++ maskOf k w) [] (maskAt k w) →
      HeadIs k w h → vecFn w = slot.val →
      exec (.vnorm id w) s = .next (issued s id (fun k => popped w { k with
        norms := k.norms.set slot.val ((actives k w h).foldl (fun (x : NormSlot) p => x.add p.2) old) }))

/-- `MSCORE` (R161): one record for each block, with the score of its grid and its best pattern. -/
def Sys2Proof.Claims.BlockScores : Prop :=
  ∀ (s : State) (id : CoreId) (w : Fields),
    let k := s.chip.core id
    let n := k.count w
    let f := fmt2 w
    let st := if bitAt (vecFn w) 0 then 16 else 8
    let a := k.regN w.a
    VecCan s id w { d := true, a := true, c := true, f2 := true } 1
      [(a, f.elemBytes (st * n) + (if f.isMx then n else 0)), (k.regN w.c, 4 * n)] [(k.regN w.d, 8 * n)] [] →
    vTq w = false → n ≤ 512 →
    let kind (j : Nat) : BlockKind := blockKind (k.scratch.readLe (k.regN w.c + 4 * j) 4) (st == 16)
    let val (j v : Nat) : FVal :=
      decodeScaled f (k.scratch.get (a + f.elemBytes (st * n) + j)).toNat (elemAt k.scratch f a (st * j + v))
    let recs := (List.range n).flatMap (fun j => scoreRecord (scoreBlock (blockGrid (kind j) (val j))))
    exec (.mscore id w) s = .next (issued s id (fun k => { k with scratch := k.scratch.write (k.regN w.d) recs }))

/-- The matrix instructions (Table 06.4, R91, R150 to R154): a pass whose checks and waits are met enters the pass queue with the
register values of its issue; it opens a tile when none is open, and under `.CLOSE` ends the open tile in program order with the drain
record at s[d]. Nothing else of the core changes but its restore point under `.MB` and the program counter. -/
def Sys2Proof.Claims.MatrixIssue : Prop :=
  ∀ (s : State) (id : CoreId) (op : Fin 4) (w : Fields), Ready s id →
    let k := s.chip.core id
    let i : Instr := match op with
      | 0 => .mma id w
      | 1 => .mmaT4 id w
      | 2 => .mmaT4t id w
      | 3 => .mmaT4s id w
    let p := k.passOf (BitVec.ofNat 3 op.val) w
    let tile : OpenTile := k.arr.openTile.getD ⟨p.wide, modBit w 3, p.fx.isInt⟩
    let point := if p.mb then some k.latch else k.restorePoint
    let record := k.scratch.read (k.regN w.d) 64
    k.service = false → k.passCauses p = [] → k.arr.queued < 2 → (∃ c ∈ k.arr.cells, c.pos = 0) →
    (p.closes = false → k.mustWait p.reads (if p.mb then [(p.copyOffset, 256)] else []) = false →
      exec i s = .next (issued s id (fun k => { k with
        arr := { k.arr with passes := k.arr.passes ++ [p], openTile := some tile }, restorePoint := point }))) ∧
    (p.closes = true → recordCauses record p.wide = [] → k.mustWait [(k.regN w.d, 64)] [] = false →
      k.mustWait (p.readRanges record) (p.writeRanges record) = false →
      exec i s = .next (issued s id (fun k => { k with
        arr := { k.arr with passes := k.arr.passes ++ [{ p with drec := record }], openTile := none, nextB := !k.arr.nextB }
        restorePoint := point })))

/-- `MCLOSE` (R154) does nothing without an open tile; behind passes that still run it joins the pass list and ends the tile in
program order. `MWAIT` goes on once no pass and no drain is left, and until then the core stays as it is. -/
def Sys2Proof.Claims.MatrixClose : Prop :=
  ∀ (s : State) (id : CoreId) (d : BitVec 4), Ready s id →
    let k := s.chip.core id
    let record := k.scratch.read (k.regN d) 64
    k.service = false → k.phase ≠ .transfer →
    (k.arr.openTile = none → exec (.mclose id { w0 with d := d }) s = .next (issued s id (fun k => k))) ∧
    (∀ tile, k.arr.openTile = some tile → k.regN d + 64 ≤ 4096 → k.arr.queued < 2 →
      (∀ p ∈ k.arr.passes, p.isClose = false) → (∀ c ∈ k.arr.cells, c.pos < k.arr.passes.length) → (∃ c ∈ k.arr.cells, c.pos = 0) →
      recordCauses record tile.wide = [] → k.mustWait [(k.regN d, 64)] [] = false →
      k.mustWait ((k.regN d, 64) :: drainReads record tile.wide) (drainWrites record) = false →
      ∃ p : Pass, exec (.mclose id { w0 with d := d }) s = .next (issued s id (fun k => { k with
          arr := { k.arr with passes := k.arr.passes ++ [p], openTile := none, nextB := !k.arr.nextB } })) ∧
        p.isClose = true ∧ p.closes = true ∧ p.opens = false ∧ p.drec = record ∧ p.wide = tile.wide ∧ p.setB = k.arr.nextB ∧ p.index = k.pc) ∧
    (k.arr.passes = [] → k.arr.drains = [] → exec (.mwait id w0) s = .next (issued s id (fun k => k))) ∧
    (k.arr.passes ≠ [] ∨ k.arr.drains ≠ [] → ∃ t, exec (.mwait id w0) s = .next t ∧ t.chip.core id = k)

/-- A pass that reaches its first product cycle (R91): it counts as started, the cells that stand at it take their restart latches, and
the tile that it opens is a new one. A parity error in an operand read early costs a repeated read, which RESTART counts (R113). -/
def Sys2Proof.Claims.PassStart : Prop :=
  ∀ (s : State) (id : CoreId) (i : Nat) (p : Pass), s.chip.coreRuns id = true →
    let k := s.chip.core id
    k.arr.nextPass = some i → k.arr.passes[i]? = some p → k.canStart i = true →
    (p.op ≠ 3 → (∀ q ∈ k.arr.passes, q.mb = false) →
      let a := if p.opens then k.arr.setInfo p.setB (TileInfo.opened ⟨p.wide, modBit p.w 3, p.fx.isInt⟩) else k.arr
      exec (.passStart id .clean) s = .next (after s id { k with arr := { a with
        passes := k.arr.passes.set i { p with started := true }
        cells := k.arr.cells.map (fun (x : Cell) => if x.pos = i then x.takeLatch else x) } })) ∧
    exec (.passStart id .buffer) s = .next (after s id { k with restarts := satInc k.restarts 1 })

namespace Sys2Proof.Claims

/-- All 16 cells stand at place `j` of the oldest pass `p`, which runs with a fixed anchor and one product a cycle, no pass of the
list writes a protective copy, and more than one product is left. -/
structure InStep (k : Core) (p : Pass) (ps : List Pass) (j : Nat) : Prop where
  held : k.restorePend = false
  passes : k.arr.passes = p :: ps
  running : p.started = true ∧ p.isClose = false
  copies : ∀ q ∈ p :: ps, q.mb = false
  sixteen : k.arr.cells.length = 16
  cells : ∀ c ∈ k.arr.cells, c.pos = 0 ∧ c.k = j ∧ c.waits = false ∧ c.latches ≠ []
  anchored : (k.arr.info p.setB).fixed = true
  single : (k.arr.info p.setB).fb = true ∨ p.perCycle = 1
  more : j + 1 < p.len k.scratch

/-- What cell `n` becomes when it enters the product at its place: the set, the generator, and whether the sum leaves the
window (R62 to R64, R67, R70). -/
def entered (k : Core) (p : Pass) (j n : Nat) : CellSet × BitVec 64 × Bool :=
  let t := k.arr.info p.setB
  let c := nth {} k.arr.cells n
  enterEntry (!k.exact) t.fb t.anchorInt c.cur c.lfsr (p.entry k.scratch n j)

/-- The array with every cell one product further. -/
def advanced (k : Core) (p : Pass) (j : Nat) : ArrayState :=
  let cell (n : Nat) : Cell :=
    let c := nth {} k.arr.cells n
    { c.setCur (entered k p j n).1 with lfsr := (entered k p j n).2.1, k := j + 1 }
  { k.arr with cells := (List.range 16).map cell, restart := none }

end Sys2Proof.Claims

/-- A product cycle in which every cell is fed and no sum leaves the window: every cell enters its product and goes one place further,
and nothing else changes (R62, R90, R101). A repeated attempt after an overflow or after a parity error begins so too (R66, R113). -/
def Sys2Proof.Claims.ProductCycle : Prop :=
  ∀ (s : State) (id : CoreId) (p : Pass) (ps : List Pass) (j : Nat), s.chip.coreRuns id = true →
    let k := s.chip.core id
    let done : Host.Outcome State Fault Refusal := .next (after s id { k with arr := advanced k p j })
    InStep k p ps j → (∀ n, n < 16 → (entered k p j n).2.2 = false) →
    (k.arr.restart = none → exec (.productEntry id 0 0 .clean) s = done) ∧
    (∀ q, k.preempt = .none → k.arr.restart = some ⟨q, .overflow, true⟩ → exec (.overflowRepeat id) s = done) ∧
    (∀ q, k.preempt = .none → k.arr.restart = some ⟨q, .parity, true⟩ → exec (.parityRestart id) s = done)

/-- The swap of a closing pass that waited until the other set had been read (R70 to R72, R79): every cell takes its swap draw, hands its
set to the drain and goes on with an empty set; the pass leaves the list and its tile goes to the drain. -/
def Sys2Proof.Claims.DeferredSwap : Prop :=
  ∀ (s : State) (id : CoreId) (p : Pass), s.chip.coreRuns id = true →
    let k := s.chip.core id
    let a := k.arr
    let t := a.info p.setB
    let swapped (c : Cell) : Cell :=
      let d := lfsrDraw c.lfsr
      let c := c.setCur { c.cur with draw := BitVec.ofNat 16 d.1 }
      { ({ c with inB := !c.inB }).setCur {} with lfsr := d.2, waits := false, pos := 0, k := 0, latches := c.latches.drop 1 }
    k.restorePend = false → a.restart = none → a.passes = [p] → p.closes = true → p.isClose = false →
    (∀ c ∈ a.cells, c.pos = 0 ∧ c.waits = true ∧ c.inB = p.setB) → a.cells ≠ [] →
    (∀ d ∈ a.drains, d.setB = p.setB ∨ ∀ r ∈ d.rows, 4 ≤ r) → t.bad = false → t.fb = false →
    ∃ info : TileInfo, exec (.deferredSwap id) s = .next (after s id { k with arr := { a.setInfo p.setB {} with
        passes := []
        cells := a.cells.map swapped
        drains := a.drains ++ [{ setB := p.setB, info := info, drec := p.drec, index := p.index }] } }) ∧
      info.anchor = t.anchor ∧ info.rep.toNat = min 3 p.overflows.toNat ∧ info.ovf = t.ovf ∧ info.fb = t.fb ∧ info.repTotal = t.repTotal ∧
      info.wide = t.wide ∧
      (info.special = true ↔ ∃ c ∈ a.cells, (c.part p.setB).nan = true ∨ (c.part p.setB).pinf = true ∨ (c.part p.setB).ninf = true)

/-- One read of a finished set whose drain goes to the scratchpad, and one value leaving the drain pipeline (R72, R77, R103): each column
that accepts gives the value of its next row and its cell is cleared; the oldest value, through steps 1 to 5, is written at its
place. -/
def Sys2Proof.Claims.Drains : Prop :=
  ∀ (s : State) (id : CoreId) (d : Drain) (rest : List Drain), s.chip.coreRuns id = true →
    let k := s.chip.core id
    k.restorePend = false → k.arr.drains = d :: rest → drToScratch d.drec = true →
    (∀ r : Fin 4, d.rows = [r.val, r.val, r.val, r.val] →
      let at' (j : Nat) : Nat := 4 * r.val + j
      let take (j : Nat) : DrainVal := ⟨at' j, (nth {} k.arr.cells (at' j)).part d.setB⟩
      let clear (cs : List Cell) (j : Nat) : List Cell := modNth cs (at' j) (fun x => x.setPart d.setB {})
      exec (.drainRead id 0 .clean) s = .next (after s id { k with arr := { k.arr with
        cells := [0, 1, 2, 3].foldl clear k.arr.cells
        drains := { d with
          rows := [r.val + 1, r.val + 1, r.val + 1, r.val + 1]
          pipe := d.pipe ++ [take 0, take 1, take 2, take 3] } :: rest } })) ∧
    (∀ v vs, d.pipe = v :: vs → (drFmt d.drec).isMx = false → d.done < 15 → drNormOn d.drec = false →
      let n := outIndex d.info v.cell
      drValid d.drec n = true →
      let r := encode (drFmt d.drec) (drainValue k.scratch d v) (if drSr d.drec then .sr v.set.draw.toNat else .rn) (drSat d.drec)
      exec (.drainOutput id) s = .next (after s id { k with
        scratch := writeElem k.scratch (drFmt d.drec) (drOutput d.drec) n r.1
        cvt := k.cvt ||| r.2
        arr := { k.arr with drains := { d with pipe := vs, done := d.done + 1 } :: rest } }))


namespace Sys2Proof.Claims

open Sys2Proof.Machine

/-- `t` is `s` but for core `id` and its cluster. -/
def Within (s t : State) (id : CoreId) : Prop :=
  t = { s with chip := { s.chip with cores := t.chip.cores, clusters := t.chip.clusters } } ∧
  (∀ i, i ≠ id → t.chip.core i = s.chip.core i) ∧ ∀ c, c ≠ clusterOf id → t.chip.cluster c = s.chip.cluster c

/-- The four bytes of memory at a physical address. -/
def wordIn (s : State) (pa : Nat) : W32 := BitVec.ofNat 32 (s.chip.mem.bytes.readLe pa 4)

/-- A state in which no `memory.inval` and no `program.preempt` waits, so that an event sends no reply. -/
abbrev NoReplies (s : State) : Prop := s.chip.cmd.invals = [] ∧ s.chip.cmd.waiting = []

/-- The atomics of Table 06.11 but compare-and-swap, by operation. -/
def atomicOf (op : Nat) (old x : W32) : W32 :=
  if op = 0 then x else if op = 1 then BitVec.ofNat 32 (old.toNat + x.toNat) else if op = 2 then old &&& x
  else if op = 3 then old ||| x else if op = 4 then old ^^^ x
  else if op = 5 then BitVec.ofInt 32 (min old.toInt x.toInt) else if op = 6 then BitVec.ofInt 32 (max old.toInt x.toInt)
  else if op = 7 then BitVec.ofNat 32 (min old.toNat x.toNat) else BitVec.ofNat 32 (max old.toNat x.toNat)

/-- The core waits for a global access at a stage. -/
abbrev Waits (k : Core) (a : Access) (st : AccessStage) : Prop := k.hold = .access a ∧ a.stage = st

end Sys2Proof.Claims

/-- `LD.G`, `ST.G` and `AMO` (R160, R179, R346, R360): with the handle's permission and no entry of the cluster TLB, the core is held
and asks for a walk; a store whose page is present enters the write buffer of its cluster and the core goes on; an access that breaks
the handle's protection reads zero, writes nothing, goes on at once and is counted as a violation. -/
def Obligations.GlobalAccess : Prop :=
  ∀ (s : State) (id : CoreId) (d a b c : BitVec 4) (imm : BitVec 24) (t0 : TenantId), Ready s id →
    let k := s.chip.core id
    let x := s.chip.cluster (clusterOf id)
    let h := k.handles.getD (imm.toNat / 65536 % 16) 0
    let o := (k.reg a).toNat + imm.toNat % 65536
    let va : BitVec 48 := BitVec.ofNat 48 (handleBase h + o)
    let load := Instr.ldG id { w0 with d := d, a := a, imm := imm }
    let store := Instr.stG id { w0 with a := a, b := b, imm := imm }
    let amo := Instr.amo id { w0 with d := d, a := a, b := b, c := c, imm := imm }
    let held (kind : AccessKind) (dr sb sc : BitVec 4) : Access :=
      { kind := kind, d := dr, va := va, data := k.reg sb, cmp := k.reg sc, stage := .translate, index := k.pc,
        noAlloc := handleNoAlloc h, cls := s.chip.reqClass k.tenant h }
    k.tenant = some t0 → (handleBase h + o) % 4 = 0 →
    (x.tlbFind t0 va.toNat = none →
      (imm.toNat < 2 ^ 20 → handleOk h o 4 0 = true →
        exec load s = .next (after s id { k with hold := .access (held .load d 0 0) })) ∧
      (imm.toNat < 2 ^ 20 → handleOk h o 4 1 = true →
        exec store s = .next (after s id { k with hold := .access (held .store 0 b 0) })) ∧
      (imm.toNat / 2 ^ 20 < 10 → (c = 0 ∨ imm.toNat / 2 ^ 20 = 9) → handleOk h o 4 2 = true →
        exec amo s = .next (after s id { k with hold := .access (held (.amo (imm.extractLsb' 20 4)) d b c) }))) ∧
    (∀ e, imm.toNat < 2 ^ 20 → handleOk h o 4 1 = true → x.tlbFind t0 va.toNat = some e → e.w = true →
      let pa := (BitVec.ofNat 52 (e.phys va.toNat)).toNat
      (x.tlbUse e).canWrite (pa / 64) = true →
      ∃ t, exec store s = .next t ∧ Within s t id ∧ t.chip.core id = { k with pc := k.pc + 1 } ∧
        t.chip.cluster (clusterOf id) = (x.tlbUse e).enterWrite (.core id) pa (leBytes 4 (k.reg b).toNat) false) ∧
    (imm.toNat < 2 ^ 20 → handleOk h o 4 0 = false →
      ∃ t, exec load s = .next t ∧ t.chip.core id = { k.setReg d 0 with pc := k.pc + 1 } ∧ t.chip.mem = s.chip.mem ∧
        t.chip.xlt = { s.chip.xlt with
          lastTenant := t0, lastKind := 1, violations := satInc s.chip.xlt.violations 1 }) ∧
    (imm.toNat < 2 ^ 20 → handleOk h o 4 1 = false →
      ∃ t, exec store s = .next t ∧ t.chip.core id = { k with pc := k.pc + 1 } ∧ t.chip.mem = s.chip.mem ∧
        t.chip.cluster (clusterOf id) = x ∧ t.chip.xlt.violations = satInc s.chip.xlt.violations 1)

/-- LOAD_RETURN (R160, R324, R371): the value reaches the register and the core goes on; a value of a poisoned line raises the memory
fault instead, at the index of the access. A load that waits for its home, in a cluster whose write buffer is empty, takes the word that
memory holds, and memory does not change. -/
def Sys2Proof.Claims.LoadReturn : Prop :=
  ∀ (s : State) (id : CoreId) (a : Access), s.chip.coreRuns id = true → NoReplies s →
    let k := s.chip.core id
    (∀ v, Waits k a (.value v) → a.poisoned = false → a.kind = .load →
      exec (.loadReturn id) s = .next (after s id { k.setReg a.d v with hold := .none, pc := k.pc + 1 })) ∧
    (∀ v op, Waits k a (.value v) → a.poisoned = false → a.kind = .amo op →
      exec (.loadReturn id) s = .next (after s id
        { k.setReg a.d v with hold := .none, pc := k.pc + 1, fenceSeq := (s.chip.cluster (clusterOf id)).seq })) ∧
    (∀ v, Waits k a (.value v) → a.poisoned = true → a.kind = .load → a.index = k.pc →
      ∃ t, exec (.loadReturn id) s = .next t ∧ Raised (after s id { k with hold := .none }) t id 0x0B 0) ∧
    (Waits k a .memory → a.kind = .load → a.pa.toNat % 4 = 0 → (s.chip.cluster (clusterOf id)).wb = [] →
      s.chip.mem.poisoned (a.pa.toNat / 64) = false →
      ∃ t, exec (.loadReturn id) s = .next t ∧
        t.chip.core id = { k.setReg a.d (wordIn s a.pa.toNat) with hold := .none, pc := k.pc + 1 } ∧
        t.chip.mem.bytes = s.chip.mem.bytes)

/-- The atomics of a core at the home (R370, R372, Table 06.11): the old word goes back to the core, and the word in memory becomes
what the operation gives; compare-and-swap writes only when the old word equals the comparand. No other byte of memory changes. -/
def Sys2Proof.Claims.AtomicAtHome : Prop :=
  ∀ (s : State) (id : CoreId) (a : Access) (op : BitVec 4), NoReplies s →
    let k := s.chip.core id
    let pa := a.pa.toNat
    let old := wordIn s pa
    let new := if op.toNat = 9 then (if old = a.cmp then a.data else old) else atomicOf op.toNat old a.data
    Waits k a .home → a.kind = .amo op → op.toNat ≤ 9 → pa % 4 = 0 →
    (∀ i < 4, s.chip.mem.populated (pa + i) = true) → s.chip.mem.poisoned (pa / 64) = false →
    ∃ t, exec (.homeAtomic id) s = .next t ∧ t.chip.core id = { k with hold := .access { a with stage := .value old } } ∧
      wordIn t pa = new ∧ (∀ x, x < pa ∨ pa + 4 ≤ x → t.chip.mem.bytes.get x = s.chip.mem.bytes.get x) ∧
      ∀ i, i ≠ id → t.chip.core i = s.chip.core i

/-- The write buffer (R359, R360, R363): an entry is sent; the oldest sent entry of a line is performed at its home, where its bytes
and no others change, and leaves the buffer; a core that waits at a `FENCE` for it alone goes on. -/
def Sys2Proof.Claims.WriteBuffer : Prop :=
  ∀ (s : State) (cl : ClusterId) (line : BitVec 46) (pre post : List WbEntry) (e : WbEntry),
    let x := s.chip.cluster cl
    x.wb = pre ++ e :: post → e.line = line.toNat →
    (e.sent = false → (∀ y ∈ pre, y.line = line.toNat → y.sent = true) →
      exec (.writeBufferSend cl line) s =
        .next { s with chip := s.chip.setCluster cl { x with wb := pre ++ { e with sent := true } :: post } }) ∧
    (NoReplies s → e.sent = true → e.poison = false → e.bytes.length ≠ 64 → (∀ y ∈ pre, y.line = line.toNat → y.sent = false) →
      (e.bytes.map Prod.fst).Nodup → (∀ p ∈ e.bytes, p.1 < 64 ∧ s.chip.mem.populated (64 * line.toNat + p.1) = true) →
      ((∀ id, clusterOf id = cl → (s.chip.core id).hold = .none) →
        ∃ t, exec (.homeWritePerform cl line) s = .next t ∧ t.chip.cluster cl = { x with wb := pre ++ post } ∧
          (∀ p ∈ e.bytes, t.chip.mem.bytes.get (64 * line.toNat + p.1) = p.2) ∧
          (∀ y, (∀ p ∈ e.bytes, y ≠ 64 * line.toNat + p.1) → t.chip.mem.bytes.get y = s.chip.mem.bytes.get y) ∧
          t.chip.cores = s.chip.cores) ∧
      (∀ id, clusterOf id = cl → (s.chip.core id).hold = .fence → (s.chip.core id).flushes = [] →
        (∀ y ∈ pre ++ post, y.owners.contains (.core id) = false) →
        (∀ i, i ≠ id → clusterOf i = cl → (s.chip.core i).hold = .none) →
        ∃ t, exec (.homeWritePerform cl line) s = .next t ∧ t.chip.core id =
          { s.chip.core id with hold := .none, pc := (s.chip.core id).pc + 1, fenceSeq := x.seq }))

/-- Fences (R363, R364): `FENCE` goes on at once when every write of its core is performed, and later reads treat lines whose fill was
asked for before as absent; else the core waits. `FENCE.SC` sends a drain request to every cluster and application core of its
tenant: a cluster marks what its buffer holds and makes its cached lines absent; when the last master has acknowledged, the fence
completes. -/
def Sys2Proof.Claims.Fences : Prop :=
  ∀ (s : State) (id : CoreId) (m : DrainMaster) (n : Tenant) (t0 : TenantId),
    let k := s.chip.core id
    let x := s.chip.cluster (clusterOf id)
    let masters := (n.quads.flatMap clustersOfQuad).map DrainMaster.cluster ++ n.apps.map DrainMaster.app
    (Ready s id → s.chip.coreOutstanding id = false →
      exec (.fence id w0) s = .next (issued s id (fun k => { k with fenceSeq := x.seq }))) ∧
    (Ready s id → s.chip.coreOutstanding id = true → exec (.fence id w0) s = .next (after s id { k with hold := .fence })) ∧
    (Ready s id → exec (.fenceSc id w0) s = .next (after s id { k with hold := .fenceSc [] [] })) ∧
    (k.tenant = some t0 → s.chip.tenant t0 = some n → m ∈ masters → ∀ arrived acked, k.hold = .fenceSc arrived acked →
      (s.chip.coreOutstanding id = false → m ∉ arrived →
        ∃ t, exec (.drainRequestArrival id m) s = .next t ∧
          t.chip.core id = { k with hold := .fenceSc (arrived ++ [m]) acked } ∧ t.chip.mem = s.chip.mem ∧
          (∀ cl, m = .cluster cl → t.chip.cluster cl = { s.chip.cluster cl with
            wb := (s.chip.cluster cl).wb.map (fun (e : WbEntry) => { e with marks := id :: e.marks })
            cache := (s.chip.cluster cl).cache.map (fun (l : CacheLine) => { l with seq := 0 }) })) ∧
      (m ∈ arrived → m ∉ acked → (∀ cl, m = .cluster cl → ∀ e ∈ (s.chip.cluster cl).wb, id ∉ e.marks) →
        ((∃ o ∈ masters, o ∉ acked ++ [m]) →
          exec (.drainAcknowledge id m) s = .next (after s id { k with hold := .fenceSc arrived (acked ++ [m]) })) ∧
        ((∀ o ∈ masters, o ∈ acked ++ [m]) →
          exec (.drainAcknowledge id m) s =
            .next (after s id { k with hold := .none, pc := k.pc + 1, fenceSeq := x.seq }))))

/-- A controller (R322): the oldest request that has waited past the starvation guard is served first, else the oldest of class 0
under its cap. The request leaves the queue and its load takes the word that memory holds, in a cluster whose buffer is empty. -/
def Sys2Proof.Claims.Controllers : Prop :=
  ∀ (s : State) (u : MemUnit) (pre post : List MemReq) (r : MemReq) (a : Access),
    let q := tblGet {} s.chip.mem.ctls u.toNat
    let waited (y : MemReq) : Prop := y.cls ≠ 0 ∧ y.since + s.chip.mem.qosGuard.toNat * 6400 ≤ s.now
    let k := s.chip.core r.core
    let served (i : Instr) : Prop := ∃ t, exec i s = .next t ∧
      t.chip.core r.core = { k with hold := .access { a with stage := .value (wordIn s a.pa.toNat), poisoned := false } } ∧
      t.chip.mem.bytes = s.chip.mem.bytes ∧ r ∉ (tblGet {} t.chip.mem.ctls u.toNat).queue
    q.queue = pre ++ r :: post → r ∉ pre → r ∉ post → Waits k a .memory → a.kind = .load → a.pa.toNat % 4 = 0 →
    a.pa.toNat / 64 = r.line → (s.chip.cluster (clusterOf r.core)).wb = [] →
    s.chip.mem.poisoned r.line = false →
    ((∀ y ∈ pre, ¬waited y) → waited r → served (.starvationGuard u) ∧ served (.memoryRequestService u .clean)) ∧
    ((∀ y ∈ q.queue, ¬waited y) → (∀ y ∈ pre, y.cls ≠ 0) → r.cls = 0 →
      q.recent.countP (·) ≤ 64 * s.chip.mem.qosCap.toNat → served (.memoryRequestService u .clean))

/-- Patrol scrub of a line of tier 1 (R323, R325): a corrected error is counted; an uncorrectable one is counted and poisons the line,
but for a newer write, whose line the scrub leaves alone. Data never changes. -/
def Sys2Proof.Claims.PatrolScrub : Prop :=
  ∀ (s : State) (line : BitVec 46), 64 * line.toNat < 1024000000000 →
    let u := line.toNat / 64 % 16
    let e := tblGet {} s.chip.mem.errs u
    exec (.patrolScrub line .clean true) s = .next s ∧ exec (.patrolScrub line .uncorrectable true) s = .next s ∧
    (∃ t, exec (.patrolScrub line .corrected false) s = .next t ∧ t.chip.mem.bytes = s.chip.mem.bytes ∧
      t.chip.mem.poison = s.chip.mem.poison ∧
      tblGet {} t.chip.mem.errs u = { e with corrected := satInc e.corrected 1 }) ∧
    (line.toNat ∉ s.chip.mem.poison →
      ∃ t, exec (.patrolScrub line .uncorrectable false) s = .next t ∧ t.chip.mem.bytes = s.chip.mem.bytes ∧
        (∀ l, l ∈ t.chip.mem.poison ↔ l = line.toNat ∨ l ∈ s.chip.mem.poison) ∧
        tblGet {} t.chip.mem.errs u = { e with uncorrectable := satInc e.uncorrectable 1 })

/-- Walks (R339, R340, R344, R345): a request without a walk of its page starts one; a walk that succeeds installs its entry, and a
store that waits for it goes on; one that fails for want of a translation leaves the access held; a violation reads zero and goes on.
At its park limit a held access raises the memory fault. -/
def Obligations.Walks : Prop :=
  ∀ (s : State) (id : CoreId) (a : Access) (t0 : TenantId) (n : Tenant),
    let k := s.chip.core id
    let die := clusterDie (clusterOf id)
    let x := s.chip.cluster (clusterOf id)
    let w := s.chip.walker die
    let page : BitVec 36 := a.va.extractLsb' 12 36
    let amo := match a.kind with
      | .amo _ => true
      | _ => false
    let mine : Walk := { tenant := t0, page := page, reqs := [.core id], write := a.kind == .store, atomic := amo }
    k.tenant = some t0 → s.chip.tenant t0 = some n →
    (Waits k a .translate → (∀ y ∈ w.walks, y.tenant ≠ t0 ∨ y.page ≠ page) → w.walks.length < 32 →
      let c := s.chip.setWalker die { w with walks := w.walks ++ [mine] }
      exec (.walkStart (.core id)) s = .next { s with chip := c.setCore id { k with hold := .access { a with stage := .walking } } }) ∧
    (Waits k a .walking → w.walks = [mine] →
      (∀ e, s.chip.walk (s.chip.tableEntry die t0) t0 (page.toNat * 4096) = .ok e → e.maps e.tenant a.va.toNat = true → a.kind = .store →
        e.w = true → (x.tlbInstall e).canWrite ((BitVec.ofNat 52 (e.phys a.va.toNat)).toNat / 64) = true →
        ∃ t, exec (.walkEnd die t0 page) s = .next t ∧ t.chip.core id = { k with hold := .none, pc := k.pc + 1 } ∧
          t.chip.cluster (clusterOf id) = (x.tlbInstall e).enterWrite (.core id) (BitVec.ofNat 52 (e.phys a.va.toNat)).toNat
            (leBytes 4 a.data.toNat) false ∧ (t.chip.walker die).walks = []) ∧
      (∀ o level ea e, s.chip.walk (s.chip.tableEntry die t0) t0 (page.toNat * 4096) = .fail o level ea e →
        (1 ≤ o → o ≤ 2 → ∃ t, exec (.walkEnd die t0 page) s = .next t ∧
          t.chip.core id = { k with hold := .access { a with stage := .faulted, since := s.time.ht.toNat / 64 } } ∧
          (t.chip.walker die).walks = []) ∧
        (2 < o → a.kind = .load → ∃ t, exec (.walkEnd die t0 page) s = .next t ∧
          t.chip.core id = { k.setReg a.d 0 with hold := .none, pc := k.pc + 1 } ∧
          t.chip.xlt.violations = satInc s.chip.xlt.violations 1 ∧ (t.chip.walker die).walks = []))) ∧
    (Waits k a .faulted → a.since + n.parkLimit ≤ s.time.ht.toNat / 64 → a.index = k.pc →
      ∃ t, exec (.accessParkLimit id) s = .next t ∧ t.chip.core id = excepted { k with hold := .none } 0x0B 0)

namespace Sys2Proof.Claims

open Sys2Proof.Machine

/-- A completion word (Table 07.5): status, state, 0, lines delivered. -/
def wordOf (status state lines : Nat) : List Byte := leBytes 2 status ++ leBytes 1 state ++ leBytes 1 0 ++ leBytes 4 (min lines 0xFFFFFFFF)

/-- The first status other than 0 stands (R159). -/
def noted (st : BitVec 16) (status : Nat) : BitVec 16 := if st = 0 then BitVec.ofNat 16 status else st

/-- The core after a stream of it has ended in its transfer phase with a status (R159, R185). -/
def endedIn (k : Core) (st : Stream) (status : Nat) : Core :=
  { k with xferStatus := noted k.xferStatus status, scratch := k.scratch.write (fieldLe st.desc 18 2) (wordOf status 1 st.lines) }

/-- The core in its transfer phase, and not being pre-empted. -/
abbrev Transferring (k : Core) : Prop := k.phase = .transfer ∧ k.preempt = .none

/-- A transfer instruction by number. -/
def xferOf (i : Fin 5) (id : CoreId) (w : Fields) : Instr :=
  match i with
  | 0 => .xfer id w
  | 1 => .xferWin id w
  | 2 => .xferFill id w
  | 3 => .xferCopy id w
  | 4 => .xferMc id w

def kindOf (i : Fin 5) : XferKind :=
  match i with
  | 0 => .plain
  | 1 => .win
  | 2 => .fill
  | 3 => .copy
  | 4 => .multicast

end Sys2Proof.Claims

/-- Phases of a core (R105, R106, R159, R536): `XBEGIN` latches the restore point and asks for admission; the oldest request of a
cluster, at equal age the lower core's, is admitted when fewer than N cores are in their transfer phase; `XEND` returns the status of
the phase once every stream of the core stands, and until then the core stays at it. -/
def Sys2Proof.Claims.TransferPhases : Prop :=
  ∀ (s : State) (id : CoreId) (d : BitVec 4),
    let k := s.chip.core id
    let cl := clusterOf id
    let x := s.chip.cluster cl
    (Ready s id → k.phase = .compute → k.arr.passes = [] → k.arr.drains = [] → k.tq = [] →
      ∃ t, exec (.xbegin id w0) s = .next t ∧ Within s t id ∧ t.chip.cluster cl = { x with reqOrder := x.reqOrder + 1 } ∧
        t.chip.core id = { k with
          latch := { index := k.pc, regs := k.regs, lanes := k.lanes, norms := k.norms }
          phase := .requested x.reqOrder }) ∧
    (∀ n, k.phase = .requested n → k.preempt = .none → k.halted = false → k.arr.passes = [] → k.arr.drains = [] → k.tq = [] →
      x.gated = false → s.chip.coreRuns id = true → (∀ st ∈ x.streams, st.core = id → st.wordDue = false ∧ st.markDue = false) →
      (∀ i m, i ≠ id → clusterOf i = cl → (s.chip.core i).phase = .requested m → n < m ∨ n = m ∧ id < i) →
      ((coresOf cl).countP (fun i => (s.chip.core i).inAdmission)) < s.chip.admission cl →
      ∃ t, exec (.transferPhaseAdmit cl) s = .next t ∧ Within s t id ∧ t.chip.cluster cl = x ∧
        t.chip.core id = { k with phase := .transfer, pc := k.pc + 1 }) ∧
    (s.chip.admission cl ≤ ((coresOf cl).countP (fun i => (s.chip.core i).inAdmission)) →
      exec (.transferPhaseAdmit cl) s = .next s) ∧
    (Ready s id → k.phase = .transfer →
      ((∀ st ∈ s.chip.coreStreams id, st.settled = true) →
        exec (.xend id { w0 with d := d }) s = .next (issued s id (fun k =>
          { k.setReg d (k.xferStatus.setWidth 32) with phase := .compute, xferStatus := 0 }))) ∧
      ((∃ st ∈ s.chip.coreStreams id, st.settled = false) →
        ∃ t, exec (.xend id { w0 with d := d }) s = .next t ∧ t.chip.core id = k))

/-- `XFER` and its variants (R180, R184 to R186, R188, R191): an accepted descriptor opens a stream with the next free serial, in a
hardware context when one is free and else in the spill area, which bit 31 of its tag says; a refused one, or one for which no context,
entry or serial is left, gives 0xFFFFFFFF and its status. The completion word is written, and the core goes on. -/
def Sys2Proof.Claims.TransferOpening : Prop :=
  ∀ (s : State) (id : CoreId) (d a : BitVec 4) (h : Fin 16) (i : Fin 5), Ready s id →
    let k := s.chip.core id
    let cl := clusterOf id
    let x := s.chip.cluster cl
    let base := (k.reg a).toNat
    let desc := k.scratch.read base 128
    let word := fieldLe desc 18 2
    let ins := xferOf i id { w0 with d := d, a := a, imm := BitVec.ofNat 24 h.val }
    let gone (tag status state : Nat) : Core := { k.setReg d (BitVec.ofNat 32 tag) with
      xferStatus := noted k.xferStatus status, scratch := k.scratch.write word (wordOf status state 0), pc := k.pc + 1 }
    let own := nth 0 k.handles h.val
    let detached := kindOf i == .copy && bitAt (fieldLe desc 112 1) 4
    let opened (p : Place) : Stream :=
      { serial := x.nextSerial, core := id, tenant := k.tenant.getD 0, kind := kindOf i, desc := desc, src := own
        dst := if kindOf i = .copy then nth 0 k.handles (fieldLe desc 112 1 % 16) else own
        place := p, order := x.opened, fenceSeq := k.fenceSeq, detached := detached, opened := s.now, spilledOpen := p == .spilled }
    let more (p : Place) : Cluster :=
      { x with streams := x.streams ++ [opened p], serial := x.nextSerial + 1, opened := x.opened + 1 }
    let state := if detached then 3 else 0
    k.phase = .transfer → base % 32 = 0 → base + 128 ≤ 4096 → word % 8 = 0 → word + 8 ≤ 4096 →
    k.mustWait [(base, 128)] [(word, 8)] = false →
    (dRefused (kindOf i) desc = true → exec ins s = .next (after s id (gone 0xFFFFFFFF 3 1))) ∧
    (dRefused (kindOf i) desc = false →
      (∀ n rest, x.freeContexts = n :: rest → x.openStreams < 65535 →
        let c := s.chip.setCluster cl (more (.hw (BitVec.ofNat 4 n)))
        exec ins s = .next { s with chip := c.setCore id (gone x.nextSerial.toNat 0 state) }) ∧
      (x.freeContexts = [] → x.openStreams < 65535 → s.chip.mem.spillUse.toNat < s.chip.mem.spillEntries →
        ∃ t, exec ins s = .next t ∧ t.chip.cluster cl = more .spilled ∧
          t.chip.core id = gone (x.nextSerial.toNat + 2 ^ 31) 0 state ∧ t.chip.mem.spillUse = s.chip.mem.spillUse + 1) ∧
      (65535 ≤ x.openStreams ∨ (x.freeContexts = [] ∧ s.chip.mem.spillEntries ≤ s.chip.mem.spillUse.toNat) →
        exec ins s = .next (after s id (gone 0xFFFFFFFF 7 1))))

/-- One line of `XFER` from memory to scratchpad (R181, R183, R196): with every page present, each unit of the line is written at its
destination, 0 for a unit outside the extents, and the count of lines grows by one; with a page missing nothing is written and the
stream asks for its walk. -/
def Sys2Proof.Claims.LineDelivery : Prop :=
  ∀ (s : State) (cl : ClusterId) (n : BitVec 16) (st : Stream),
    let k := s.chip.core st.core
    let us := lineUnits st.kind st.desc st.lines
    let from' (u : WalkUnit) : List Reach := s.chip.reach cl st st.src u.src (dGroup st.desc).2 0
    let bytes (u : WalkUnit) : List Byte :=
      if u.outside then List.replicate (dGroup st.desc).2 0 else (reached (from' u)).map (s.chip.streamByte cl st)
    s.chip.stream cl n = some st → s.chip.canMove cl st = true → st.kind = .plain → dPath st.desc = 0 →
    ((∀ u ∈ us, u.outside = false → firstMiss (from' u) = none ∧ firstBad (from' u) = none ∧
        ∀ p ∈ reached (from' u), s.chip.streamPoison cl st p = false) →
      ∃ t, exec (.lineDelivery cl n) s = .next t ∧
        t.chip.core st.core = { k with scratch := us.foldl (fun (m : Memory) u => m.write u.dst.toNat (bytes u)) k.scratch } ∧
        (t.chip.stream cl n).map (·.lines) = some (st.lines + 1) ∧ t.chip.mem.bytes = s.chip.mem.bytes) ∧
    (∀ u pre post va, us = pre ++ u :: post → (∀ y ∈ pre, y.outside = true ∨ firstMiss (from' y) = none) → u.outside = false →
      firstMiss (from' u) = some va →
      ∃ t, exec (.lineDelivery cl n) s = .next t ∧ t.chip.cores = s.chip.cores ∧ t.chip.mem = s.chip.mem ∧
        t.chip.stream cl n = some { st with st := .translate (BitVec.ofNat 48 va) false })

/-- How streams end (R185, R188, R190, R198): a stream whose lines are delivered and whose writes are performed, a receive that no
sender meets within its limit, a copy that works detached, and a parked stream at its tenant's limit. The status and the line count go to
the completion word, or wait for the next transfer phase with the markers. -/
def Sys2Proof.Claims.StreamEnds : Prop :=
  ∀ (s : State) (cl : ClusterId) (n : BitVec 16) (st : Stream),
    let k := s.chip.core st.core
    let ended (i : Instr) (status : Nat) : Prop :=
      ∃ t, exec i s = .next t ∧ t.chip.core st.core = endedIn k st status ∧ t.chip.mem = s.chip.mem ∧
        (t.chip.cluster cl).streams = (s.chip.cluster cl).streams.filter (fun y => y.serial != n)
    s.chip.stream cl n = some st → st.sender = none → st.place ≠ .spilled →
    (st.st = .running → dLines st.desc ≤ st.lines → (s.chip.cluster cl).outstanding (.stream cl st.serial) = false →
      (st.detached = false → st.kind ≠ .multicast → st.missed = false → Transferring k →
        ended (.streamEnd cl n) (if st.poisoned = true then 11 else 0)) ∧
      (st.detached = true → handleOk st.dst (fieldLe st.desc 120 6) 8 1 = true →
        let word := wordOf (if st.poisoned = true then 11 else 0) 1 st.lines
        let va := handleBase st.dst + fieldLe st.desc 120 6
        exec (.detachedCopyEnd cl n) s = .next { s with chip := (s.chip.dropStream cl n).vwrite st.tenant va word })) ∧
    (st.kind = .plain → dPath st.desc = 4 → st.st = .running → Transferring k →
      (let us := fieldLe st.desc 112 4
       st.opened + 64000 * (if us = 0 then 10000 else us) ≤ s.now) → s.chip.findSender cl st = none →
      ended (.multicastReceiveTimeout cl n) 12) ∧
    (st.kind = .multicast → st.st = .running → st.lines < dLines st.desc → (∃ c ∈ st.targets, c ∉ st.matched) →
      st.opened + 640000000 ≤ s.now → s.chip.seekers st = [] →
      ∃ t, exec (.multicastSendTimeout cl n) s = .next t ∧ t.chip.stream cl n = some { st with missed := true }) ∧
    (∀ ten, s.chip.tenant st.tenant = some ten → st.st = .parked → st.since + ten.parkLimit ≤ s.time.ht.toNat / 64 →
      st.detached = false → dPath st.desc = 0 →
      ∃ t, exec (.parkLimitExpiry cl n) s = .next t ∧ t.chip.core st.core = { k with xferStatus := noted k.xferStatus 11 } ∧
        t.chip.stream cl n = some { st with st := .ended 11, wordDue := true, markDue := true })

/-- The places of streams (R191, R193, R194, R199): a parked stream moves to the spill area; the stream of context 15 ends its turn after
4 KiB, or when it has parked, and the next spilled stream of the cycle that waits takes the context; a free context 0 to 14 takes the
oldest of them to stay; a stream of a core that is pre-empted stands. -/
def Sys2Proof.Claims.StreamPlaces : Prop :=
  ∀ (s : State) (cl : ClusterId) (n : BitVec 16) (st w : Stream),
    let x := s.chip.cluster cl
    s.chip.stream cl n = some st →
    (st.st = .parked → st.place ≠ .spilled → s.chip.mem.spillUse.toNat < s.chip.mem.spillEntries →
      ∃ t, exec (.parkedStreamSpill cl n) s = .next t ∧ t.chip.stream cl n = some { st with place := .spilled } ∧
        t.chip.mem.spillUse = s.chip.mem.spillUse + 1 ∧ t.chip.cores = s.chip.cores) ∧
    (x.streams.find? (fun y => y.place == .hw 15 && !(match y.st with
        | .ended _ => true
        | _ => false)) = some st → st.st = .parked ∨ 4096 ≤ st.turn → s.chip.stream cl w.serial = some w →
      ∀ pre post, x.waiting = pre ++ w :: post → (∀ y ∈ pre, y.order ≤ st.order) →
      st.order < w.order ∨ pre = [] ∧ (∀ y ∈ w :: post, y.order ≤ st.order) →
      ∃ t, exec (.spillRotation cl) s = .next t ∧ t.chip.stream cl n = some { st with place := .spilled, turn := 0 } ∧
        t.chip.stream cl w.serial = some { w with place := .hw 15, turn := 0 } ∧ t.chip.mem = s.chip.mem) ∧
    (∀ i free rest, x.waiting = w :: rest → s.chip.stream cl w.serial = some w → x.freeContexts = i :: free → i < 15 →
      ∃ t, exec (.spillPromotion cl) s = .next t ∧
        t.chip.stream cl w.serial = some { w with place := .hw (BitVec.ofNat 4 i), turn := 0 } ∧
        t.chip.mem.spillUse = s.chip.mem.spillUse - 1) ∧
    ((s.chip.core st.core).preempt = .requested → st.detached = false → st.st = .running →
      ∃ t, exec (.streamPreemptPark cl n) s = .next t ∧ t.chip.stream cl n = some { st with st := .preempted } ∧
        t.chip.cores = s.chip.cores)

/-- `END` (R149, R164): the item of a core whose array is idle and whose streams are gone is done, and its core is free; an open tile or
a queued entry raises cause 0x0D; with passes or drains left the core stays as it is. -/
def Sys2Proof.Claims.EndOfItem : Prop :=
  ∀ (s : State) (id : CoreId) (j : JobId) (job : Job), CanIssue s id → s.chip.cmd.waiting = [] →
    let k := s.chip.core id
    k.job = some j → s.chip.job j = some job → s.chip.coreStreams id = [] →
    (k.arr.passes = [] → k.arr.drains = [] →
      (k.arr.openTile = none → k.tq = [] →
        ∃ t, exec (.endItem id w0) s = .next t ∧
          t.chip.core id = { k with running := false, job := none, phase := .compute, xferStatus := 0, restorePoint := none } ∧
          t.chip.job j = some { job with finished := job.finished + 1 } ∧ t.chip.mem = s.chip.mem) ∧
      (k.arr.openTile ≠ none ∨ k.tq ≠ [] → ∃ t, exec (.endItem id w0) s = .next t ∧ Raised s t id 0x0D 0)) ∧
    (k.arr.passes ≠ [] ∨ k.arr.drains ≠ [] → ∃ t, exec (.endItem id w0) s = .next t ∧ t.chip.core id = k)

/-- Descriptor mode (R136 to R140): `VDESC` in the service state starts the walk of a descriptor over the scratchpad; a descriptor with a
reserved code answers status 3 and touches nothing; a fill of `n` bytes with the 64-bit pattern writes them and no other byte but its
result record, which counts `n` elements. Outside the service state `VDESC` is an illegal instruction. -/
def Obligations.DescriptorWalks : Prop :=
  ∀ (s : State) (id : CoreId) (a : BitVec 4) (f : WalkFindings),
    let k := s.chip.core id
    let base := (k.reg a).toNat
    let desc := k.scratch.read base 64
    let res := fieldLe desc 56 2
    (Ready s id → k.service = false → ∃ t, exec (.vdesc id { w0 with a := a }) s = .next t ∧ Raised s t id 0x01 0) ∧
    (Ready s id → k.service = true → base + 64 ≤ 4096 → res % 32 = 0 → res + 32 ≤ 4096 → fieldLe desc 9 1 / 16 = 0 →
      exec (.vdesc id { w0 with a := a }) s = .next (after s id { k with hold := .walk (BitVec.ofNat 12 base) })) ∧
    (s.chip.coreRuns id = true → k.hold = .walk (BitVec.ofNat 12 base) → base < 4096 →
      (9 < fieldLe desc 8 1 → exec (.descriptorWalkEnd id f) s =
        .next (after s id { k with
          scratch := k.scratch.write res (leBytes 1 3 ++ List.replicate 31 0), hold := .none, pc := k.pc + 1 })) ∧
      (∀ n, fieldLe desc 8 1 = 1 → fieldLe desc 9 1 = Fmt.e4m3.code → (∀ i, i < 6 → nth 0 desc (10 + i) = 0 ∧ nth 0 desc (58 + i) = 0) →
        fieldLe desc 44 4 = 0 → fieldLe desc 16 4 = n → fieldLe desc 20 4 = 1 → fieldLe desc 24 4 = 1 → fieldLe desc 28 4 = 1 →
        fieldLe desc 0 8 + n ≤ 4096 → (res + 32 ≤ fieldLe desc 0 8 ∨ fieldLe desc 0 8 + n ≤ res) →
        ∃ t, exec (.descriptorWalkEnd id f) s = .next t ∧ (t.chip.core id).pc = k.pc + 1 ∧ (t.chip.core id).hold = .none ∧
          (∀ i < n, (t.chip.core id).scratch.get (fieldLe desc 0 8 + i) = nth 0 desc (48 + i % 8)) ∧
          (t.chip.core id).scratch.read res 32 = List.replicate 28 0 ++ leBytes 4 n ∧
          (∀ y, (y < res ∨ res + 32 ≤ y) → (y < fieldLe desc 0 8 ∨ fieldLe desc 0 8 + n ≤ y) →
            (t.chip.core id).scratch.get y = k.scratch.get y)))

/-- NORM_FLUSH_UPDATE (R267, R268): the oldest flush of a core reaches the record of its tag, whose sum saturates and whose counts
grow; a tag outside the tenant's range is a violation of kind 5 and changes no memory. -/
def Sys2Proof.Claims.NormFlushUpdate : Prop :=
  ∀ (s : State) (id : CoreId) (t0 : TenantId) (ten : Tenant) (f : NormSlot) (rest : List NormSlot),
    let k := s.chip.core id
    let addr := s.chip.mem.normBase.toNat * 2 ^ 22 + 64 * f.tag.toNat
    let old (o n : Nat) : Nat := s.chip.mem.bytes.readLe (addr + o) n
    k.flushes = f :: rest → k.hold = .none → k.tenant = some t0 → s.chip.tenant t0 = some ten →
    (ten.normFirst.toNat ≤ f.tag.toNat → f.tag.toNat < ten.normFirst.toNat + ten.normCount.toNat → s.chip.mem.normEnable = true →
      (∀ i < 64, s.chip.mem.populated (addr + i) = true) →
      ∃ t, exec (.normFlushUpdate id) s = .next t ∧ t.chip.core id = { k with flushes := rest } ∧
        t.chip.mem.bytes.readLe addr 16 = min (old 0 16 + f.sumsq.toNat) (2 ^ 128 - 1) ∧
        t.chip.mem.bytes.readLe (addr + 16) 8 = min (old 16 8 + f.nonfinite.toNat) (2 ^ 64 - 1) ∧
        t.chip.mem.bytes.readLe (addr + 24) 4 = max (old 24 4) f.maxmag.toNat ∧
        t.chip.mem.bytes.readLe (addr + 36) 4 = min (old 36 4 + 1) (2 ^ 32 - 1) ∧
        (t.chip.mem.bytes.readLe (addr + 40) 1 = 1 ↔
          old 40 1 % 2 = 1 ∨ f.sat = true ∨ 2 ^ 128 ≤ old 0 16 + f.sumsq.toNat) ∧
        ∀ y, y < addr ∨ addr + 64 ≤ y → t.chip.mem.bytes.get y = s.chip.mem.bytes.get y) ∧
    ((f.tag.toNat < ten.normFirst.toNat ∨ ten.normFirst.toNat + ten.normCount.toNat ≤ f.tag.toNat) →
      ∃ t, exec (.normFlushUpdate id) s = .next t ∧ t.chip.core id = { k with flushes := rest } ∧ t.chip.mem = s.chip.mem ∧
        t.chip.xlt.lastKind = 5 ∧ t.chip.xlt.violations = satInc s.chip.xlt.violations 1)

namespace Sys2Proof.Claims

open Sys2Proof.Machine

/-- `t` is `s` but for hall time and the queues of the eyespot units. -/
def OnlyTime (s t : State) : Prop := t = { s with time := t.time, chip := { s.chip with eye := t.chip.eye } }

/-- The clock of the core runs and it waits for something. -/
abbrev Held (s : State) (id : CoreId) (h : Hold) : Prop := s.chip.coreRuns id = true ∧ (s.chip.core id).hold = h

/-- A root with PPS lock (R386). -/
abbrev RootLocked (s : State) : Prop := s.htRegs.cfg.root = true ∧ s.time.src = .pps

/-- The bound of holdover (R385): e at the loss, and HOLD in 1/16 ppb times the time since it, rounded up. -/
def grown (s : State) (e0 since : Nat) : Nat :=
  e0 + (s.htRegs.cfg.hold.toNat * (s.time.ht.toNat - since) + 15999999999) / 16000000000

end Sys2Proof.Claims

/-- `WAITHT` and `BARW` (R394 to R396): at an instant that has come, or an entry of the core's tenant that is released, the core goes on
at once; else it waits, and goes on when local HT has reached the value, or when the entry has been released for it. -/
def Sys2Proof.Claims.TimedWaits : Prop :=
  ∀ (s : State) (id : CoreId) (a b : BitVec 4) (e : BitVec 12) (t0 : TenantId),
    let k := s.chip.core id
    let ns := s.time.ht.toNat / 64
    let value := k.reg b ++ k.reg a
    let w : Fields := { w0 with a := a, b := b }
    let we : Fields := { w0 with imm := e.setWidth 24 }
    let bar := s.chip.barrier e
    let mine : Prop := bar.claimed = true ∧ bar.tenant = t0
    let come : Prop := bar.st = .released ∨ bar.st = .armed ∧ bar.instant.toNat ≤ ns ∧ s.time.st ≠ .unset
    (Ready s id → value.toNat ≤ ns → exec (.waitht id w) s = .next (issued s id (fun k => k))) ∧
    (Ready s id → ns < value.toNat → exec (.waitht id w) s = .next (after s id { k with hold := .waitht value })) ∧
    (∀ t, Held s id (.waitht t) → t.toNat ≤ ns →
      exec (.waithtRelease id) s = .next (after s id { k with hold := .none, pc := k.pc + 1 })) ∧
    (∀ t, (s.chip.core id).hold = .waitht t → ns < t.toNat → exec (.waithtRelease id) s = .next s) ∧
    (k.tenant = some t0 → mine → come → Ready s id → exec (.barw id we) s = .next (issued s id (fun k => k))) ∧
    (k.tenant = some t0 → ¬(mine ∧ come) → Ready s id → exec (.barw id we) s = .next (after s id { k with hold := .barw e false })) ∧
    (∀ freed, Held s id (.barw e freed) → k.tenant = some t0 → freed = true ∨ mine ∧ come →
      ∃ t, exec (.barwRelease (sectorOf id) e) s = .next t ∧ t.chip.core id = { k with hold := .none, pc := k.pc + 1 } ∧
        ∀ i, sectorOf i ≠ sectorOf id → t.chip.core i = s.chip.core i)

/-- A barrier entry (R394, R395, R397): armed and at its instant, in every state but UNSET, it becomes RELEASED, its generation gains
one, and it is marked when the chip is not LOCKED; the cores of its tenant that wait on it may go on. -/
def Sys2Proof.Claims.BarrierRelease : Prop :=
  ∀ (s : State) (e : BitVec 12),
    let b := s.chip.barrier e
    b.st = .armed →
    (b.instant.toNat ≤ s.time.ht.toNat / 64 → s.time.st ≠ .unset →
      ∃ t, exec (.barrierInstantRelease e) s = .next t ∧
        t.chip.barrier e = { b with
          st := .released, generation := b.generation + 1, late := false, unlocked := s.time.st != .locked } ∧
        (∀ x, x ≠ e → t.chip.barrier x = s.chip.barrier x) ∧ t.chip.mem = s.chip.mem ∧
        ∀ id, t.chip.core id =
          if (s.chip.core id).hold = .barw e false ∧ b.claimed = true ∧ (s.chip.core id).tenant = some b.tenant then
            { s.chip.core id with hold := .barw e true } else s.chip.core id) ∧
    (s.time.ht.toNat / 64 < b.instant.toNat ∨ s.time.st = .unset → exec (.barrierInstantRelease e) s = .next s)

/-- The bound e (R385) by its source, and the changes of the time state (R386, R387, R549) at E = e + 1 ns: OUT above 6 ns, TRACK
above 2 ns, LOCKED below 2 ns or with PPS lock; a chip in OUT stays there until then, and at the end of the count it goes to OUT. -/
def Sys2Proof.Claims.TimeStates : Prop :=
  ∀ s : State,
    let e := s.time.e s.htRegs
    let l (p : PortId) := s.time.link p
    let ends : Prop := s.time.ht.toNat = 2 ^ 70 - 1
    let leads (i : Instr) (t' : HallTime) : Prop := ∃ t, exec i s = .next t ∧ OnlyTime s t ∧ t.time = t'
    (s.time.src = .pps → e = s.htRegs.cfg.rootBound.toNat) ∧
    (∀ p, s.time.src = .link p → e = (l p).upBound.toNat + 2 + (l p).uncert.toNat + s.time.corr.natAbs) ∧
    (∀ e0 since, s.time.src = .holdover e0 since → e = grown s e0 since) ∧
    ((s.time.st = .track ∨ s.time.st = .locked) → ¬RootLocked s → 384 < e + 64 →
      leads .enterOut { s.time with st := .out, ppsOut := false }) ∧
    (s.time.st = .locked → ¬RootLocked s → 128 < e + 64 → e + 64 ≤ 384 → leads .enterTrack { s.time with st := .track }) ∧
    ((s.time.st = .track ∨ s.time.st = .out) → e + 64 < 128 ∨ RootLocked s → ¬ends → leads .enterLocked { s.time with st := .locked }) ∧
    (s.time.st = .out → 128 ≤ e + 64 → ¬RootLocked s → exec .enterLocked s = .next s) ∧
    (ends → leads .htEnd { s.time with st := .out, ppsOut := false })

/-- The time tree (R378, R379): at the loss of its upstream a chip with another usable link switches to it without a step of HT; without
one it enters holdover with the bound at the loss, and a link that becomes usable ends holdover. -/
def Sys2Proof.Claims.TimeTree : Prop :=
  ∀ (s : State) (p q : PortId),
    let r := s.htRegs.cfg
    let usable (x : PortId) : Prop := let l := s.time.link x
      (l.upState = 3 ∨ l.upRoot = true) ∧ l.valid = true ∧ l.upBound.toNat ≤ 64
    let upstream (x : PortId) : Prop := r.root = false ∧
      (r.priEn = true ∧ r.primary = x ∧ usable x ∨ ¬(r.priEn = true ∧ usable r.primary) ∧ r.secEn = true ∧ r.secondary = x ∧ usable x)
    let none' : Prop := r.root = true ∨ ¬(r.priEn = true ∧ usable r.primary) ∧ ¬(r.secEn = true ∧ usable r.secondary)
    let onto (x : PortId) : HallTime := { s.time with
      src := .link x, active := x, corr := (s.time.link x).offset, slewing := decide ((s.time.link x).offset ≠ 0) }
    (s.time.src = .link p → upstream q → p ≠ q →
      ∃ t, exec .upstreamSwitch s = .next t ∧ OnlyTime s t ∧ t.time = onto q) ∧
    (s.time.src = .link p → upstream p → exec .upstreamSwitch s = .next s) ∧
    (s.time.src = .link p → none' →
      exec .holdoverEntry s = .next { s with time := { s.time with src := .holdover (s.time.e s.htRegs) s.time.ht.toNat } }) ∧
    (∀ e0 since, s.time.src = .holdover e0 since → upstream q → exec .holdoverExit s = .next { s with time := onto q })

/-- Time flits (R382, R384, R388, R419): what a port sends; what it learns from one that arrives: the partner's bound, state and flags, at
the first exchange the delay, and the offset, which past 6 ns puts the partner out until a measurement below 2 ns; sixteen frames
without a measurement end VALID; a missing flit is counted. -/
def Sys2Proof.Claims.TimeFlits : Prop :=
  ∀ (s : State) (p : PortId) (f : TimeFlit),
    let l := s.time.link p
    (s.chip.port p).link = 2 →
    (s.time.st = .unset → exec (.timeFlitSend p) s = .next s) ∧
    (s.time.st ≠ .unset → ∃ t, exec (.timeFlitSend p) s = .next t ∧ OnlyTime s t ∧ t.time.ht = s.time.ht ∧
      ∃ x, (t.time.link p).lastSent = some x ∧ x.origin = s.time.ht.toNat ∧ x.bound.toNat = min (s.time.e s.htRegs) 0xFFFF ∧
        x.state = s.time.st ∧ x.root = s.htRegs.cfg.root) ∧
    (f.foreignOption = false → ∃ t, exec (.timeFlitReceive p (.flit f)) s = .next t ∧
      let l' := t.time.link p
      l'.upBound = f.bound ∧ l'.upState = f.state ∧ l'.upRoot = f.root ∧ l'.upHold = f.holdover ∧ (t.chip.port p).missed = 0 ∧
      (l.valid = true → f.delay = none →
        l'.delay = l.delay ∧ l'.offset = (f.arrival : Int) - f.origin - l.delay.toNat ∧
        (384 < l'.offset.natAbs → l'.partnerOut = true) ∧ (l'.offset.natAbs ≤ 384 → l'.partnerOut = l.partnerOut) ∧
        (l'.offset.natAbs < 128 → l'.goodSince = true)) ∧
      (∀ x, l.valid = false → f.delay = some x →
        let d : Int := (((x.t2 : Int) - x.t1) + ((x.t4 : Int) - x.t3)) / 2 + l.asym.toInt
        0 ≤ d → d < 2 ^ 20 → (l'.delay.toNat : Int) = d ∧ l'.valid = true)) ∧
    (∃ t, exec (.timeFlitReceive p .missing) s = .next t ∧ (t.time.link p).missed = l.missed + 1 ∧
      (t.chip.port p).missed.toNat = min 3 ((s.chip.port p).missed.toNat + 1)) ∧
    (l.partnerOut = true → l.goodSince = true → ∃ t, exec (.partnerOutClear p) s = .next t ∧ OnlyTime s t ∧
      t.time.link p = { l with partnerOut := false, goodSince := false }) ∧
    (16 ≤ l.missed → l.valid = true → ∃ t, exec (.delayValidExpiry p) s = .next t ∧ OnlyTime s t ∧
      t.time.link p = { l with valid := false, means := [] } ∧ t.time.ht = s.time.ht)

/-- PPS (R390 to R392): the first edge after a naming brings a root that is behind by more than 1 µs to the named instant by a step;
later edges within 100 ns of their instants discipline it and others are discarded; 1.5 s without one is a loss and holdover;
PPS_OUT rises at the instants of its offset in TRACK and LOCKED and falls 1 ms later; a slew that has nothing left ends. -/
def Sys2Proof.Claims.PulsePerSecond : Prop :=
  ∀ (s : State) (rising : Bool),
    let r := s.htRegs
    let ht := s.time.ht.toNat
    let accepted : Prop := r.cfg.root = true ∧ r.pps.inEn = true ∧ rising = !r.pps.inFall ∧ s.chip.sys.refclk = true
    (accepted → ∀ n, s.time.named = some n →
      let target := (n * 1000000000 + r.pps.inOffset.toNat) * 64
      target < 2 ^ 70 → ht + 64000 < target → s.time.st = .unset ∨ s.time.st = .out →
      ∃ t, exec (.ppsInEdge rising) s = .next t ∧ t.time.ht.toNat = target ∧ t.time.stepped = true ∧ t.time.st = .out ∧
        t.time.named = none ∧ t.time.edges = 1) ∧
    (accepted → s.time.named = none → s.time.edges ≠ 0 →
      let d := ppsOffset ht r.pps.inOffset.toNat
      (d.natAbs ≤ 6400 → ∃ t, exec (.ppsInEdge rising) s = .next t ∧ OnlyTime s t ∧ t.time = { s.time with
        corr := d, slewing := decide (d ≠ 0), edges := s.time.edges + 1, lastEdge := some ht, ppsLost := false, src := .pps, hops := 0 }) ∧
      (6400 < d.natAbs → exec (.ppsInEdge rising) s = .next s)) ∧
    (¬accepted → exec (.ppsInEdge rising) s = .next s) ∧
    (∀ e, r.cfg.root = true → s.time.ppsLost = false → s.time.lastEdge = some e → e + 96000000000 ≤ ht →
      exec .ppsLost s = .next { s with time := { s.time with ppsLost := true, src := .holdover (s.time.e r) ht } }) ∧
    (s.chip.sys.bootFail = false → s.chip.sys.failQuiet = false → r.pps.outEn = true → s.time.st = .track ∨ s.time.st = .locked → s.time.ppsOut = false →
      (ht + 64000000000 - r.pps.outOffset.toNat * 64 % 64000000000) % 64000000000 < 640 →
      ∃ t, exec (.ppsOutEdge true) s = .next t ∧ OnlyTime s t ∧ t.time.ppsOut = true ∧ t.time.ht = s.time.ht) ∧
    (s.chip.sys.bootFail = false → s.chip.sys.failQuiet = false → s.time.ppsOut = true → s.time.ppsRose + 64000000 ≤ ht →
      exec (.ppsOutEdge false) s = .next { s with time := { s.time with ppsOut := false } }) ∧
    (s.time.slewing = true → s.time.corr = 0 →
      exec .slewComplete s = .next { s with time := { s.time with slewing := false, slewed := 0 } })

/-- Local HT never decreases (R375, R390, R549): not at any command but the resets that end hall time (power-on, the loss of both
inputs, a thermal trip, a cold reset), and not while the block idles. -/
def Obligations.HallTimeNeverFalls : Prop :=
  ∀ s t : State, step s = .next t →
    (∀ i rest, s.pending = i :: rest → (∀ a b, i ≠ .powerOnReset a b) ∧ i ≠ .powerLossReset ∧ (∀ c v, i ≠ .thermalTrip c v) ∧
      (∀ v, i ≠ .smbusColdReset v) ∧ (∀ p, i ≠ .deviceResetCold p)) →
    s.time.ht.toNat ≤ t.time.ht.toNat

/-- Work items (R106, R149, R169, R171, R178): an item goes to an idle core of its home's cluster, in exact mode to its home core,
with the launch's registers, its handle table from the context area and the entry of its variant; it counts as started. Without an
assignment table item n has its home by the job's clusters in order, 64 items to a cluster. -/
def Sys2Proof.Claims.Items : Prop :=
  ∀ (s : State) (id home : CoreId) (item : BitVec 32) (h : JobId) (j : Job) (var : Variant),
    let k := s.chip.core id
    let cl := clusterOf id
    let n := item.toNat
    (j.image.assign = none → ∀ c, j.clusters ≠ [] → j.clusters[n / 64 % j.clusters.length]? = some c →
      j.home n = some (coreAt c (n % 64))) ∧
    ((s.chip.cluster cl).job = some h → s.chip.job h = some j → j.home n = some home → clusterOf home = cl → (j.exact = true → home = id) →
      j.launched = true → j.chrysalis = none → quadOf cl ∉ j.paused → n < j.items → n ∉ j.started → k.running = false → k.service = false →
      k.outOfService = false → (s.chip.cluster cl).withdrawn = false → s.chip.coreRuns id = true → j.image.variants[j.variant]? = some var →
      ∃ t, exec (.workItemStart id item) s = .next t ∧ t.chip.job h = some { j with started := j.started ++ [n] } ∧
        t.chip.mem = s.chip.mem ∧ (∀ i, i ≠ id → t.chip.core i = s.chip.core i) ∧
        let k' := t.chip.core id
        k'.running = true ∧ k'.job = some h ∧ k'.tenant = some j.tenant ∧ k'.item = item ∧ k'.exact = j.exact ∧ k'.pc = var.entry ∧
        k'.regs = j.regs ∧ k'.phase = .compute ∧ k'.hold = .none ∧ k'.handles.length = 16 ∧ k'.lanes = k.lanes ∧ k'.norms = k.norms ∧
        k'.scratch = k.scratch ∧ k'.arr = k.arr) ∧
    (k.running = true → exec (.workItemStart id item) s = .next s)

/-- Pre-emption (R110, R111, R165, R166): a request that no open step holds back reaches a running core, which issues nothing more; a
running attempt is discarded with its pass marked for restart; at a boundary the array record is written to the context area, and the
rest of the area when the save ends, which leaves the core free and its context with the job. -/
def Obligations.Preemption : Prop :=
  ∀ (s : State) (id : CoreId) (h : JobId) (j : Job),
    let k := s.chip.core id
    (s.chip.coll.heldPreempts = [(id, [])] → s.chip.coreRuns id = true → k.running = true → k.preempt = .none →
      ∃ t, exec (.preemptRequest id) s = .next t ∧ t.chip.core id = { k with preempt := .requested } ∧
        t.chip.coll.heldPreempts = [] ∧ (t.chip.core id).canIssue = false) ∧
    (k.preempt = .requested → s.chip.coreRuns id = true → k.arr.restart = none → k.arr.attemptRuns = true → k.restorePend = false →
      ∃ t r, exec (.preemptDiscard id) s = .next t ∧ (t.chip.core id).arr.restart = some r ∧ r.pass = 0 ∧ r.kind = .preempt ∧
        { t.chip.core id with arr := k.arr } = k ∧ (t.chip.core id).arr.passes = k.arr.passes ∧
        (t.chip.core id).arr.infoA = k.arr.infoA ∧ (t.chip.core id).arr.infoB = k.arr.infoB) ∧
    (k.job = some h → s.chip.job h = some j → k.preempt = .requested → k.hold = .none → k.tq = [] → k.arr.passes = [] → k.arr.drains = [] →
      k.arr.restart = none → k.restorePend = false → k.phase = .compute →
      exec (.preemptBoundary id) s = .next { s with chip := (after s id { k with preempt := .saved }).chip.vwrite j.tenant (j.ctxOf id)
                                                              k.arrayRecord }) ∧
    (k.job = some h → s.chip.job h = some j → k.preempt = .saved → s.chip.cmd.waiting = [] →
      ∃ t, exec (.contextSaveDone id) s = .next t ∧
        t.chip.mem = (s.chip.vwrite j.tenant (j.ctxOf id + 384) (k.contextTail id)).mem ∧
        (t.chip.core id).running = false ∧ (t.chip.core id).preempt = .none ∧ (t.chip.core id).hold = .none ∧ (t.chip.core id).tq = [] ∧
        (t.chip.core id).arr.passes = [] ∧ (t.chip.core id).arr.drains = [] ∧
        ∃ j' saved, t.chip.job h = some j' ∧ tblFind j'.saved id.toNat = some saved ∧ saved.core = { k with preempt := .none } ∧
          saved.area.toNat = j.ctxOf id % 2 ^ 48)

/-- A core out of service and the restoration of a tile (R164, R531, R534 to R536, R526): a halted core whose queued work has run is taken
out of service and a spare carries its number, or its quad is withdrawn; a core comes back at a core reset with its scratchpad left; an
accumulate-through tile with a copy is restored and its core resumes at its restore point. -/
def Obligations.CoreRepair : Prop :=
  ∀ (s : State) (id : CoreId),
    let k := s.chip.core id
    let cl := clusterOf id
    let x := s.chip.cluster cl
    let n := id.toNat % 64
    (k.halted = true → k.excCause ≠ 0 → k.restorePend = false → k.preempt = .none → k.outOfService = false → k.arr.passes = [] →
      k.arr.drains = [] → s.chip.cmd.waiting = [] →
      (∀ p, x.freeSpare = some p →
        ∃ t, exec (.coreOutOfService id) s = .next t ∧ (t.chip.core id).outOfService = true ∧ (t.chip.core id).running = false ∧
          (t.chip.core id).job = none ∧ (t.chip.cluster cl).position n = p ∧
          (t.chip.cluster cl).failedPos = x.failedPos ++ [x.position n] ∧ (t.chip.cluster cl).working = x.working - 1) ∧
      (x.freeSpare = none → ∃ t, exec (.coreOutOfService id) s = .next t ∧ (t.chip.core id).outOfService = true ∧
        ∀ i : Fin 4, (t.chip.cluster (BitVec.ofNat 14 (4 * quadOf cl + i.val))).withdrawn = true)) ∧
    (k.outOfService = true → x.withdrawn = false →
      exec (.coreReset id) s = .next (after s id { scratch := k.scratch, tenant := k.tenant })) ∧
    (∀ off rp, s.chip.coreRuns id = true → k.restorePend = true → k.failed = false → k.arr.infoB.accThrough = false →
      k.arr.infoA.accThrough = true → k.arr.infoA.copy = some off → k.restorePoint = some rp →
      ∃ t, exec (.tileRestore id) s = .next t ∧
        let k' := t.chip.core id
        k'.pc = rp.index ∧ k'.regs = rp.regs ∧ k'.lanes = rp.lanes ∧ k'.norms = rp.norms ∧ k'.restorePend = false ∧ k'.halted = false ∧
        k'.excCause = 0 ∧ k'.tq = [] ∧ k'.arr.passes = [] ∧ k'.arr.drains = [] ∧ k'.restores = satInc k.restores 1 ∧
        k'.scratch = k.scratch ∧ k'.phase = .compute)

/-- Spares (R326, R327, R530 to R532, R539, Tables 22.6 and 22.7): a worn row moves and the table records it; a copy of a pseudo-channel ends;
a staged entry of a core comes into force at a boundary of every job of its quad; a failed regulator phase is replaced at once by one of two;
an ageing scan below 25 ps stages the spares of the cluster for both cores of the pair; a trigger stages an entry for a row. -/
def Sys2Proof.Claims.Spares : Prop :=
  ∀ (s : State),
    let sys := s.chip.sys
    let now : W64 := BitVec.ofNat 64 (s.time.ht.toNat / 64)
    let entry (kind state : Byte) (replacement : W16) (location : W32) : RepairEntry := ⟨kind, state, replacement, location, now⟩
    let adds (i : Instr) (es : List RepairEntry) : Prop := ∃ t, exec i s = .next t ∧ t.chip.sys = { sys with repairs := sys.repairs ++ es } ∧
      t.chip.mem.bytes = s.chip.mem.bytes ∧ t.chip.cores = s.chip.cores
    sys.repairs.length < 16000 →
    (∀ stack pc bank row, (∀ e ∈ sys.repairs, e.state ≠ 0) →
      adds (.hbmRowRepair stack pc bank row) [entry 3 1 0 (stack ++ pc ++ bank ++ row)]) ∧
    (∀ (stack : BitVec 4) (p : SparePc), tblFind s.chip.mem.spares stack.toNat = some p →
      ∃ t, exec (.pseudoChannelCopyEnd stack) s = .next t ∧ tblFind t.chip.mem.spares stack.toNat = some { p with copied := true } ∧
        t.chip.mem.bytes = s.chip.mem.bytes) ∧
    (∀ (i : BitVec 14) (e : RepairEntry) (id : CoreId), sys.repairs[i.toNat]? = some e → e.state = 0 → e.kind = 1 → e.location = id.setWidth 32 →
      s.chip.jobs = [] →
      ∃ t, exec (.stagedRepairApply i) s = .next t ∧ t.chip.sys = { sys with repairs := sys.repairs.set i.toNat { e with state := 1 } } ∧
        (t.chip.cluster (clusterOf id)).position (id.toNat % 64) = e.replacement.setWidth 7 ∧
        (t.chip.cluster (clusterOf id)).working = (s.chip.cluster (clusterOf id)).working - 1) ∧
    (∀ rail phase : Byte, (∀ e ∈ sys.repairs, e.kind ≠ 7) →
      adds (.regulatorPhaseFail rail phase) [entry 7 1 0 (BitVec.ofNat 32 (rail.toNat + 256 * phase.toNat))]) ∧
    (∀ (cl : ClusterId) (margin : Byte) (pair : BitVec 6), pair.toNat ≤ 32 → sys.failQuiet = false →
      (25 ≤ margin.toNat → ∃ t, exec (.ageingScan cl margin pair) s = .next t ∧ t.chip.sys = sys ∧
        t.chip.cluster cl = { s.chip.cluster cl with margin := margin, worst := pair }) ∧
      (margin.toNat < 25 → pair.toNat < 32 → sys.repairs = [] → (s.chip.cluster cl).positions = [] → (s.chip.cluster cl).failedPos = [] →
        adds (.ageingScan cl margin pair) [entry 1 0 64 ((coreAt cl (2 * pair.toNat)).setWidth 32),
          entry 1 0 65 ((coreAt cl (2 * pair.toNat + 1)).setWidth 32)])) ∧
    (∀ location : W32, s.chip.pairRuns = true → (∀ e ∈ sys.repairs, e.kind = 3 → e.location = location → e.state = 1) →
      adds (.repairTrigger 3 location) [entry 3 0 0 location])

/-- Managers (R540 to R543): the spare pair starts in the place of a failed one and serves 50 ms later; without a spare no pair is
left; the standby cocoon controller takes over, and without one the chip goes fail-quiet with its ports and PPS_OUT down. -/
def Sys2Proof.Claims.Managers : Prop :=
  ∀ (s : State) (lockstep : Bool),
    let sys := s.chip.sys
    sys.failQuiet = false →
    (sys.ended.getLsbD 1 = true → sys.mpLost = false →
      (sys.spareOk = true → exec (.managementPairFailure lockstep) s = .next { s with chip := { s.chip with sys := { sys with
          spareOk := false, mp := !sys.mp, switches := satInc sys.switches 1, pairStarting := some s.now } } }) ∧
      (sys.spareOk = false → s.chip.cmd.queue = [] → exec (.managementPairFailure lockstep) s =
        .next { s with chip := { s.chip with sys := { sys with mpLost := true, pairStarting := none } } })) ∧
    (∀ t0, sys.pairStarting = some t0 → t0 + 3200000000 ≤ s.now → sys.repairs.length < 16384 → (∀ e ∈ sys.repairs, e.kind ≠ 8) →
      ∃ t, exec .sparePairReady s = .next t ∧ t.chip.sys.pairStarting = none ∧
        t.chip.sys.repairs = sys.repairs ++ [⟨8, 1, 1, 0, BitVec.ofNat 64 (s.time.ht.toNat / 64)⟩]) ∧
    (sys.standbyOk = true → sys.repairs.length < 16384 →
      ∃ t, exec .cocoonTakeover s = .next t ∧ t.chip.sys.cocoon = !sys.cocoon ∧ t.chip.sys.standbyOk = false ∧
        t.chip.sys.switches = satInc sys.switches 1 ∧ t.chip.sys.failQuiet = false ∧ t.time = s.time) ∧
    (sys.standbyOk = false → ∃ t, exec .cocoonTakeover s = .next t ∧ t.chip.sys.failQuiet = true ∧ t.time.ppsOut = false ∧
      ∀ p, (t.chip.port p).link = 0 ∨ (t.chip.port p) = {})

namespace Sys2Proof.Claims

open Sys2Proof.Machine

/-- The frame of local HT (R377). -/
def frameNow (s : State) : Nat := frameOf s.time.ht.toNat

/-- A port whose scheduled slots are in use (R386 to R388, R419): the chip is in TRACK or LOCKED, the link is up, the partner there, and
neither end out. -/
abbrev InUse (s : State) (p : PortId) : Prop :=
  (s.time.st = .track ∨ s.time.st = .locked) ∧ (s.chip.port p).link = 2 ∧ (s.chip.port p).absent = false ∧
  (s.time.link p).partnerOut = false ∧ (s.time.link p).upState ≠ 1

/-- `t` is `s` with a port replaced, and eyespot stamps. -/
def PortNow (s t : State) (p : PortId) (x : Port) : Prop :=
  ∃ e : EyeState, t = { s with chip := { s.chip.setPort p x with eye := e } }

/-- The state with a port replaced. -/
def withPort (s : State) (p : PortId) (x : Port) : State := { s with chip := s.chip.setPort p x }

/-- A flit as it goes out: its LCRC is computed again (R412). -/
def sent (f : Flit) : Flit := { f with lcrc := f.crc }

/-- A whole flit of a kind (R402): its LCRC is right, and its operation is none of the reserved ones. -/
abbrev Whole (f : Flit) (kind : BitVec 4) : Prop := f.lcrc = f.crc ∧ f.kind = kind ∧ f.op.toNat < 8

/-- The port after it has kept a flit that it sends in a scheduled slot, and driven it (R417). -/
def keptAndSent (x : Port) (frame slot : Nat) (f : Flit) : Port :=
  { x with
    replay := x.replay.filter (fun y => decide (frame < y.frame + 8)) ++ [{ frame := frame, slot := slot, flit := f }]
    wire := some (frame, slot, sent f) }

end Sys2Proof.Claims

/-- Slots and frames (R377), in steps of 1/64 ns: slot k begins exactly k · 64/25 ns, 4096 k/25 steps, after the epoch, and frame f
f · 262,144/25 ns; a port sets a boundary at the nearest step, the later of two; its error is at most half a step, 1/128 ns; and a frame
holds the instants from its first slot to the next frame's. -/
def Obligations.SlotBoundaries : Prop :=
  ∀ k f ht : Nat,
    -- 25 times the distance of step x from the exact instant of slot k
    let off (x : Nat) : Nat := ((25 * x : Int) - 64 * (64 * k)).natAbs
    (∀ x : Nat, off (slotInstant k) < off x ∨ off (slotInstant k) = off x ∧ x ≤ slotInstant k) ∧
    2 * off (slotInstant k) ≤ 25 ∧
    slotStart f k = slotInstant (4096 * f + k) ∧ frameStart f = slotStart f 0 ∧
    2 * ((25 * frameStart f : Int) - 64 * (262144 * f)).natAbs ≤ 25 ∧
    (frameOf ht = f ↔ frameStart f ≤ ht ∧ ht < frameStart (f + 1))

/-- Lanes (R399) and banks (R408, R409): the first failure of a lane asks for a swap and a second takes the link down; the swap takes
effect 2 frames after its request; a load that is done makes its bank READY; an armed swap changes the bank in the first frame that begins at
or after its instant, and a bank that is not READY is taken as empty and marked. -/
def Sys2Proof.Claims.LanesAndBanks : Prop :=
  ∀ (s : State) (p : PortId) (lane : BitVec 2),
    let x := s.chip.port p
    (x.link = 2 → x.retired = 7 → x.rxSwap = none → exec (.laneLockLoss p lane) s =
      .next (withPort s p { x with rxSwap := some { lane := lane, frame := frameNow s } })) ∧
    (x.link = 2 → x.retired ≠ 7 → exec (.laneLockLoss p lane) s = .next (withPort s p { x with link := 0 })) ∧
    (∀ l, x.rxSwap = some l → l.sent = true → l.frame + 2 ≤ frameNow s → exec (.laneSwap p false) s =
      .next (withPort s p { x with retired := l.lane.setWidth 3, rxSwap := none })) ∧
    (∀ l, x.txSwap = some l → l.frame + 2 ≤ frameNow s → exec (.laneSwap p true) s =
      .next (withPort s p { x with txRetired := l.lane.setWidth 3, txSwap := none })) ∧
    (∀ l rest, x.loads = l :: rest → s.chip.cmd.waiting = [] →
      let full : Bank := { tx := l.tx, rx := l.rx, ready := true }
      exec (.scheduleLoadDone p) s = .next (withPort s p
        (if l.bank = true then { x with loads := rest, bank1 := full } else { x with loads := rest, bank0 := full }))) ∧
    (∀ t0, x.armed = some t0 →
      let ready := if x.bank = true then x.bank0.ready else x.bank1.ready
      (64 * t0.toNat ≤ frameStart (frameNow s) → ∃ t, exec (.bankSwap p) s = .next t ∧ PortNow s t p { x with
        bank := !x.bank, wasEmpty := x.empty, empty := !ready, swapEmpty := x.swapEmpty || !ready, swapFrame := frameNow s, armed := none }) ∧
      (frameStart (frameNow s) < 64 * t0.toNat → exec (.bankSwap p) s = .next s))

/-- Scheduled slots (R404, R411, R412, R414): a slot without an entry sends an empty flit, one whose engine has a flit ready sends it and
keeps it for repair; a data flit without a receive entry is discarded and counted; one of a forward entry waits for its output slot and
leaves in it, and what has not arrived whole leaves as kind 2; a damaged flit is counted and waits for repair. -/
def Sys2Proof.Claims.ScheduledSlots : Prop :=
  ∀ (s : State) (p : PortId) (frame : FrameNo) (slot : SlotNo) (f : Flit), InUse s p → 16 ≤ slot.toNat → slot.toNat < 3968 →
    let x := s.chip.port p
    let fr := frame.toNat
    let sl := slot.toNat
    let send := exec (.scheduledSend p frame slot) s
    ((∀ y ∈ x.replay, ¬(y.frame = fr ∧ y.slot = sl)) → (∀ y ∈ x.forwards, ¬(y.frame = fr ∧ y.slot = sl)) →
      (x.txEntry fr sl = none → send = .next (withPort s p { x with wire := some (fr, sl, sent Flit.empty) })) ∧
      (∀ e c', x.txEntry fr sl = some e → e.op = 2 → (s.chip.poll s.env e.group).nextFlit e = some (f, c') →
        ∃ t, send = .next t ∧ t.chip.port p = keptAndSent (c'.port p) fr sl f)) ∧
    (Whole f 1 → x.rxEntry fr sl = none → ∃ t, exec (.scheduledReceive p frame slot (.flit f)) s = .next t ∧
      PortNow s t p { x with unsched := satInc x.unsched 1 }) ∧
    (∀ e, Whole f 1 → x.rxEntry fr sl = some e → e.op = 5 → (s.chip.port e.outPort).absent = false →
      let y := s.chip.port e.outPort
      ∃ t, exec (.scheduledReceive p frame slot (.flit f)) s = .next t ∧ PortNow s t e.outPort
        { y with forwards := y.forwards ++ [{ frame := fr + e.carry, slot := e.outSlot.toNat, flit := some f }] }) ∧
    (x.rxEntry fr sl = none → (∀ d ∈ x.damaged, ¬(d.frame = fr ∧ d.slot = sl)) →
      ∃ t, exec (.scheduledReceive p frame slot .badFec) s = .next t ∧ PortNow s t p
        { x with fec := satInc x.fec 1, damaged := x.damaged ++ [{ frame := fr, slot := sl }] }) ∧
    (∀ h, x.forwards = [h] → h.frame = fr → h.slot = sl → x.txEntry fr sl = none →
      ∃ t, exec (.forwardSend p frame slot) s = .next t ∧
        PortNow s t p (keptAndSent { x with forwards := [] } fr sl (h.flit.getD Flit.damaged)))

/-- The repair path (R416 to R418): a request names up to 30 damaged slots; the partner queues the chunk that held a named flit, as kind 6
with its frame and slot, and sends one a repair slot; a repair flit takes the place of the missing one; a flit that is not whole 8 frames
later is lost and counted. -/
def Sys2Proof.Claims.RepairPath : Prop :=
  ∀ (s : State) (p : PortId) (frame : FrameNo) (slot : SlotNo) (f : Flit),
    let x := s.chip.port p
    let fr := frame.toNat
    let sl := slot.toNat
    let entry (a b : Nat) : List Byte := leBytes 8 (a % 2 ^ 20 + 2 ^ 20 * b)
    x.link = 2 →
    (∀ d, x.rxSwap = none → x.damaged = [d] → d.requested = false →
      let request : Flit := { Flit.empty with kind := 4, payload := slice (entry d.frame d.slot) 0 240 }
      exec (.repairRequestSend p) s = .next (withPort s p
        { x with damaged := [{ d with requested := true }], wire := some (frameNow s, 1, sent request) })) ∧
    (∀ y, Whole f 4 → f.payload = entry y.frame y.slot ++ List.replicate 232 0 → 16 ≤ y.slot → y.slot < 3968 → x.replay = [y] →
      y.flit.kind = 1 → x.repairs = [] →
      exec (.repairRequestReceive p (.flit f)) s = .next (withPort s p
        { x with repairs := [{ y.flit with kind := 6, tag := BitVec.ofNat 32 (y.frame % 2 ^ 20 + 2 ^ 20 * y.slot) }] })) ∧
    (∀ rest, x.repairs = f :: rest → 3968 ≤ sl →
      ∃ t, exec (.repairFlitSend p frame slot) s = .next t ∧ PortNow s t p { x with repairs := rest, wire := some (fr, sl, sent f) }) ∧
    (x.repairs = [] → 3968 ≤ sl → exec (.repairFlitSend p frame slot) s =
      .next (withPort s p { x with wire := some (fr, sl, sent Flit.empty) })) ∧
    (∀ d, Whole f 6 → x.damaged = [d] → f.tag = BitVec.ofNat 32 (d.frame % 2 ^ 20 + 2 ^ 20 * d.slot) → d.slot < 4096 →
      x.rxEntry d.frame d.slot = none → exec (.repairFlitReceive p (.flit f)) s =
        .next (withPort s p { x with damaged := [], unsched := satInc x.unsched 1 })) ∧
    (∀ d, x.damaged = [d] → d.frame = fr → d.slot = sl → x.rxEntry fr sl = none →
      (fr + 8 < frameNow s → ∃ t, exec (.flitLoss p frame slot) s = .next t ∧
        PortNow s t p { x with damaged := [], lost := satInc x.lost 1 }) ∧
      (frameNow s ≤ fr + 8 → exec (.flitLoss p frame slot) s = .next s))

/-- Absent partners (R419) and open messages (R420, R421, R503): three frames without a heartbeat mark the partner absent, and what waits is
discarded and counted; a heartbeat that carries TRACK or LOCKED clears it; a message for another chip waits at the port of its route with
one hop less, one without hops left is dropped and counted; an open slot sends the oldest message of the lowest class, or an empty flit. -/
def Sys2Proof.Claims.AbsentAndOpen : Prop :=
  ∀ (s : State) (p q : PortId) (frame : FrameNo) (slot : SlotNo) (f : Flit),
    let x := s.chip.port p
    let hops := f.tag.toNat / 2 ^ 20 % 256
    let dest := f.tag.toNat % 2 ^ 20
    let route := (s.chip.mem.bytes.get (s.chip.fab.routes + dest)).toNat
    (x.missed = 3 → x.absent = false → (x.bankAt x.swapFrame).rx = [] → s.chip.cmd.waiting = [] →
      ∃ t, exec (.partnerAbsent p) s = .next t ∧ PortNow s t p { x with
        absent := true, forwards := [], waiting := [], collide := satInc x.collide x.forwards.length
        openDrop := satInc x.openDrop x.waiting.length }) ∧
    (x.absent = true → x.missed = 0 → (s.time.link p).upState = 2 ∨ (s.time.link p).upState = 3 →
      ∃ t, exec (.absentClear p) s = .next t ∧ PortNow s t p { x with absent := false }) ∧
    (x.link = 2 → Whole f 5 → f.tag.toNat / 2 ^ 28 % 2 = 0 → dest ≠ s.chip.cmd.chip.toNat →
      (hops = 0 → exec (.openMessageReceive p (.flit f)) s = .next (withPort s p { x with openDrop := satInc x.openDrop 1 })) ∧
      (hops ≠ 0 → route = 128 + q.toNat → (s.chip.port q).absent = false →
        let y := s.chip.port q
        let tag := BitVec.ofNat 32 (dest + 2 ^ 20 * (hops - 1))
        let m : OpenMsg := { cls := .transit, flit := { f with tag := tag }, since := s.now }
        exec (.openMessageReceive p (.flit f)) s = .next (withPort s q { y with waiting := y.waiting ++ [m] }))) ∧
    (x.link = 2 → 2 ≤ slot.toNat → slot.toNat ≤ 15 →
      (x.waiting = [] → exec (.openSlotGrant p frame slot) s =
        .next (withPort s p { x with wire := some (frame.toNat, slot.toNat, sent Flit.empty) })) ∧
      (∀ m pre post, x.waiting = pre ++ m :: post → m.sender = none → s.chip.cmd.waiting = [] → (∀ y ∈ pre, m.cls.rank < y.cls.rank) →
        (∀ y ∈ post, m.cls.rank ≤ y.cls.rank) → m ∉ pre →
        exec (.openSlotGrant p frame slot) s =
          .next (withPort s p { x with waiting := pre ++ post, wire := some (frame.toNat, slot.toNat, sent m.flit) })))

/-- Sealed channels (R424): an acknowledgement that has arrived frees its chunk, a resend request puts the chunk in front of what waits to
be sent, and the chunks accepted since the last acknowledgement are acknowledged by open messages. -/
def Sys2Proof.Claims.SealedChannels : Prop :=
  ∀ (s : State) (g : GroupId) (chunk : BitVec 32) (ch : Channel) (grp : Group) (op : CollOp) (o : OutChunk),
    tblFind s.chip.coll.channels g.toNat = some ch → s.chip.group g = some grp → grp.op = some op →
    (ch.inbox = [(chunk, false)] → ch.unacked = [o] → o.number = chunk →
      ∃ t, exec (.sealedResendRequest g chunk false) s = .next t ∧
        tblFind t.chip.coll.channels g.toNat = some { ch with inbox := [], unacked := [] } ∧ t.chip.group g = some grp) ∧
    (ch.inbox = [(chunk, true)] → ch.unacked = [o] → o.number = chunk →
      ∃ t, exec (.sealedResendRequest g chunk true) s = .next t ∧
        tblFind t.chip.coll.channels g.toNat = some { ch with inbox := [], unacked := [] } ∧
        t.chip.group g = some { grp with op := some { op with queue := o :: op.queue } }) ∧
    (∃ t, exec (.sealedAcknowledgement g) s = .next t ∧ tblFind t.chip.coll.channels g.toNat = some { ch with accepted := [] } ∧
      t.chip.group g = some grp ∧ t.chip.fab.chunk = s.chip.fab.chunk + BitVec.ofNat 32 ch.accepted.length)

namespace Sys2Proof.Claims

open Sys2Proof.Machine

/-- Group `g` has an operation whose step is open. -/
abbrev Open (s : State) (g : GroupId) (grp : Group) (op : CollOp) (run : OpenStep) : Prop :=
  s.chip.group g = some grp ∧ grp.op = some op ∧ op.cur = some run

/-- In `t` group `g` is `grp` with the operation `op` and the open step `run`. -/
def Becomes (t : State) (g : GroupId) (grp : Group) (op : CollOp) (run : OpenStep) : Prop :=
  t.chip.group g = some { grp with op := some { op with cur := some run } }

/-- No segment's ready word stands at the open step, and no chunk has come early: the engine's reading finds nothing new (R432). -/
abbrev Quiet (s : State) (grp : Group) (op : CollOp) (run : OpenStep) : Prop :=
  op.early = [] ∧ op.segs.length = run.segs.length ∧
  ∀ i (h : i < op.segs.length) (h' : i < run.segs.length), run.segs[i].taken = true ∨ run.segs[i].late = true ∨
    s.chip.vreadLe grp.tenant op.segs[i].control 4 ≠ run.step.toNat % 2 ^ 32

/-- Nothing that the chip is to receive in the open step is missing, of the sums (`res` false) or of the results. -/
abbrev AllGot (s : State) (g : GroupId) (grp : Group) (op : CollOp) (run : OpenStep) (res : Bool) : Prop :=
  ∀ si < op.segs.length, ∀ u ∈ recvUnits grp op (s.chip.sealedGroup g) si, u.res = res → u ∈ run.got

end Sys2Proof.Claims

/-- The instants of a step (R438, R439, R441, R442, R446): at H a contribution that is not ready is late and the sums go on without it; at
D and at X the step passes them, with nothing lost when everything has arrived; an exact step that runs past its limit ends with
`TIMEOUT` in every control block; at the boundary COL_GSTATn shows the step with its worst status and the next step may open. -/
def Sys2Proof.Claims.StepInstants : Prop :=
  ∀ (s : State) (g : GroupId) (grp : Group) (op : CollOp) (run : OpenStep), Open s g grp op run → run.ended = false →
    let ns := s.time.ht.toNat / 64
    (∀ seg r, grp.exact = false → op.kind ≤ 2 → op.direct = false → op.segs = [seg] → run.segs = [r] → r.settled = false →
      r.taken = false → r.late = false → r.vals = none → run.held = [] → op.deferred = [] → Quiet s grp op run → run.passedH = false →
      run.deadline - op.margin ≤ ns →
      ∃ t grp' op' run' r', exec (.holdLimit g) s = .next t ∧ Open t g grp' op' run' ∧ grp'.late = true ∧ run'.passedH = true ∧
        run'.segs = [r'] ∧ r'.late = true ∧ r'.settled = true ∧ r'.vals = none ∧
        tblFind op'.deferred 0 = some { step := run.step, drop := grp.drop }) ∧
    (grp.exact = false → op.kind ≠ 7 → Quiet s grp op run → run.passedH = true → AllGot s g grp op run false → run.deadline ≤ ns →
      run.passedD = false →
      ∃ t, exec (.stepDeadline g) s = .next t ∧ Becomes t g grp op { run with passedD := true } ∧ t.chip.mem = s.chip.mem) ∧
    (grp.exact = false → op.kind ≠ 7 → Quiet s grp op run → run.passedH = true → run.passedD = true → AllGot s g grp op run true →
      run.deadline + op.margin ≤ ns → run.passedX = false →
      ∃ t, exec (.stepEnd g) s = .next t ∧ Becomes t g grp op { run with passedX := true } ∧ t.chip.mem = s.chip.mem) ∧
    (∀ seg r, grp.exact = true → op.kind ≠ 7 → op.segs = [seg] → run.segs = [r] → r.done = false →
      run.deadline + 1000 * (if grp.limit = 0 then 1000000 else grp.limit) ≤ ns →
      ∃ t, exec (.exactLimit g) s = .next t ∧
        Becomes t g grp op { run with ended := true, segs := [{ r with done := true, status := 12 }] }) ∧
    ((∀ r ∈ run.segs, r.done = true) → s.chip.coll.heldPreempts = [] →
      ∃ t, exec (.collectiveStepBoundary g) s = .next t ∧ t.chip.group g = some { grp with
        step := run.step.setWidth 32, last := BitVec.ofNat 16 (run.segs.foldl (fun (a : Nat) x => max a x.status.toNat) 0)
        op := some { op with cur := none, step := op.step + 1 } })

/-- A late contribution that becomes ready (R439, R440): under policy `drop` it is taken and never added; under `defer`, when it is finite,
its elements are kept for the next step. -/
def Sys2Proof.Claims.LateContributions : Prop :=
  ∀ (s : State) (g : GroupId) (seg : BitVec 12) (grp : Group) (op : CollOp) (d : Deferred),
    let sg := op.seg seg.toNat
    s.chip.group g = some grp → grp.op = some op → tblFind op.deferred seg.toNat = some d → d.vals = none →
    s.chip.vreadLe grp.tenant sg.control 4 = d.step.toNat % 2 ^ 32 →
    let taken := s.chip.vwrite grp.tenant (sg.control + 4) (leBytes 4 d.step.toNat)
    (d.drop = true → ∃ t, exec (.lateContributionReady g seg) s = .next t ∧
      t.chip.group g = some { grp with op := some { op with deferred := tblErase op.deferred seg.toNat } } ∧ t.chip.mem = taken.mem) ∧
    (d.drop = false → op.direct = false → (taken.localNonFinite g grp).1 = false →
      ∃ t, exec (.lateContributionReady g seg) s = .next t ∧ t.chip.group g = some { grp with
        op := some { op with deferred := tblSet op.deferred seg.toNat { d with vals := some (taken.readSource grp op seg.toNat) } } }) ∧
    (d.drop = false → op.operator ≤ 1 → (taken.localNonFinite g grp).1 = true →
      ∃ t, exec (.lateContributionReady g seg) s = .next t ∧ t.chip.group g = some { grp with
        withheld := true, op := some { op with deferred := tblErase op.deferred seg.toNat } })

/-- Eyespot units (R474 to R478): a unit writes its oldest queued stamp to its buffer; the first one of its trigger source sets the
freeze POST · 256 ns later; past that instant the unit freezes; an edge of a pin at its polarity is stamped in every unit that runs, less
the pin's delay, but not within 2 ns of the last one. -/
def Sys2Proof.Claims.Eyespot : Prop :=
  ∀ (s : State) (d : DieId) (u : Eye) (st : Stamp) (rest : List Stamp) (pin : BitVec 2) (rising : Bool) (p : EyePin),
    let now := s.time.ht.toNat
    s.chip.eye.units[d.toNat]? = some u →
    (u.queue = st :: rest → u.buf.length < 65536 → u.mode ≠ 2 →
      (u.trigEn = false ∨ u.tsrc ≠ st.source.toNat → u.freeze = BitVec.allOnes 64 →
        ∃ t, exec (.eyeStamp d) s = .next t ∧ t.chip.eyeUnit d = { u with queue := rest, buf := u.buf ++ [st] }) ∧
      (u.trigEn = true → u.fired = false → u.tsrc = st.source.toNat → u.tsrc ≤ 67 → u.frozen = false → u.freeze = BitVec.allOnes 64 →
        u.buf = [] → st.time / 64 + u.post * 256 + 64 < 2 ^ 64 →
        ∃ t, exec (.eyeStamp d) s = .next t ∧ (t.chip.eyeUnit d).fired = true ∧
          (t.chip.eyeUnit d).freeze = BitVec.ofNat 64 (st.time / 64 + u.post * 256))) ∧
    (u.freeze ≠ BitVec.allOnes 64 → u.frozen = false → 64 * u.freeze.toNat < now →
      ∃ t, exec (.eyeFreeze d) s = .next t ∧ t.chip.eyeUnit d =
        { u with frozen := true, queue := u.queue.filter (fun x => decide (x.time ≤ 64 * u.freeze.toNat)) }) ∧
    (s.chip.eye.pins[pin.toNat]? = some p → p.enable.getLsbD 0 = true → p.polarity = (if rising then 0 else 1) →
      u.ctl.getLsbD 0 = true → u.frozen = false → u.stopped = false → u.queue = [] → u.gap = false →
      (p.last = none → ∃ t x, exec (.evtEdge pin rising) s = .next t ∧ t.chip.eyeUnit d = { u with queue := [x] } ∧
        x.source.toNat = 64 + pin.toNat ∧ x.edge = rising ∧ (x.time : Int) = max 0 ((now : Int) - p.delay.toInt)) ∧
      (∀ t0, p.last = some t0 → now < t0 + 128 → ∃ t, exec (.evtEdge pin rising) s = .next t ∧
        t.chip.eyeUnit d = { u with lost := satInc u.lost 1, gap := true }))

namespace Sys2Proof.Claims

open Sys2Proof.Machine

/-- A master with the device owner's rights (R486, R501). -/
abbrev OwnerRights (s : State) (m : Master) : Prop := Chip.confined s.chip m = none

/-- The state with a ring replaced. -/
def withRing (s : State) (n : RingId) (r : Ring) : State :=
  { s with chip := { s.chip with cmd := { s.chip.cmd with rings := tblSet s.chip.cmd.rings n.toNat r } } }

/-- The chip is another, and nothing else. -/
def chipNow (s : State) (c : Chip) : State := { s with chip := c }

/-- An access of plain memory, by a core that no tenant confines and that meets no poison (R324, R354). -/
abbrev PlainAccess (s : State) (a : AppId) (addr n : Nat) : Prop :=
  addr + n ≤ 0x8000000000000 ∧ Chip.appTenant s.chip a = none ∧ s.chip.mem.poisonIn addr n = false ∧
  s.chip.mem.populated addr = true ∧ s.chip.mem.populated (addr + n - 1) = true

end Sys2Proof.Claims

/-- Rings by their registers (R482 to R484, R486, Table 20.2): a doorbell moves TAIL, which an enabled ring takes unless it would hold more
packets than slots (then OVERRUN); a disabled ring takes none; enabling a ring sets its base and size and clears its four indices; CBASE of an
enabled ring only disables it; a write of RTAIL frees reply slots. -/
def Sys2Proof.Claims.RingRegisters : Prop :=
  ∀ (s : State) (m : Master) (n : RingId) (v : BitVec 64), OwnerRights s m → n.toNat < 4112 →
    let r := s.chip.ring n
    let tail := v.setWidth 32
    (r.enabled = false → exec (.doorbell m n v) s = .next (withRing s n r)) ∧
    (r.enabled = true → ∃ t e, exec (.doorbell m n v) s = .next t ∧
      t = { (withRing s n (if 2 ^ r.clog.toNat < (tail - r.head).toNat then { r with overrun := true } else { r with tail := tail })) with
        chip.eye := e }) ∧
    (∀ (base : BitVec 44) (log : BitVec 4) (hi : BitVec 12), v = hi ++ base ++ 0#3 ++ log ++ 1#1 → 4 ≤ log.toNat → log.toNat ≤ 12 →
      r.enabled = false → exec (.cmdRingEnable m n v) s =
        .next (withRing s n { r with cbase := base ++ 0#1, clog := log, enabled := true, tail := 0, head := 0, rtail := 0, rhead := 0 })) ∧
    (r.enabled = true → exec (.cmdRingEnable m n v) s = .next (withRing s n { r with enabled := v.getLsbD 0 })) ∧
    (r.unsent = [] → s.chip.cmd.queue = [] → exec (.cmdRtailWrite m n v) s = .next (withRing s n { r with rtail := tail }))

/-- Registers (R9, R380, R475, R480, R500 to R502, R505): HT_NOW latches HT_FRAC for its master alone; a write of HT_CFG with a DOMAIN above 127
changes nothing, one that moves the root or its ports waits for a frame boundary, any other holds at once; EYE_MARK stamps source 48 + MARK;
EYE_CTL with RUN clears its unit; a read-only register and an address that no row names take nothing; PWR_IN keeps the preferred input. -/
def Sys2Proof.Claims.Registers : Prop :=
  ∀ (s : State) (m : Master) (v : BitVec 64), OwnerRights s m →
    (∃ t, exec (.htNowRead m) s = .next t ∧ tblFind t.chip.returned m.num = some (BitVec.ofNat 64 (s.time.ht.toNat / 64)) ∧
      tblFind t.time.frac m.num = some (BitVec.ofNat 6 s.time.ht.toNat) ∧
      (∀ x : Master, x.num ≠ m.num → tblFind t.time.frac x.num = tblFind s.time.frac x.num) ∧ t.time.ht = s.time.ht ∧
      { t.chip with returned := s.chip.returned } = s.chip) ∧
    (∀ (c : HtCfg) (gap : BitVec 17), v = c.hold ++ c.rootBound ++ c.domain ++ c.secondary ++ c.primary ++ gap ++ BitVec.ofBool c.secEn ++
        BitVec.ofBool c.priEn ++ BitVec.ofBool c.root →
      let now := s.htRegs.cfg
      let same : Prop := c.root = now.root ∧ c.primary = now.primary ∧ c.secondary = now.secondary ∧ c.priEn = now.priEn ∧ c.secEn = now.secEn
      (127 < c.domain.toNat → exec (.htCfgWrite m v) s = .next s) ∧
      (c.domain.toNat ≤ 127 → same → exec (.htCfgWrite m v) s = .next { s with htRegs := { s.htRegs with cfg := c, waiting := none } }) ∧
      (c.domain.toNat ≤ 127 → ¬same → exec (.htCfgWrite m v) s = .next { s with htRegs := { s.htRegs with waiting := some c } })) ∧
    (∀ (d : DieId) (u : Eye), s.chip.eye.units[d.toNat]? = some u →
      (u.ctl.getLsbD 0 = true → u.frozen = false → u.stopped = false → u.queue = [] → u.gap = false →
        u.src.getLsbD (48 + v.toNat / 2 ^ 32 % 16) = true →
        ∃ t x, exec (.eyeMarkWrite m v) s = .next t ∧ t.chip.eyeUnit d = { u with queue := [x] } ∧
          x.source.toNat = 48 + v.toNat / 2 ^ 32 % 16 ∧ x.data = v.setWidth 32 ∧ x.time = s.time.ht.toNat) ∧
      ∃ t, exec (.eyeCtlWrite m d v) s = .next t ∧ (∀ i, i ≠ d → t.chip.eyeUnit i = s.chip.eyeUnit i) ∧
        t.chip.eyeUnit d = if v.getLsbD 0 = true then { u with
          ctl := v, buf := [], queue := [], frozen := false, freeze := BitVec.allOnes 64, fired := false, stopped := false, gap := false }
          else { u with ctl := v }) ∧
    exec (.registerWrite m 0x000000 v) s = .next s ∧ exec (.registerWrite m 0xA00000 v) s = .next s ∧
    exec (.registerWrite m 0x800018 v) s = .next (chipNow s { s.chip with power := { s.chip.power with
      tjLimit := if 85 ≤ v.toNat / 256 % 256 ∧ v.toNat / 256 % 256 ≤ 110 then v.extractLsb' 8 8 else s.chip.power.tjLimit
      sustained := if 16 ≤ v.toNat % 64 ∧ v.toNat % 64 ≤ 48 then v.setWidth 6 else s.chip.power.sustained } }) ∧
    exec (.registerWrite m 0x600008 v) s = .next (chipNow s { s.chip with xlt := { s.chip.xlt with
      violations := s.chip.xlt.violations &&& ~~~(v.setWidth 32) } }) ∧
    exec (.registerWrite m 0x0F0000 v) s = .next (chipNow s { s.chip with mem := { s.chip.mem with
      unpopulated := satInc s.chip.mem.unpopulated 1 } }) ∧
    (s.chip.power.okOf (!s.chip.power.active) = false →
      exec (.prefWrite m v) s = .next (chipNow s { s.chip with power := { s.chip.power with
        pref := v.getLsbD 4, switches := s.chip.power.switches &&& ~~~(v.extractLsb' 16 16), lost := s.chip.power.lost && !v.getLsbD 0 } }))

/-- Application cores (R354, R370, R373, R486, R501, R355): an unbound core loads and stores memory byte by byte, its atomics return the old value and
write the new one, a store-conditional writes and returns 0 while its reservation of the granule stands and returns 1 without it; an exception
ends the reservation; a core bound to a tenant that reaches a register beyond its rights reads zero and is counted as a violation of kind 6. -/
def Obligations.ApplicationCores : Prop :=
  ∀ (s : State) (a : AppId) (addr : BitVec 52) (log2 : BitVec 2) (v : BitVec 64) (wide : Bool),
    let p := addr.toNat
    let n := 2 ^ log2.toNat
    let w := if wide then 8 else 4
    let got (t : State) : Option W64 := tblFind t.chip.returned (3 + a.toNat)
    let same (t : State) (lo len : Nat) : Prop := ∀ x, x < lo ∨ lo + len ≤ x → t.chip.mem.bytes.get x = s.chip.mem.bytes.get x
    let old := s.chip.mem.bytes.readLe p w
    let seen : W64 := if wide then BitVec.ofNat 64 old else (BitVec.ofNat 32 old).signExtend 64
    (PlainAccess s a p n → ∃ t, exec (.applicationCoreAccess a (.load addr log2)) s = .next t ∧
      got t = some (BitVec.ofNat 64 (s.chip.mem.bytes.readLe p n)) ∧ t.chip.mem = s.chip.mem) ∧
    (PlainAccess s a p n → p % n = 0 → ∃ t, exec (.applicationCoreAccess a (.store addr log2 v)) s = .next t ∧
      t.chip.mem.bytes.readLe p n = v.toNat % 2 ^ (8 * n) ∧ same t p n ∧ t.chip.returned = s.chip.returned) ∧
    (PlainAccess s a p w → p % w = 0 → ∃ t, exec (.applicationCoreAccess a (.amo 1 addr wide v)) s = .next t ∧ got t = some seen ∧
      t.chip.mem.bytes.readLe p w = (old + v.toNat) % 2 ^ (8 * w) ∧ same t p w) ∧
    (PlainAccess s a p w → ∃ t, exec (.applicationCoreAccess a (.lr addr wide)) s = .next t ∧ got t = some seen ∧
      tblFind t.chip.reservations a.toNat = some (p / 64) ∧ t.chip.mem = s.chip.mem) ∧
    (PlainAccess s a p w → p % w = 0 → ∃ t, exec (.applicationCoreAccess a (.sc addr wide v)) s = .next t ∧
      tblFind t.chip.reservations a.toNat = none ∧
      (tblFind s.chip.reservations a.toNat = some (p / 64) → got t = some 0 ∧ t.chip.mem.bytes.readLe p w = v.toNat % 2 ^ (8 * w) ∧
        same t p w) ∧
      (tblFind s.chip.reservations a.toNat ≠ some (p / 64) → got t = some 1 ∧ t.chip.mem = s.chip.mem)) ∧
    (∃ t, exec (.applicationCoreAccess a .exception) s = .next t ∧ tblFind t.chip.reservations a.toNat = none ∧ t.chip.mem = s.chip.mem) ∧
    (∀ t0 : TenantId, Chip.appTenant s.chip a = some t0 → addr = 0x8000000800000 →
      ∃ t, exec (.applicationCoreAccess a (.load addr 3)) s = .next t ∧ got t = some 0 ∧ t.chip.mem = s.chip.mem ∧
        t.chip.xlt = { s.chip.xlt with lastTenant := t0, lastKind := 6, violations := satInc s.chip.xlt.violations 1 })

namespace Sys2Proof.Claims

open Sys2Proof.Machine

/-- `t` is `s` but for the power unit `p`, and eyespot stamps. -/
def PowerNow (s t : State) (p : Power) : Prop := ∃ e : EyeState, t = { s with chip := { s.chip with power := p, eye := e } }

/-- `t` is `s` but for sector `n`, and eyespot stamps. -/
def SectorNow (s t : State) (n : SectorId) (x : Sector) : Prop :=
  PowerNow s t { s.chip.power with sectors := tblSet s.chip.power.sectors n.toNat x }

/-- No core of a cluster has anything to do, and no stream of it runs (R516). -/
abbrev ClusterIdle (s : State) (cl : ClusterId) : Prop :=
  (∀ id ∈ coresOf cl, (s.chip.core id).quiet = true) ∧ (s.chip.cluster cl).streams.any Stream.active = false ∧
  s.chip.wakesCluster s.env cl = false

/-- Everything a reset that keeps only fuses and SPI NOR leaves at its reset value (Table 22.2). -/
def AtReset (t : State) : Prop :=
  t.chip.mem = {} ∧ t.chip.cores = [] ∧ t.chip.clusters = [] ∧ t.chip.tenants = [] ∧ t.chip.jobs = [] ∧ t.chip.coll = {} ∧
  t.chip.cmd = {} ∧ t.chip.xlt = {} ∧ t.chip.fab = {} ∧ t.chip.eye = {} ∧ t.chip.barriers = [] ∧ t.chip.power.sectors = [] ∧
  t.time = {} ∧ t.htRegs = {}

end Sys2Proof.Claims

/-- Supply inputs (R504 to R506): an input that stops being usable is marked LOST, and the moment at which none is left is noted; the switch
goes to the other input when the active one is not usable, or the preferred one is the other, and counts; a usable input comes back. -/
def Sys2Proof.Claims.SupplyInputs : Prop :=
  ∀ (s : State),
    let p := s.chip.power
    (p.aOk = true → exec (.inputLoss false) s = .next (chipNow s { s.chip with power := { p with
        aOk := false, lost := true, noneSince := if p.bOk then none else some s.now } })) ∧
    (p.bOk = true → exec (.inputLoss true) s = .next (chipNow s { s.chip with power := { p with
        bOk := false, lost := true, noneSince := if p.aOk then none else some s.now } })) ∧
    exec (.inputRestore false) s = .next (chipNow s { s.chip with power := { p with aOk := true, noneSince := none } }) ∧
    exec (.inputRestore true) s = .next (chipNow s { s.chip with power := { p with bOk := true, noneSince := none } }) ∧
    (p.active = false → p.bOk = true → p.aOk = false ∨ p.pref = true → ∃ t, exec .supplySwitchOver s = .next t ∧
      PowerNow s t { p with active := true, switches := satInc p.switches 1, lost := p.lost || !p.aOk }) ∧
    (p.active = true → p.aOk = true → p.bOk = false ∨ p.pref = false → ∃ t, exec .supplySwitchOver s = .next t ∧
      PowerNow s t { p with active := false, switches := satInc p.switches 1, lost := p.lost || !p.bOk }) ∧
    (p.active = false → p.aOk = true → p.pref = false ∨ p.bOk = false → exec .supplySwitchOver s = .next s)

/-- Resets (R506, R526, R543, R572, R574, Table 22.2): power-on samples the straps; 20 µs without an input take the power-loss reset; the
THERMTRIP_N of a thermal trip stays until TJ_MAX is below 95 °C; SMBus code 0x20 takes a cold reset on 0xC5 alone. Each of them leaves
everything but fuses at its reset value. -/
def Sys2Proof.Claims.FullResets : Prop :=
  ∀ (s : State) (pos cool : BitVec 2) (tj : Byte),
    (∃ t, exec (.powerOnReset pos cool) s = .next t ∧ AtReset t ∧
      t.chip.sys = { kind := .powerOn, fuses := s.chip.sys.fuses, straps := pos, cool := cool, refclk := s.chip.sys.refclk,
                       repairs := s.chip.sys.repairs }) ∧
    (∀ t0, s.chip.power.noneSince = some t0 →
      (t0 + 1280000 ≤ s.now → ∃ t, exec .powerLossReset s = .next t ∧ AtReset t ∧ t.chip.sys.kind = .powerOn ∧
        t.chip.sys.fuses = s.chip.sys.fuses ∧ t.chip.sys.ended = 0 ∧ t.chip.sys.thermtrip = false) ∧
      (s.now < t0 + 1280000 → exec .powerLossReset s = .next s)) ∧
    (s.chip.sys.tripped = true → tj.toNat < 95 → exec (.thermalTripRecovery tj) s = .next (chipNow s { s.chip with
      sys := { s.chip.sys with tripped := false, thermtrip := false }, power := { s.chip.power with tjMax := tj } })) ∧
    (s.chip.sys.tripped = true → 95 ≤ tj.toNat → exec (.thermalTripRecovery tj) s = .next s) ∧
    (s.chip.sys.tripped = false → ∃ t, exec (.smbusColdReset 0xC5) s = .next t ∧ AtReset t ∧ t.chip.sys.kind = .cold ∧
      t.chip.sys.fuses = s.chip.sys.fuses) ∧
    (tj ≠ 0xC5 → exec (.smbusColdReset tj) s = .next s)

/-- The thermal trip (R514, R574): a junction at or above 125 °C takes the reset, whatever stretch its sector applies and whatever else
the chip does; a cooler one leaves everything as it is. -/
def Obligations.ThermalTrip : Prop :=
  ∀ (s : State) (n : SectorId) (tj : Byte),
    (125 ≤ tj.toNat → ∃ t, exec (.thermalTrip n tj) s = .next t ∧ AtReset t ∧ t.chip.sys.kind = .thermalTrip ∧
      t.chip.sys.thermtrip = true ∧ t.chip.sys.tripped = true ∧ t.chip.sys.fuses = s.chip.sys.fuses) ∧
    (tj.toNat < 125 → exec (.thermalTrip n tj) s = .next s)

/-- Operating points and stretches (R508, R509, R511 to R514, Tables 21.2 and 21.3): a sector that exact mode does not pin moves to its target at the
voltage of the point; a droop asks for a stretch of 16, which falls by 1 each 100 ns; a junction at TJ_LIMIT raises the thermal request by 4 and
one 3 °C below it lowers it by 1, each 10 µs; power above LIMIT raises the requests by 2, to at most 48; each takes a part in the sector's stretch. -/
def Sys2Proof.Claims.Throttling : Prop :=
  ∀ (s : State) (n : SectorId) (tj : Byte) (watts : W16),
    let x := s.chip.sector n
    let p := s.chip.power
    let up (v : BitVec 6) (k : Nat) : BitVec 6 := BitVec.ofNat 6 (min 48 (v.toNat + k))
    let down (v : BitVec 6) : BitVec 6 := BitVec.ofNat 6 (v.toNat - 1)
    let job : Prop := x.exact = false
    (x.exact = false → ∃ t y, exec (.operatingPointChange n) s = .next t ∧ t.chip.sector n = y ∧ y.clock = x.target ∧ y.target = x.target ∧
      (x.target = 16 → y.mv = 550) ∧ (x.target = 24 → y.mv = 600) ∧ (x.target = 32 → y.mv = 660) ∧ (x.target = 40 → y.mv = 720) ∧
      (x.target = 48 → y.mv = 820) ∧ ∀ i, i ≠ n → t.chip.sector i = s.chip.sector i) ∧
    (x.exact = true → exec (.operatingPointChange n) s = .next (chipNow s (s.chip.setSector n x))) ∧
    (job → ∃ t, exec (.droop n) s = .next t ∧ SectorNow s t n { x with droop := 16, droopAt := s.now }) ∧
    (job → x.droop ≠ 0 → x.droopAt + 6400 ≤ s.now →
      ∃ t, exec (.droopDecay n) s = .next t ∧ SectorNow s t n { x with droop := down x.droop, droopAt := s.now }) ∧
    (job → x.thermalAt + 640000 ≤ s.now → ∃ t y, exec (.thermalControl n tj) s = .next t ∧ t.chip.sector n = y ∧ y.tj = tj ∧
      (p.tjLimit.toNat ≤ tj.toNat → y.thermal = up x.thermal 4) ∧ (tj.toNat + 3 ≤ p.tjLimit.toNat → y.thermal = down x.thermal) ∧
      (tj.toNat < p.tjLimit.toNat → p.tjLimit.toNat < tj.toNat + 3 → y.thermal = x.thermal) ∧ y.droop = x.droop ∧ y.power = x.power) ∧
    (job → p.sectors = [(n.toNat, x)] → p.powerAt + 64000 ≤ s.now → x.st = .running → p.limitEn = true →
      ∃ t, exec (.powerControl watts) s = .next t ∧ t.chip.power.avg = watts ∧ p.peak.toNat ≤ t.chip.power.peak.toNat ∧
        (p.limit.toNat < watts.toNat → (t.chip.sector n).power = up x.power 2 ∧ t.chip.power.appClock.toNat ≤ p.appClock.toNat) ∧
        (watts.toNat * 100 < p.limit.toNat * 98 → (t.chip.sector n).power = down x.power ∧ p.appClock.toNat ≤ t.chip.power.appClock.toNat) ∧
        (p.limit.toNat * 98 ≤ watts.toNat * 100 → watts.toNat ≤ p.limit.toNat →
          (t.chip.sector n).power = x.power ∧ t.chip.power.appClock = p.appClock))

/-- Gating and sleep (R516 to R519): an idle cluster gates its clock and its sector notes when all 64 have; a wake source ungates it; a sector gated
for SLEEP_DELAY sleeps and a wake source starts its clock, after which it runs and counts a wake. Cores that do not run issue nothing. -/
def Obligations.GatingAndSleep : Prop :=
  ∀ (s : State) (cl : ClusterId) (n : SectorId),
    let x := s.chip.cluster cl
    let y := s.chip.sector n
    let wanted : Prop := (clustersOfSector n).any (s.chip.wakesCluster s.env) = true
    (x.gated = false → ClusterIdle s cl → ∃ t, exec (.clusterGate cl) s = .next t ∧ t.chip.cluster cl = { x with gated := true } ∧
      (∀ id, clusterOf id = cl → t.chip.coreRuns id = false) ∧ t.chip.cores = s.chip.cores) ∧
    (s.chip.wakesCluster s.env cl = true → exec (.clusterGate cl) s = .next s) ∧
    (x.gated = true → (s.chip.sector (clusterSector cl)).st = .running → s.chip.wakesCluster s.env cl = true →
      ∃ t, exec (.clusterUngate cl) s = .next t ∧ t.chip.cluster cl = { x with gated := false } ∧
        (t.chip.sector (clusterSector cl)).gatedSince = none) ∧
    (∀ t0, y.gatedSince = some t0 → y.st = .running → t0 + 64000 * s.chip.power.sleepDelay.toNat ≤ s.now → ¬wanted →
      ∃ t, exec (.sectorSleep n) s = .next t ∧ SectorNow s t n { y with st := .asleep } ∧ ∀ id, sectorOf id = n → t.chip.coreRuns id = false) ∧
    (y.st = .asleep → wanted → exec (.sectorWake n) s = .next (chipNow s (s.chip.setSector n { y with st := .waking }))) ∧
    (y.st = .waking → y.exact = false → ∃ t, exec (.sectorWake n) s = .next t ∧
      SectorNow s t n { y with st := .running, wakes := satInc y.wakes 1 })

/-- The stages of start-up (R524, R525, R357, Tables 22.1 and 22.9): a stage ends once those that it depends on have, in any order that they allow; bad images
and a failed stack stop the chip in BOOT_FAIL with the stage; a self-test fault of the system leaves READY with its status; a chip whose eight
stages have ended is READY. -/
def Sys2Proof.Claims.StartUp : Prop :=
  ∀ (s : State) (fromB : Bool) (absent : BitVec 16) (cap : Byte) (caps : List Nat) (up : BitVec 64),
    let c := s.chip
    let y := c.sys
    let open' (n : Nat) : Prop := y.stageOpen n = true
    let ends (r : BootResult) (n : Nat) : Prop := ∃ t, exec (.bootStageEnd r) s = .next t ∧ t.chip.sys.ended = y.ended ||| (1#8 <<< n) ∧
      t.chip.cores = c.cores ∧ t.time = s.time
    (y.ended = 0 → y.bootFail = false → y.tripped = false → y.failQuiet = false → open' 0 ∧ ∀ n, 0 < n → n < 8 → ¬open' n) ∧
    (y.tripped = true → ∀ n, ¬open' n) ∧ (y.ended = 0xFE → y.bootFail = false → y.stage = 0) ∧ (y.ended = 0xFF → y.bootFail = false → y.ready = true) ∧
    (open' 0 → c.power.aOk = true → ends .supplies 0) ∧ (open' 1 → ends (.image fromB) 1) ∧ (open' 2 → ends (.repairTable []) 2) ∧
    (open' 3 → ends (.memory cap absent) 3) ∧ (open' 4 → ends (.ports caps) 4) ∧ (open' 5 → ends (.links up) 5) ∧
    (open' 6 → ends (.selfTest []) 6) ∧ (open' 7 → ends (.system true) 7) ∧
    (open' 1 → ∃ t, exec (.bootStageEnd .imagesBad) s = .next t ∧ t.chip.sys.bootFail = true ∧ t.chip.sys.failedStage = 1 ∧
      t.chip.sys.stage = 9 ∧ t.chip.sys.alert = true) ∧
    (open' 3 → ∃ t, exec (.bootStageEnd .stackFailed) s = .next t ∧ t.chip.sys = { y with bootFail := true, failedStage := 3, status := 14 }) ∧
    (open' 7 → ∃ t, exec (.bootStageEnd (.system false)) s = .next t ∧ t.chip.sys.failedStage = 7 ∧ t.chip.sys.bootFail = y.bootFail) ∧
    (y.stageOpen 3 = false → exec (.bootStageEnd .stackFailed) s = .next s)

/-- Pins (R543, R563, R570): SMBus reads REP_BOOT and REP_STATE; the test access port answers IDCODE 0x1810045B, and while READY every other
instruction acts as BYPASS; without the reference clock no link is up, and its return lets links train. -/
def Sys2Proof.Claims.Pins : Prop :=
  ∀ (s : State),
    let y := s.chip.sys
    let sysNow (z : Sys) : Host.Outcome State Fault Refusal := .next (chipNow s { s.chip with sys := z })
    (∃ t, exec .smbusReadBoot s = .next t ∧ t = chipNow s { s.chip with sys := { y with smbus := t.chip.sys.smbus } } ∧
      t.chip.sys.smbus.toNat % 16 = y.stage ∧ t.chip.sys.smbus.toNat / 16 % 16 = y.failedStage.toNat ∧
      t.chip.sys.smbus.toNat / 2 ^ 16 % 2 ^ 16 = y.status.toNat) ∧
    (∃ t, exec .smbusReadState s = .next t ∧ t = chipNow s { s.chip with sys := { y with smbus := t.chip.sys.smbus } } ∧
      t.chip.sys.smbus.getLsbD 0 = y.imageB ∧ t.chip.sys.smbus.getLsbD 5 = y.mpLost ∧ t.chip.sys.smbus.getLsbD 6 = y.failQuiet ∧
      t.chip.sys.smbus.toNat / 2 ^ 32 = y.switches.toNat) ∧
    exec .jtagIdcode s = sysNow { y with tap := 1, tdo := 0x1810045B, boundary := false } ∧
    exec .jtagBypass s = sysNow { y with tap := 0, tdo := 0, boundary := false } ∧
    (y.ready = true → exec .jtagExtest s = sysNow { y with tap := 0, tdo := 0, boundary := false } ∧
      exec .jtagSamplePreload s = sysNow { y with tap := 0, tdo := 0, boundary := false }) ∧
    (y.ready = false → exec .jtagExtest s = sysNow { y with tap := 3, tdo := 0, boundary := true } ∧
      exec .jtagSamplePreload s = sysNow { y with tap := 2, tdo := 0, boundary := false }) ∧
    (∃ t, exec .referenceClockLoss s = .next t ∧ t.chip.sys = { y with refclk := false } ∧ t.chip.mem = s.chip.mem ∧
      ∀ p, (t.chip.port p).link ≠ 2) ∧
    (∃ t, exec .referenceClockReturn s = .next t ∧ t.chip.sys = { y with refclk := true } ∧ t.chip.mem = s.chip.mem ∧
      ∀ p, (s.chip.port p).link = 1 → (t.chip.port p).link = 2)

namespace Sys2Proof.Claims

open Sys2Proof.Machine

/-- Job `h` is `j`, with the moult `m` armed under the plan `p`. -/
abbrev Moulting (s : State) (h : JobId) (j : Job) (m : Moult) (p : Plan) : Prop :=
  s.chip.job h = some j ∧ j.moult = some m ∧ j.plan = some p

/-- Job `h` is `j`, with the mode change `m` armed on group `g`, the only one. -/
abbrev Changing (s : State) (g : GroupId) (h : JobId) (j : Job) (m : ModeChange) : Prop :=
  s.chip.jobs = [(h.toNat, j)] ∧ j.mode = some m ∧ m.group = g

/-- The sequencer of die `d` has ended the layer in progress as `r` and goes to a phase, and nothing but sequencers and memory has
changed. -/
def Phase (s t : State) (d : DieId) (x : DieRun) (r : LayerRun) (phase : Nat) : Prop :=
  t.chip.seq d.toNat = { x.seq with layers := x.seq.layers.set x.seq.current r, phase := BitVec.ofNat 4 phase } ∧
  (∀ i, i ≠ d.toNat → t.chip.seq i = s.chip.seq i) ∧ t.chip.jobs = s.chip.jobs ∧ t.chip.cores = s.chip.cores ∧ t.time = s.time

/-- The sequencer takes the next layer in phase `again`, or after the last one starts phase `last` with layer `first`. -/
def NextLayer (s t : State) (d : DieId) (x : DieRun) (r : LayerRun) (again last first : Nat) : Prop :=
  let more := x.seq.current + 1 < x.seq.layers.length
  t.chip.seq d.toNat = { x.seq with
    layers := x.seq.layers.set x.seq.current r, current := if more then x.seq.current + 1 else first
    phase := BitVec.ofNat 4 (if more then again else last) } ∧
  (∀ i, i ≠ d.toNat → t.chip.seq i = s.chip.seq i) ∧ t.chip.jobs = s.chip.jobs ∧ t.chip.cores = s.chip.cores

/-- The moult of job `h` has ended with a status: the job keeps its instar, and every die of the plan shows the status. -/
def Cancelled (s t : State) (h : JobId) (j : Job) (p : Plan) (status : Nat) : Prop :=
  t.chip.job h = some { j with moult := none } ∧ t.chip.mem = s.chip.mem ∧
  ∀ d < 8, d ∈ s.chip.planDies j.tenant p → d < s.chip.seqs.length →
    (t.chip.seq d).cancelled = true ∧ (t.chip.seq d).committed = false ∧ (t.chip.seq d).last = BitVec.ofNat 16 status

/-- No command waits for its reply. -/
abbrev Unanswered (s : State) : Prop := s.chip.cmd.waiting = []

end Sys2Proof.Claims

/-- The start of a moult on a die (R33, R241, R243, R244): from its start instant, on a free sequencer that homes some of its layers, while no core of
the job runs there and no armed moult comes before it; contributions that were withheld stay withheld. Until then nothing changes. -/
def Sys2Proof.Claims.MoultStart : Prop :=
  ∀ (s : State) (d : DieId) (h : JobId) (j : Job) (m : Moult) (p : Plan) (q : Sequencer), Moulting s h j m p →
    let ls := s.chip.dieLayers j.tenant p d.toNat
    let held := match s.chip.group p.group with
      | some g => g.lastWithheld || g.desync
      | none => false
    (s.time.ht.toNat / 64 < m.start.toNat → exec (.moultStart d h) s = .next s) ∧
    (m.begun.contains d.toNat = true → exec (.moultStart d h) s = .next s) ∧
    (m.start.toNat ≤ s.time.ht.toNat / 64 → ls ≠ [] → m.vote = none → m.begun.contains d.toNat = false → s.chip.seqs[d.toNat]? = some q →
      q.running = false → s.chip.updating h d.toNat = false → s.chip.moultAhead d.toNat h.toNat m.start.toNat = false →
      ∃ t, exec (.moultStart d h) s = .next t ∧
        t.chip.job h = some { j with moult := some { m with
          begun := m.begun ++ [d.toNat], withheld := if m.begun = [] then held else m.withheld } } ∧
        t.chip.seq d.toNat = { q with running := true, job := h, phase := 1, current := 0, layers := ls.map (fun i => { index := i }) } ∧
        t.chip.mem = s.chip.mem ∧ t.chip.cores = s.chip.cores)

/-- The phases of a die (R243, R245, R249 to R252, R257, Table 09.5) in their order: score, sieve, drop and grow, re-choose, rebuild, candidates. The layer
grows as many blocks as it drops; without re-choice the mask stays; no phase changes a job, and the instar waits for the commit. -/
def Sys2Proof.Claims.MoultPhases : Prop :=
  ∀ (s : State) (d : DieId) (x : DieRun), d.toNat < s.chip.seqs.length →
    let t0 := x.job.tenant
    let cands := s.chip.candidates t0 x.entry x.par x.tensor.kb
    let blocks := s.chip.blocksOf t0 x.tensor
    (s.chip.dieRun d 1 = some x → ∃ t, exec (.moultScore d) s = .next t ∧ t.chip.mem = s.chip.mem ∧
      ((tensorBad x.tensor.head = true ∨ s.chip.tensorSound t0 x.tensor = false) → Phase s t d x { x.layer with status := 3 } 2) ∧
      (tensorBad x.tensor.head = false → s.chip.tensorSound t0 x.tensor = true → x.entry.companions = [] →
        Phase s t d x { x.layer with live := s.chip.scoreLive t0 x.tensor } 2)) ∧
    (s.chip.dieRun d 2 = some x → x.entry.sieved = false → ∃ t, exec (.moultSieve d) s = .next t ∧ t.chip.mem = s.chip.mem ∧
      NextLayer s t d x { x.layer with sieve := [] } 1 3 0) ∧
    (s.chip.dieRun d 4 = some x → cands.Nodup → ∃ t r, exec (.moultDropGrow d) s = .next t ∧ t.chip.mem = s.chip.mem ∧ Phase s t d x r 5 ∧
      (x.entry.policy = 1 → r.dropped = min (min (x.entry.fraction * blocks.length / 65536) cands.length) blocks.length ∧ r.grownGrad = 0) ∧
      r.dropped ≤ x.entry.fraction * blocks.length / 65536 ∧
      (x.entry.fraction ≤ 65535 → r.grownGrad + r.grownRand = r.dropped)) ∧
    (s.chip.dieRun d 5 = some x → ∃ t r, exec (.moultRechoose d) s = .next t ∧ t.chip.mem = s.chip.mem ∧ Phase s t d x r 6 ∧
      (x.entry.rechoose = false → r = x.layer) ∧ r.mask.map (·.index) = x.layer.mask.map (·.index) ∧ r.mask.length = x.layer.mask.length) ∧
    (s.chip.dieRun d 6 = some x → ∃ t r, exec (.moultRebuild d) s = .next t ∧ Phase s t d x r 8 ∧ r.built = true ∧ r.mask = x.layer.mask) ∧
    (s.chip.dieRun d 8 = some x → ∃ t r, exec (.moultCandidates d) s = .next t ∧ NextLayer s t d x r 4 9 x.seq.current ∧ r.done = true ∧
      r.mask = x.layer.mask)

/-- The reduction of a moult (R246, R247): when every die is ready and the check words agree, each layer holds its reduced lanes and phase 4 begins;
replicas that disagree, or a layer to which no chip has contributed, cancel the moult. -/
def Sys2Proof.Claims.MoultReduction : Prop :=
  ∀ (s : State) (h : JobId) (j : Job) (m : Moult) (p : Plan) (peers : List PeerLanes) (runs : List LayerRun), Moulting s h j m p →
    let rs := runs.zipIdx.map (fun x => s.chip.reduceLayer j p m peers x.2 x.1)
    m.reduced = false → s.chip.planRuns h p = runs.map some → runs.length = p.layers.length → (∀ r ∈ runs, r.status = 0) →
    (∀ q ∈ s.chip.seqs, q.running = true → q.job = h → q.phase = 3) →
    ((∀ r ∈ rs, r.agree = true ∧ r.count ≠ 0) → ∃ t, exec (.moultReduce h peers) s = .next t ∧
      t.chip.job h = some { j with moult := some { m with reduced := true } } ∧ t.chip.mem = s.chip.mem ∧
      ∀ (d : Nat) (q : Sequencer), s.chip.seqs[d]? = some q → t.chip.seq d = if q.running = true ∧ q.job = h then
        { q with phase := 4, current := 0, layers := q.layers.map (fun (r : LayerRun) => { r with reduced := rs[r.index]? }) } else q) ∧
    (∀ r rest, rs = r :: rest → r.agree = false → Unanswered s → ∃ t, exec (.moultReduce h peers) s = .next t ∧ Cancelled s t h j p 15) ∧
    (∀ r rest, rs = r :: rest → r.agree = true → r.count = 0 → (p.layer 0).sieved = true → Unanswered s →
      ∃ t, exec (.moultReduce h peers) s = .next t ∧ Cancelled s t h j p 13)

/-- Vote and commit (R258 to R260): a chip whose layers are all done by the deadline votes 1, at the deadline without them 0; a result of 1 lets it commit at
the commit instant, when the instar gains one and its word is written; a result of 0 cancels at once; without a result it cancels with TIMEOUT
and every die shows DESYNC. -/
def Sys2Proof.Claims.MoultVotes : Prop :=
  ∀ (s : State) (h : JobId) (j : Job) (m : Moult) (p : Plan) (peers : BitVec 64), Moulting s h j m p →
    let ns := s.time.ht.toNat / 64
    let job (t : State) (m' : Moult) : Prop := t.chip.job h = some { j with moult := some m' } ∧ t.chip.mem = s.chip.mem
    (m.vote = none → ns ≤ m.deadline.toNat → s.chip.moultDone h p = true → s.chip.moultFaults h p = [] →
      ∃ t, exec (.moultVote h) s = .next t ∧ job t { m with vote := some true }) ∧
    (m.vote = none → ns = m.deadline.toNat → s.chip.moultDone h p = false →
      ∃ t, exec (.moultVote h) s = .next t ∧ job t { m with vote := some false }) ∧
    (m.vote = none → ns < m.deadline.toNat → s.chip.moultDone h p = false → s.chip.moultFaults h p = [] → exec (.moultVote h) s = .next s) ∧
    (m.result = none → ns < m.commit.toNat → m.vote = some true → peers ≠ 0 →
      ∃ t, exec (.moultVoteResult h peers) s = .next t ∧ job t { m with result := some true }) ∧
    (m.result = none → ns < m.commit.toNat → m.vote = some true → peers = 0 → s.chip.moultFaults h p = [] → Unanswered s →
      ∃ t, exec (.moultVoteResult h peers) s = .next t ∧ Cancelled s t h j p 9) ∧
    (m.result = some true → m.commit.toNat ≤ ns → Unanswered s → ∃ t, exec (.moultCommit h) s = .next t ∧
      t.chip.job h = some { j with moult := none, instar := j.instar + 1 } ∧
      t.chip.mem = (s.chip.vwrite j.tenant p.word.toNat (leBytes 8 (j.instar + 1).toNat)).mem ∧
      ∀ d < 8, d ∈ s.chip.planDies j.tenant p → d < s.chip.seqs.length →
        (t.chip.seq d).committed = true ∧ (t.chip.seq d).cancelled = false ∧ (t.chip.seq d).last = 0) ∧
    (m.result = some true → ns < m.commit.toNat → exec (.moultCommit h) s = .next s) ∧
    (m.result = none → m.commit.toNat ≤ ns → Unanswered s → ∃ t, exec (.moultTimeout h) s = .next t ∧ Cancelled s t h j p 12 ∧
      ∀ d < s.chip.seqs.length, (t.chip.seq d).desync = true)

/-- Mode changes (R453 to R456): at the arm deadline the chip votes whether it has armed; a result of 1 lets it commit at the commit instant, when the job and
its group take the mode, an open step keeping the old one; a result of 0 discards the change, and without a result the chip sets DESYNC. -/
def Sys2Proof.Claims.ModeChanges : Prop :=
  ∀ (s : State) (g : GroupId) (h : JobId) (j : Job) (m : ModeChange) (peers : BitVec 64), Changing s g h j m →
    let ns := s.time.ht.toNat / 64
    let job (t : State) (j' : Job) : Prop := t.chip.job h = some j' ∧ t.chip.cores = s.chip.cores
    (m.vote = none → m.deadline.toNat ≤ ns → ∃ t, exec (.modeVote g) s = .next t ∧
      job t { j with mode := some { m with vote := some m.armed } }) ∧
    (ns < m.deadline.toNat → exec (.modeVote g) s = .next s) ∧
    (m.result = none → ns < m.commit.toNat → m.vote = some true → peers ≠ 0 →
      ∃ t, exec (.modeVoteResult g peers) s = .next t ∧ job t { j with mode := some { m with result := some true } }) ∧
    (m.result = none → ns < m.commit.toNat → m.vote ≠ none → m.vote = some false ∨ peers = 0 → Unanswered s →
      ∃ t, exec (.modeVoteResult g peers) s = .next t ∧ job t { j with mode := none }) ∧
    (∀ x, m.result = some true → m.commit.toNat ≤ ns → Unanswered s → s.chip.group g = some x → x.op = none →
      ∃ t, exec (.modeCommit g) s = .next t ∧ t.chip.group g = some { x with exact := m.exact, staged := none } ∧
        job t { j with mode := none, exact := m.exact, f := m.f, digestFlags :=
          if s.time.st = .out ∨ s.time.st = .track then j.digestFlags ||| 2 else j.digestFlags }) ∧
    (∀ x op run, m.result = some true → m.commit.toNat ≤ ns → Unanswered s → s.chip.group g = some x → x.op = some op → op.cur = some run →
      ∃ t, exec (.modeCommit g) s = .next t ∧ t.chip.group g = some { x with staged := some m.exact }) ∧
    (m.result = none → m.commit.toNat ≤ ns → Unanswered s → ∃ t, exec (.modeTimeout g) s = .next t ∧ job t { j with mode := none } ∧
      ∀ d < s.chip.seqs.length, (t.chip.seq d).desync = true) ∧
    (ns < m.commit.toNat → exec (.modeTimeout g) s = .next s)

/-- Digest records and chrysalises (R459, R462, R466, R468, R470): a step closes when no write of the job's clusters waits, its record goes into the digest ring
and the next step begins; a copy ends when no core of the job runs, and what shipped it replies to its packet. -/
def Sys2Proof.Claims.DigestsAndChrysalises : Prop :=
  ∀ (s : State) (h : JobId) (j : Job) (area : BitVec 48) (r : ShipResult), s.chip.job h = some j →
    (j.digestRecords = 0 → exec (.digestClose h) s = .next s) ∧
    (∀ cl ∈ j.clusters, (s.chip.cluster cl).wb ≠ [] → exec (.digestClose h) s = .next s) ∧
    (j.digestRecords ≠ 0 → (∀ cl ∈ j.clusters, (s.chip.cluster cl).wb = []) → j.step ≠ BitVec.allOnes 48 →
      ∃ t record, exec (.digestClose h) s = .next t ∧ t.chip.job h = some { j with digestFlags := 0, step := j.step + 1 } ∧
        t.chip.mem = (s.chip.vringPut j.tenant j.digestBase j.digestRecords record).mem ∧ record.length = 128 ∧
        fieldLe record 80 6 = j.step.toNat ∧ fieldLe record 88 8 = j.seed.toNat ∧ fieldLe record 96 4 = j.instar.toNat) ∧
    (j.chrysalis = none → exec (.chrysalisCopyEnd h) s = .next s) ∧
    (∀ x, j.chrysalis = some x → (∀ id ∈ j.coresIn none, (s.chip.core id).running = false) → Unanswered s →
      ∃ t, exec (.chrysalisCopyEnd h) s = .next t ∧ t.chip.job h = some { j with chrysalis := none } ∧ t.chip.cores = s.chip.cores) ∧
    (∀ x id, j.chrysalis = some x → id ∈ j.coresIn none → (s.chip.core id).running = true → (s.chip.core id).job = some h →
      exec (.chrysalisCopyEnd h) s = .next s) ∧
    (Unanswered s → exec (.chrysalisShipEnd area r) s = .next s) ∧
    (∀ k, s.chip.cmd.waiting = [k] → k.op = 0x0701 → k.n 40 8 = area.toNat → exec (.chrysalisShipEnd area r) s = .next (chipNow s
      (({ s.chip with cmd := { s.chip.cmd with waiting := [] } }).reply s.env k { status := match r with
        | .done => 0
        | .absent => 14
        | .fault => 11 })))

namespace Sys2Proof.Claims

open Sys2Proof.Machine

/-- Packet `k` at `p` is the one of opcode `op` that its server takes next; without it the chip is `c` (R489, R491). -/
abbrev Taken (s : State) (p : PktRef) (op : Nat) (sub : Pkt → Bool) (k : Pkt) (c : Chip) : Prop := s.chip.takePkt p op sub = some (k, c)

/-- Command `i` leaves the chip `c` and answers packet `k` with `r`. -/
def Answers (s : State) (i : Instr) (k : Pkt) (c : Chip) (r : Reply) : Prop := exec i s = .next (chipNow s (c.reply s.env k r))

/-- A reply of status `OK` with a body, and one with data. -/
def okBody (body : List Byte) : Reply := { status := 0, body := body }
def okData (data : List Byte) : Reply := { status := 0, data := data }

/-- Command `i` answers packet `k`, taken from chip `c`, with a status and changes nothing else. -/
def Refuses (s : State) (i : Instr) (k : Pkt) (c : Chip) (status : Nat) : Prop := Answers s i k c { status := status }

/-- A ring whose next packet firmware may read: from a slot that it can read, which no datagram has filled. -/
abbrev Readable (s : State) (n : RingId) (bytes : List Byte) : Prop :=
  let r := s.chip.ring n
  let a := 128 * r.cbase.toNat + 256 * (r.head.toNat % 2 ^ r.clog.toNat)
  n.toNat < 4112 ∧ r.enabled = true ∧ r.head ≠ r.tail ∧ (r.rhead - r.rtail).toNat < 2 ^ r.rlog.toNat ∧ s.chip.mayRead .q0 = true ∧
  s.chip.mayRead .c = true ∧ s.chip.pairRuns = true ∧ s.chip.mem.poisonIn a 256 = false ∧ s.chip.mem.populated a = true ∧ s.chip.cmd.net = [] ∧
  s.chip.mem.bytes.read a 256 = bytes

/-- A header that passes its own checks (Table 20.3). -/
abbrev GoodHeader (bs : List Byte) : Prop :=
  fieldLe bs 5 1 = 1 ∧ fieldLe bs 4 1 ≤ 1 ∧ fieldLe bs 6 2 < 4096 ∧ (∀ i, 20 ≤ i → i < 32 → bs.getD i 0 = 0) ∧ fieldLe bs 8 8 % 64 = 0

end Sys2Proof.Claims

/-- Reading a packet (R483, R484, R487, R489, R491): a good packet of its ring's rights enters the queue of its class and HEAD advances; a wrong version
is answered BAD_PARAM, an opcode that no row has BAD_OPCODE, an owner's opcode on a tenant ring DENIED; a ring without packets, without a reply
slot or disabled is not read; a poisoned slot is dropped and counted. -/
def Sys2Proof.Claims.PacketRead : Prop :=
  ∀ (s : State) (n : RingId) (bs : List Byte),
    let r := s.chip.ring n
    let go := exec (.packetRead n) s
    let k (cls : QClass) : Pkt := { ring := n, index := r.head, bytes := bs, cls := cls, since := s.now }
    let c1 : Chip := { s.chip with cmd := { s.chip.cmd with rings := tblSet s.chip.cmd.rings n.toNat { r with head := r.head + 1 } } }
    (r.enabled = false ∨ r.head = r.tail ∨ 2 ^ r.rlog.toNat ≤ (r.rhead - r.rtail).toNat → go = .next s) ∧
    (Readable s n bs → GoodHeader bs → (∀ i, 32 ≤ i → i < 256 → bs.getD i 0 = 0) → fieldLe bs 4 1 = 0 → s.chip.sys.ready = true →
      s.chip.cmd.queue = [] → (n.toNat < 16 ∨ fieldLe bs 6 2 = n.toNat - 16) →
      (fieldLe bs 0 2 = 0x0000 → go = .next (chipNow s { c1 with cmd := { c1.cmd with queue := [k .q0] } })) ∧
      (fieldLe bs 0 2 = 0x0203 → go = .next (chipNow s { c1 with cmd := { c1.cmd with queue := [k .q1] } })) ∧
      (fieldLe bs 0 2 = 0x0006 → n.toNat < 16 → go = .next (chipNow s { c1 with cmd := { c1.cmd with queue := [k .c] } })) ∧
      (fieldLe bs 0 2 = 0x0100 → 16 ≤ n.toNat → go = .next (chipNow s (c1.reply s.env (k .q2) { status := 4 }))) ∧
      (fieldLe bs 0 2 / 256 = 0x0C ∨ 0x10 ≤ fieldLe bs 0 2 / 256 → go = .next (chipNow s (c1.reply s.env (k .q0) { status := 2 })))) ∧
    (Readable s n bs → fieldLe bs 5 1 ≠ 1 → go = .next (chipNow s (c1.reply s.env (k .q0) { status := 3 }))) ∧
    (n.toNat < 4112 → r.enabled = true → r.head ≠ r.tail → (r.rhead - r.rtail).toNat < 2 ^ r.rlog.toNat → s.chip.mayRead .c = true →
      s.chip.pairRuns = true → s.chip.mem.poisonIn (128 * r.cbase.toNat + 256 * (r.head.toNat % 2 ^ r.clog.toNat)) 256 = true →
      ∃ t, go = .next t ∧ t.chip.ring n = { r with head := r.head + 1, dropped := satInc r.dropped 1 } ∧ t.chip.mem = s.chip.mem ∧
        t.chip.cmd.queue = s.chip.cmd.queue)

/-- The queues (R485, R489 to R491): a packet of a class waits while one of a class with a lower number is queued; a packet that is held back is not
taken; one that has waited 1 ms is marked, and goes before every class; a datagram from a peer that nobody lists is dropped and counted, one of the
owner's peer fills the next slot of ring 0. -/
def Sys2Proof.Claims.PacketQueues : Prop :=
  ∀ (s : State) (p : PktRef) (k y : Pkt) (mac : BitVec 48) (udp : W16) (bs : List Byte),
    let q := s.chip.cmd.queue
    let r := s.chip.ring 0
    ((∀ x ∈ q, x.blocked = false ∧ x.aged = false) → (∀ x ∈ q, x.ring = p.ring → x.index = p.index → x.cls = .q1) → y ∈ q → y.cls = .q0 →
      exec (.programLaunch p) s = .next s) ∧
    ((∀ x ∈ q, x.blocked = false ∧ x.cls = .q1) → (∀ x ∈ q, x.ring = p.ring → x.index = p.index → x.aged = false) → y ∈ q → y.aged = true →
      exec (.programLaunch p) s = .next s) ∧
    (q = [k] → k.blocked = true → exec (.deviceNop p) s = .next s) ∧
    (q = [k] → k.ring = p.ring → k.index = p.index → k.cls ≠ .c → k.blocked = false → exec (.queueAging p) s = .next (chipNow s { s.chip with
      cmd := { s.chip.cmd with queue := [{ k with aged := k.aged || decide (k.since + 64000000 ≤ s.now) }] } })) ∧
    (s.chip.pairRuns = true → s.chip.cmd.peers.contains (mac, udp) = false → s.chip.tenants = [] →
      exec (.managementDatagram mac udp bs) s = .next (withRing s 0 { r with dropped := satInc r.dropped 1 })) ∧
    (s.chip.pairRuns = true → s.chip.cmd.peers.contains (mac, udp) = true → bs.length = 256 → r.enabled = true →
      (r.tail - r.head).toNat < 2 ^ r.clog.toNat → ∃ t, exec (.managementDatagram mac udp bs) s = .next t ∧
        t.chip.ring 0 = { r with tail := r.tail + 1 } ∧
        t.chip.mem = (s.chip.store (128 * r.cbase.toNat + 256 * (r.tail.toNat % 2 ^ r.clog.toNat)) bs).mem ∧
        t.chip.cmd.net = s.chip.cmd.net ++ [{ ring := 0, index := r.tail, mac := mac, udp := udp }])

/-- A reply (R484, R485, R488, Table 20.4): 128 bytes in the slot of RHEAD, opcode and tag as received, the status, the time and the index, and RHEAD gains
one; no other byte of memory changes. Without a free slot it waits, and memory stays as it is. To a peer it goes as a datagram. -/
def Sys2Proof.Claims.Replies : Prop :=
  ∀ (s : State) (p : PktRef) (k : Pkt) (c : Chip), Taken s p 0x0000 anySub k c → c.cmd.queue = [] → k.n 8 8 = 0 →
    let r := s.chip.ring k.ring
    let a := 128 * r.rbase.toNat + 128 * (r.rhead.toNat % 2 ^ r.rlog.toNat)
    let time := s.time.ht.toNat / 64
    let bytes := slice k.bytes 0 4 ++ leBytes 12 0 ++ leBytes 8 time ++ leBytes 4 k.index.toNat ++ List.replicate 100 0
    (k.peer = none → r.unsent = [] → (r.rhead - r.rtail).toNat < 2 ^ r.rlog.toNat → a + 128 ≤ tier1End →
      ∃ t, exec (.deviceNop p) s = .next t ∧ t.chip.ring k.ring = { r with rhead := r.rhead + 1 } ∧ t.chip.mem.bytes.read a 128 = bytes ∧
        (∀ x, x < a ∨ a + 128 ≤ x → t.chip.mem.bytes.get x = s.chip.mem.bytes.get x) ∧ t.chip.cores = s.chip.cores ∧
        t.chip.jobs = s.chip.jobs ∧ t.chip.tenants = s.chip.tenants ∧ t.time = s.time) ∧
    (k.peer = none → r.unsent = [] → 2 ^ r.rlog.toNat ≤ (r.rhead - r.rtail).toNat →
      ∃ t, exec (.deviceNop p) s = .next t ∧ t.chip.ring k.ring = { r with unsent := [bytes] } ∧ t.chip.mem = s.chip.mem) ∧
    (∀ x, k.peer = some x → ∃ t, exec (.deviceNop p) s = .next t ∧ t.chip.cmd.datagram = bytes ∧ t.chip.mem = s.chip.mem)

/-- `device.query`, `device.attest`, `device.cancel`, `device.config`, `device.health` and the two `power.` commands (R358, R485, R492, R494, R503, R521 to R523, R544):
identification and state, the report that binds the caller's nonce, a queued packet that is removed and answers CANCELLED while one that runs
answers ALREADY_SENT, the settings of the chip's own address and peers, supply and health words, and the limits that firmware accepts. -/
def Obligations.DeviceCommands : Prop :=
  ∀ (s : State) (p : PktRef) (k x : Pkt) (c : Chip),
    let y := s.chip.sys
    (Taken s p 0x0000 anySub k c → Answers s (.deviceNop p) k c { status := 0 }) ∧
    (Taken s p 0x0001 anySub k c → Answers s (.deviceQuery p) k c (okBody (leBytes 8 0x8100423100000000 ++
      leBytes 8 (y.straps.toNat * 2 ^ 20 + s.chip.cmd.chip.toNat) ++ leBytes 8 (s.time.status s.htRegs).toNat ++
      leBytes 2 (s.chip.jobs.countP (fun j => j.2.tenant == k.tenant))))) ∧
    (Taken s p 0x0002 anySub k c → k.bytes.length = 256 → ∃ data, exec (.deviceAttest p) s =
        .next { chipNow s (c.reply s.env k (okData (data))) with fresh := s.fresh + 36 } ∧
      fieldLe data 0 4 = 0x54415442 ∧ fieldLe data 8 4 = s.chip.cmd.chip.toNat ∧ fieldLe data 15 1 = y.fuses.rollback.toNat ∧
      fieldLe data 16 8 = s.time.ht.toNat / 64 ∧ fieldLe data 24 8 = y.fuses.serial.toNat ∧
      slice data 32 48 = slice k.bytes 32 48) ∧
    (Taken s p 0x0003 anySub k c → c.cmd.queue = [] → c.cmd.waiting = [] → Refuses s (.deviceCancel p) k c 3) ∧
    (Taken s p 0x0003 anySub k c → c.cmd.queue = [x] → c.cmd.waiting = [] → x.ring = k.ring → x.tag = k.n 32 2 → x.index ≠ k.index →
      Answers s (.deviceCancel p) k (({ c with cmd := { c.cmd with queue := [] } }).reply s.env x { status := 17 }) { status := 0 }) ∧
    (Taken s p 0x0003 anySub k c → c.cmd.queue = [] → c.cmd.waiting = [x] → x.ring = k.ring → x.tag = k.n 32 2 → x.index ≠ k.index →
      Refuses s (.deviceCancel p) k c 10) ∧
    (Taken s p 0x0004 anySub k c → s.chip.coll.groups = [] → k.n 32 4 < 2 ^ 20 → k.n 56 8 = 0 → k.n 64 4 = 0 →
      ∃ peers, Answers s (.deviceConfig p) k { c with cmd := { c.cmd with
          chip := BitVec.ofNat 20 (k.n 32 4), ip := BitVec.ofNat 32 (k.n 36 4), udp := BitVec.ofNat 16 (k.n 40 2),
          peers := peers, openBase := 0, openRecords := 0 } } { status := 0 } ∧ peers.length ≤ 64) ∧
    (Taken s p 0x0004 anySub k c → 2 ^ 20 ≤ k.n 32 4 → Refuses s (.deviceConfig p) k c 3) ∧
    (Taken s p 0x0006 anySub k c → ∃ quads spares, Answers s (.deviceHealth p) k c (okBody (
      leBytes 8 s.chip.power.inWord.toNat ++ leBytes 8 s.chip.power.nowWord.toNat ++ leBytes 8 y.stateWord.toNat ++
      leBytes 8 y.bootWord.toNat ++ leBytes 4 quads ++ leBytes 4 spares ++ leBytes 4 y.repairs.length)) ∧ (s.chip.clusters = [] → quads = 0 ∧ spares = 32768)) ∧
    (Taken s p 0x0900 anySub k c → Answers s (.powerQuery p) k c (okBody (leBytes 8 s.chip.power.inWord.toNat ++
      leBytes 8 s.chip.power.nowWord.toNat ++ leBytes 8 s.chip.power.limitWord.toNat ++ leBytes 8 s.chip.power.coolWord.toNat))) ∧
    (Taken s p 0x0901 anySub k c → k.n 32 2 < 500 ∨ 3400 < k.n 32 2 → Refuses s (.powerLimit p) k c 3) ∧
    (Taken s p 0x0901 anySub k c → 500 ≤ k.n 32 2 → k.n 32 2 ≤ 3400 → k.n 34 1 = 0 → k.n 36 4 = 0 → k.n 40 32 = 0 →
      Answers s (.powerLimit p) k { c with power := { c.power with limit := BitVec.ofNat 16 (k.n 32 2) } } (okBody (leBytes 2 0)))

/-- `device.reset` (R526, Table 22.2): it replies and then resets. A cold reset leaves all but fuses at its reset value; a warm one loses cores, tenants and jobs
and keeps memory and hall time; a compute reset ends the jobs and keeps the tenants too. -/
def Sys2Proof.Claims.DeviceResets : Prop :=
  ∀ (s : State) (p : PktRef) (k : Pkt) (c : Chip),
    let c1 := c.reply s.env k { status := 0 }
    (Taken s p 0x0005 (fun k => k.n 32 1 == 0) k c → c1.sys.tripped = false → ∃ t, exec (.deviceResetCold p) s = .next t ∧ AtReset t ∧
      t.chip.sys.kind = .cold ∧ t.chip.sys.fuses = s.chip.sys.fuses) ∧
    (Taken s p 0x0005 (fun k => k.n 32 1 == 1) k c → ∃ t, exec (.deviceResetWarm p) s = .next t ∧ t.chip.cores = [] ∧ t.chip.tenants = [] ∧
      t.chip.jobs = [] ∧ t.chip.cmd = {} ∧ t.chip.coll = {} ∧ t.chip.mem.bytes = c1.mem.bytes ∧ t.chip.mem.poison = c1.mem.poison ∧
      t.chip.sys.kind = .warm ∧ t.chip.sys.ended = s.chip.sys.ended &&& 0x3F ∧ t.time = s.time ∧
      (∀ n, t.chip.port n = { s.chip.port n with fec := 0, lcrc := 0, lost := 0, unsched := 0, collide := 0, ptp := 0, e2e := 0, openDrop := 0 }) ∧
      t.htRegs = s.htRegs) ∧
    (Taken s p 0x0005 (fun k => k.n 32 1 == 2) k c → ∃ t, exec (.deviceResetCompute p) s = .next t ∧ t.chip.cores = [] ∧ t.chip.jobs = [] ∧
      (∀ t0, (t.chip.tenant t0).isSome = (s.chip.tenant t0).isSome) ∧ t.chip.sys.kind = .compute ∧
      t.chip.sys.ended = s.chip.sys.ended &&& 0xBF ∧ t.time = s.time ∧ t.htRegs = s.htRegs)

/-- `eyespot.` and `debug.` (R136, R174, R475, R477, R478, R480, R501): the units of a die mask take EYE_CTL, EYE_SRC and a spill ring; stamps are read oldest first;
a trigger freezes its unit and goes out; an idle core enters and leaves the service state; its scratchpad is read there alone; a register is
written or read. -/
def Sys2Proof.Claims.EyespotAndDebug : Prop :=
  ∀ (s : State) (p : PktRef) (k : Pkt) (c : Chip),
    let id : CoreId := BitVec.ofNat 20 (k.n 32 4)
    let x := s.chip.core id
    let u := s.chip.eyeUnit (BitVec.ofNat 3 (k.n 32 1))
    let status (i : Instr) (n : Nat) : Prop := Refuses s i k c n
    (Taken s p 0x0B00 anySub k c → k.n 32 8 = 0 → k.n 56 8 < 2 ^ 52 → status (.eyespotConfig p) 0) ∧
    (Taken s p 0x0B00 anySub k c → 256 ≤ k.n 32 8 → status (.eyespotConfig p) 3) ∧
    (∀ u0 : Eye, Taken s p 0x0B00 anySub k c → s.chip.eye.units = [u0] → k.n 32 8 = 1 → k.n 40 8 = 0 → k.n 56 8 < 2 ^ 52 →
      Answers s (.eyespotConfig p) k { c with eye := { c.eye with units := [{ u0 with
        ctl := 0, src := BitVec.ofNat 64 (k.n 48 8), spillBase := BitVec.ofNat 64 (k.n 56 8),
        spillRecords := BitVec.ofNat 32 (k.n 64 4) }] } } { status := 0 }) ∧
    (Taken s p 0x0B01 anySub k c → k.n 32 1 ≤ 7 → Answers s (.eyespotRead p) k c
      (okData ((u.buf.take (k.n 36 4)).flatMap Stamp.bytes))) ∧
    (Taken s p 0x0B01 anySub k c → 8 ≤ k.n 32 1 → status (.eyespotRead p) 3) ∧
    (Taken s p 0x0B02 anySub k c → k.n 32 1 ≤ 7 → s.chip.eye.units.length = 8 → u.frozen = false → u.freeze = BitVec.allOnes 64 →
      ∃ c2, Answers s (.eyespotTrigger p) k c2 { status := 0 } ∧
        (c2.eyeUnit (BitVec.ofNat 3 (k.n 32 1))).freeze = BitVec.ofNat 64 (s.time.ht.toNat / 64 + u.post * 256) ∧
        c2.fab.chunk = s.chip.fab.chunk + 1 ∧ c2.cores = s.chip.cores) ∧
    (Taken s p 0x0F01 (subAt 36 0) k c → k.n 32 4 < 2 ^ 20 → x.running = false →
      Answers s (.debugServiceHold p) k (c.setCore id { x with service := true }) { status := 0 }) ∧
    (Taken s p 0x0F01 (subAt 36 0) k c → k.n 32 4 < 2 ^ 20 → x.running = true → status (.debugServiceHold p) 1) ∧
    (Taken s p 0x0F01 (subAt 36 1) k c → k.n 32 4 < 2 ^ 20 → x.hold = .none →
      Answers s (.debugServiceRelease p) k (c.setCore id { x with service := false }) { status := 0 }) ∧
    (Taken s p 0x0F02 anySub k c → k.n 32 4 < 2 ^ 20 → x.service = true → 0 < k.n 38 2 → k.n 36 2 + k.n 38 2 ≤ 4096 →
      Answers s (.debugScratch p) k c (okData (x.scratch.read (k.n 36 2) (k.n 38 2)))) ∧
    (Taken s p 0x0F02 anySub k c → x.service = false → status (.debugScratch p) 3) ∧
    (Taken s p 0x0F00 anySub k c → 1 < k.n 40 1 → status (.debugReg p) 3) ∧
    (Taken s p 0x0F00 anySub k c → k.n 40 1 = 0 → k.n 32 8 = 0 →
      Answers s (.debugReg p) k c (okBody (leBytes 8 0x8100423100000000))) ∧
    (Taken s p 0x0F00 anySub k c → k.n 40 1 = 1 → k.n 32 8 = 0x600008 → Answers s (.debugReg p) k { c with xlt := { c.xlt with
      violations := c.xlt.violations &&& ~~~(BitVec.ofNat 64 (k.n 48 8)).setWidth 32 } } { status := 0 })

/-- `tenant.bind` (R349, R350, R495, R533, Table 20.7): a record whose quads, granules and application cores are free sets up the tenant with its root table,
its fault ring and its ring pair; a full chip, parts of another, values outside the tables and quotas that memory does not cover are refused each
by their status. -/
def Sys2Proof.Claims.TenantBind : Prop :=
  ∀ (s : State) (p : PktRef) (k : Pkt) (c : Chip), Taken s p 0x0100 anySub k c →
    let b := c.readBinding (k.n 32 8)
    let t : TenantId := BitVec.ofNat 12 b.id
    let few := s.chip.tenants.length < 4096
    (4096 ≤ s.chip.tenants.length → Refuses s (.tenantBind p) k c 6) ∧
    (few → c.bindDenied b = true → Refuses s (.tenantBind p) k c 4) ∧
    (few → c.bindDenied b = false → c.bindBad b = true → Refuses s (.tenantBind p) k c 3) ∧
    (few → c.bindDenied b = false → c.bindBad b = false → c.bindShort b = true → Refuses s (.tenantBind p) k c 5) ∧
    (few → c.bindDenied b = false → c.bindBad b = false → c.bindShort b = false → ∃ c2 n, Answers s (.tenantBind p) k c2 { status := 0 } ∧
      c2.tenant t = some n ∧ n.quads = b.quads ∧ n.root = fieldLe b.rec_ 16 8 ∧ n.ring = fieldLe b.rec_ 24 8 ∧
      n.quotas = [fieldLe b.rec_ 36 4, fieldLe b.rec_ 40 4, fieldLe b.rec_ 44 4] ∧ n.used = [0, 0, 0] ∧ n.violations = 0 ∧ n.faults = [] ∧
      n.normFirst.toNat = fieldLe b.rec_ 48 2 ∧ n.normCount.toNat = fieldLe b.rec_ 50 2 ∧
      (∀ x, x ≠ t → c2.tenant x = s.chip.tenant x) ∧ c2.cores = s.chip.cores ∧ c2.jobs = s.chip.jobs ∧
      let r := c2.ring (BitVec.ofNat 13 (t.toNat + 16))
      r.enabled = true ∧ r.head = 0 ∧ r.tail = 0 ∧ r.rhead = 0 ∧ r.rtail = 0 ∧ 128 * r.cbase.toNat = fieldLe b.rec_ 88 8 % 2 ^ 52 ∧
      r.clog.toNat = fieldLe b.rec_ 104 1 % 16 ∧ r.rlog.toNat = fieldLe b.rec_ 104 1 / 16)

/-- `tenant.unbind`, `tenant.guard` and `tenant.query` (R272, R351, R355, R393): an unknown tenant is refused and one at work is BUSY; else the tenant, its jobs,
groups, barrier entries and queued packets go, and its ring is disabled. The first guard record of a group is zeroed. -/
def Sys2Proof.Claims.Tenants : Prop :=
  ∀ (s : State) (p : PktRef) (k : Pkt) (c : Chip) (n : Tenant),
    let id := k.n 32 2
    let t : TenantId := BitVec.ofNat 12 id
    let g : GroupId := BitVec.ofNat 12 id
    let granules := n.used.map (fun x => 2097152 * x)
    (Taken s p 0x0101 anySub k c → 4095 < id ∨ s.chip.tenant t = none → Refuses s (.tenantUnbind p) k c 3) ∧
    (Taken s p 0x0101 anySub k c → id ≤ 4095 → s.chip.tenant t = some n → c.tenantBusy t n = true → Refuses s (.tenantUnbind p) k c 1) ∧
    (Taken s p 0x0101 anySub k c → id ≤ 4095 → s.chip.tenant t = some n → c.tenantBusy t n = false →
      ∃ c2, Answers s (.tenantUnbind p) k c2 { status := 0 } ∧ c2.tenant t = none ∧ (∀ x, x ≠ t → c2.tenant x = s.chip.tenant x) ∧
        (∀ j ∈ c2.jobs, j.2.tenant ≠ t) ∧ (∀ x ∈ c2.coll.groups, x.2.tenant ≠ t) ∧ (∀ e, (c2.barrier e).owner ≠ some t) ∧
        (∀ x ∈ c2.cmd.queue, x.ring ≠ BitVec.ofNat 13 (t.toNat + 16)) ∧ (c2.ring (BitVec.ofNat 13 (t.toNat + 16))).enabled = false) ∧
    (∀ x, Taken s p 0x0102 anySub k c → id ≤ 4095 → s.chip.group g = some x → x.tenant = k.tenant → x.guard = none → k.n 34 1 ≤ 1 →
      0 < k.n 36 4 → k.n 36 4 ≤ 0x7F800000 → k.n 40 8 % 32 = 0 → k.n 40 8 < 2 ^ 48 →
      ∃ c2, Answers s (.tenantGuard p) k c2 { status := 0 } ∧ c2.mem = (c.vwrite x.tenant (k.n 40 8) (List.replicate 32 0)).mem ∧
        c2.group g = some { x with guard := some { addr := k.n 40 8, clip := k.n 34 1 == 1, limit := BitVec.ofNat 32 (k.n 36 4) } }) ∧
    (Taken s p 0x0102 anySub k c → k.n 36 4 = 0 → Refuses s (.tenantGuard p) k c 3) ∧
    (Taken s p 0x0103 anySub k c → id ≤ 4095 → s.chip.tenant t = some n → n.used.length = 3 → Answers s (.tenantQuery p) k c
      (okBody (leBytes 4 n.violations.toNat ++ leBytes 4 n.quads.length ++ granules.flatMap (leBytes 8)))) ∧
    (Taken s p 0x0103 anySub k c → 4095 < id ∨ s.chip.tenant t = none → Refuses s (.tenantQuery p) k c 3)

/-- `memory.place` and `memory.release` (R328, R329, R331): a table within the quota gives every entry its granules and its range of addresses, or CAPACITY when no
granule is free, which changes nothing; demand above a quota is refused with the shortfall; a release gives back all that the job has placed. -/
def Sys2Proof.Claims.Placement : Prop :=
  ∀ (s : State) (p : PktRef) (k : Pkt) (c : Chip) (j : Job) (n : Tenant),
    let h : JobId := BitVec.ofNat 12 (k.n 40 2)
    let hd := c.aread k.space (k.n 32 8) 32
    let raw := c.aread k.space (k.n 32 8 + 32) (32 * fieldLe hd 6 2)
    let es := (List.range (fieldLe hd 6 2)).map (fun i => placeEntry (slice raw (32 * i) 32))
    let total := es.foldl (fun a e => a + e.size) 0
    let used0 := 2097152 * (n.quotas.getD 0 0 - n.used.getD 0 0)
    let short := total - used0
    (Taken s p 0x0300 anySub k c → k.n 40 2 < 4096 → s.chip.job h = none → Refuses s (.memoryPlace p) k c 3) ∧
    (Taken s p 0x0300 anySub k c → k.n 40 2 < 4096 → s.chip.job h = some j → j.tenant = k.tenant → s.chip.tenant j.tenant = some n →
      (placeHeaderBad hd = true ∨ j.placed = true → Refuses s (.memoryPlace p) k c 3) ∧
      (placeHeaderBad hd = false → j.placed = false → (∀ e ∈ es, e.bad = false ∧ e.tier = 1 ∧ e.demotable = false) →
        (used0 < total → Answers s (.memoryPlace p) k c { status := 5, body := leBytes 8 short }) ∧
        (total ≤ used0 → n.used.length = 3 →
          Answers s (.memoryPlace p) k c { status := 5, body := leBytes 8 0 } ∨
          ∃ c2 j2 n2, Answers s (.memoryPlace p) k c2 (okBody (leBytes 16 0)) ∧ c2.job h = some j2 ∧ j2.placed = true ∧
            j2.regions.length = j.regions.length + es.length ∧ c2.tenant j.tenant = some n2 ∧
            2097152 * n2.used.getD 0 0 = 2097152 * n.used.getD 0 0 + total ∧ c2.cores = s.chip.cores))) ∧
    (Taken s p 0x0306 anySub k c → k.n 32 2 < 4096 → s.chip.job (BitVec.ofNat 12 (k.n 32 2)) = some j → j.tenant = k.tenant →
      (c.jobOpen (BitVec.ofNat 12 (k.n 32 2)) j = true → Refuses s (.memoryRelease p) k c 1) ∧
      (c.jobOpen (BitVec.ofNat 12 (k.n 32 2)) j = false → c.opsOpen j.tenant = false → ∃ c2 granules, Answers s (.memoryRelease p) k c2
          (okBody (leBytes 8 (2097152 * granules) ++ leBytes 4 j.regions.length)) ∧ granules = (j.regions.map (·.granules.length)).sum ∧
        c2.job (BitVec.ofNat 12 (k.n 32 2)) = some { j with regions := [], placed := false } ∧ c2.cores = s.chip.cores))

/-- `memory.resume`, `memory.end`, `memory.inval`, `memory.stream` and `memory.tensor` (R197, R213, R214, R344, R347): an access that the record names walks again, or
raises the memory fault; an invalidation drops the tenant's entries and answers at once when nothing in flight has used them, else it waits; a parked
stream runs again or ends; a header that keeps Table 08.4 is accepted. -/
def Sys2Proof.Claims.MemoryCommands : Prop :=
  ∀ (s : State) (p : PktRef) (k : Pkt) (c : Chip) (n : Tenant) (f : OpenFault) (id : CoreId) (a : Access),
    let x := s.chip.core id
    let cl : ClusterId := BitVec.ofNat 14 (k.n 32 2)
    let named : Prop := s.chip.tenant k.tenant = some n ∧ n.faults = [f] ∧ f.serial.toNat = k.n 32 4 ∧ f.reqs = [.core id] ∧ Waits x a .faulted
    let closed (c2 : Chip) : Prop := c2.tenant k.tenant = some { n with faults := [] } ∧ (∀ i, i ≠ id → c2.core i = s.chip.core i)
    (Taken s p 0x0301 anySub k c → named → ∃ c2, Answers s (.memoryResume p) k c2 { status := 0 } ∧ closed c2 ∧
      c2.core id = { x with hold := .access { a with stage := .translate } }) ∧
    (Taken s p 0x0301 anySub k c → s.chip.tenant k.tenant = none → Refuses s (.memoryResume p) k c 3) ∧
    (Taken s p 0x0302 anySub k c → named → a.index = x.pc → ∃ c2, Answers s (.memoryEnd p) k c2 { status := 0 } ∧ closed c2 ∧
      c2.core id = excepted { x with hold := .none } 0x0B 0) ∧
    (Taken s p 0x0302 anySub k c → s.chip.tenant k.tenant = none → Refuses s (.memoryEnd p) k c 3) ∧
    (Taken s p 0x0303 anySub k c → s.chip.cmd.waiting.length < 1024 → s.chip.tenant k.tenant = some n →
      (s.chip.cores = [] → (∀ x ∈ s.chip.clusters, x.2.wb = []) → ∃ c2, Answers s (.memoryInval p) k c2 { status := 0 } ∧
        (∀ y e, e ∈ (c2.cluster y).tlb → e.tenant = k.tenant → k.n 40 8 ≠ 0 ∧
          overlap e.va.toNat (2 ^ e.log2.toNat) (k.n 32 8) (k.n 40 8) = false) ∧ c2.mem = s.chip.mem) ∧
      (s.chip.cores = [(id.toNat, x)] → x.tenant = some k.tenant → Waits x a .memory → k.n 40 8 = 0 →
        ∃ t, exec (.memoryInval p) s = .next t ∧ t.chip.cmd.waiting = s.chip.cmd.waiting ++ [k] ∧ t.chip.cores = s.chip.cores ∧
          t.chip.mem = s.chip.mem ∧ ∃ w, t.chip.cmd.invals = s.chip.cmd.invals ++ [w] ∧ w.ring = k.ring ∧ w.index = k.index)) ∧
    (∀ st, Taken s p 0x0304 (subAt 34 0) k c → k.n 32 2 < 16384 → (s.chip.cluster cl).streams = [st] → st.tag = k.n 36 4 → st.st = .parked →
      st.tenant = k.tenant → ∃ c2, Answers s (.memoryStreamResume p) k c2 { status := 0 } ∧
        (c2.cluster cl).streams = [{ st with st := .running, badPages := [] }]) ∧
    (∀ st, Taken s p 0x0304 (subAt 34 1) k c → k.n 32 2 < 16384 → (s.chip.cluster cl).streams = [st] → st.tag = k.n 36 4 → st.st = .parked →
      st.tenant = k.tenant → st.detached = true → ∃ c2, Answers s (.memoryStreamEnd p) k c2 { status := 0 } ∧ (c2.cluster cl).streams = []) ∧
    (Taken s p 0x0304 (subAt 34 0) k c → (s.chip.cluster cl).streams = [] → Refuses s (.memoryStreamResume p) k c 3) ∧
    (Taken s p 0x0305 anySub k c → k.n 40 1 = 0 → k.n 48 8 = 0 → tensorBad (c.aread k.space (k.n 32 8) 128) = false →
      Refuses s (.memoryTensor p) k c 0) ∧
    (Taken s p 0x0305 anySub k c → tensorBad (c.aread k.space (k.n 32 8) 128) = true → Refuses s (.memoryTensor p) k c 3)

namespace Sys2Proof.Claims

open Sys2Proof.Machine

/-- Packet `k` names a job of its own tenant by bytes 32 and 33. -/
abbrev Names (s : State) (k : Pkt) (h : JobId) (j : Job) : Prop := k.n 32 2 = h.toNat ∧ s.chip.job h = some j ∧ j.tenant = k.tenant

/-- It names a group of its own tenant by the two bytes at an offset. -/
abbrev NamesGroup (s : State) (k : Pkt) (off : Nat) (g : GroupId) (x : Group) : Prop :=
  k.n off 2 = g.toNat ∧ s.chip.group g = some x ∧ x.tenant = k.tenant

/-- The chip with a job replaced. -/
def withJob (c : Chip) (h : JobId) (j : Job) : Chip := { c with jobs := tblSet c.jobs h.toNat j }

/-- A handle that names no job, or another tenant's on a tenant ring, is refused (R353). -/
def NoJob (s : State) (i : Instr) (k : Pkt) (c : Chip) : Prop :=
  (k.n 32 2 < 4096 → s.chip.job (BitVec.ofNat 12 (k.n 32 2)) = none → Refuses s i k c 3) ∧
  (∀ j, k.n 32 2 < 4096 → s.chip.job (BitVec.ofNat 12 (k.n 32 2)) = some j → j.tenant ≠ k.tenant → 16 ≤ k.ring.toNat →
    Refuses s i k c 4)

/-- Group `g` is replaced. -/
def withGroup (c : Chip) (g : GroupId) (x : Group) : Chip := { c with coll := { c.coll with groups := tblSet c.coll.groups g.toNat x } }

/-- Entry `e` of the barrier file is replaced, and the reply carries it. -/
def Entry (s : State) (i : Instr) (k : Pkt) (c : Chip) (e : BitVec 12) (b : Barrier) : Prop :=
  let c2 : Chip := { c with barriers := tblSet c.barriers e.toNat b }
  Answers s i k c2 (okBody (c2.barrierBytes e))

/-- The command waits: its packet stands among those that wait, last, and no reply is written. -/
def Waiting (s : State) (i : Instr) (k : Pkt) (c : Chip) : Prop :=
  exec i s = .next (chipNow s { c with cmd := { c.cmd with waiting := c.cmd.waiting ++ [k] } })

end Sys2Proof.Claims

/-- `program.load`, `program.launch` and `program.stop` (R112, R166 to R171, R232, R353, R453, R464): a checked image gets the lowest free handle; a launch that
its image admits takes the variant and registers of its sizes and starts no item by itself; running cores make it BUSY; a stop frees the handle
and ends what runs, and keeps what the job has placed. -/
def Sys2Proof.Claims.ProgramCommands : Prop :=
  ∀ (s : State) (p : PktRef) (k : Pkt) (c : Chip) (h : JobId) (j : Job) (n : Tenant) (img : Image),
    let quads := (List.range (min (k.n 48 2) 4096)).map (fun i => ofLe (c.aread k.space (k.n 40 8 + 2 * i) 2))
    let exact := k.n 34 1 == 1
    let sizes := (List.range 4).map (fun d => k.n (56 + 4 * d) 4)
    (Taken s p 0x0200 anySub k c → s.chip.tenant k.tenant = some n → 0 < k.n 48 2 → k.n 48 2 ≤ 4096 → k.n 56 8 % 8192 = 0 → k.n 56 8 < 2 ^ 48 →
      quads.Nodup → (∀ q ∈ quads, q ≤ 4095) →
      ((∃ q ∈ quads, q ∉ n.quads) → Refuses s (.programLoad p) k c 4) ∧
      ((∀ q ∈ quads, q ∈ n.quads) → (∀ e, c.readImage k.space (k.n 32 8) = .error e → Refuses s (.programLoad p) k c e) ∧
        (c.readImage k.space (k.n 32 8) = .ok img → s.chip.jobs = [] → s.chip.cmd.left = [] → Answers s (.programLoad p) k
          (withJob c 0 { tenant := k.tenant, image := img, quads := quads, ctx := BitVec.ofNat 48 (k.n 56 8) }) (okBody (leBytes 2 0))))) ∧
    (Taken s p 0x0201 anySub k c → NoJob s (.programLaunch p) k c) ∧
    (∀ v regs, Taken s p 0x0201 anySub k c → Names s k h j → k.n 34 1 ≤ 1 → c.clockBad exact (k.n 36 2) = false → k.n 48 6 ≠ 2 ^ 48 - 1 →
      j.image.launchBad exact (k.n 72 4) j.clusters.length = false → j.image.select sizes = some (v, regs) →
      (∀ cl ∈ j.clusters, (s.chip.cluster cl).withdrawn = false) →
      ((∃ cl ∈ j.clusters, ∃ id ∈ coresOf cl, (s.chip.core id).running = true) → Refuses s (.programLaunch p) k c 1) ∧
      ((∀ cl ∈ j.clusters, ∀ id ∈ coresOf cl, (s.chip.core id).running = false) → j.active = false → j.chrysalis = none →
        ∃ c2, Answers s (.programLaunch p) k c2 { status := 0 } ∧ c2.cores = s.chip.cores ∧ c2.mem = s.chip.mem ∧ c2.job h = some { j with
          launched := true, exact := exact, f := BitVec.ofNat 6 (k.n 36 2), seed := BitVec.ofNat 64 (k.n 40 8),
          step := BitVec.ofNat 48 (k.n 48 6), sizes := sizes.map (BitVec.ofNat 32), items := k.n 72 4, variant := v, regs := regs,
          started := [], finished := 0, saved := [], paused := [] } ∧
          ∀ cl ∈ j.clusters, (c2.cluster cl).job = some h)) ∧
    (Taken s p 0x0201 anySub k c → Names s k h j → j.image.select sizes = none → Refuses s (.programLaunch p) k c 3) ∧
    (Taken s p 0x0205 anySub k c → NoJob s (.programStop p) k c) ∧
    (Taken s p 0x0205 anySub k c → Names s k h j → s.chip.cmd.waiting = [] → ∃ c2, Answers s (.programStop p) k c2 { status := 0 } ∧
      c2.job h = none ∧ (∀ cl ∈ j.clusters, (c2.cluster cl).job ≠ some h) ∧
      (∀ id ∈ j.coresIn none, (s.chip.core id).job = some h → (c2.core id).running = false) ∧
      (j.regions ≠ [] → tblFind c2.cmd.left h.toNat = some (j.tenant, j.regions)))

/-- `program.preempt`, `program.resume` and `program.mode` (R110, R112, R446, R453, R454): a pre-emption with nothing running is done at once, else requests go out to the
running cores and the packet waits; a resumption waits for no core and gives the quads back; a mode change is armed until its commit instant,
refused when the instants lie too close, and BUSY while another is armed on the group. -/
def Sys2Proof.Claims.PreemptAndMode : Prop :=
  ∀ (s : State) (p : PktRef) (k : Pkt) (c : Chip) (h : JobId) (j : Job) (g : GroupId) (x : Group),
    let deadline := k.n 40 8
    let commit := k.n 48 8
    let ns := s.time.ht.toNat / 64
    s.chip.cmd.waiting.length < 1024 →
    (Taken s p 0x0203 anySub k c → NoJob s (.programPreempt p) k c) ∧
    (Taken s p 0x0203 anySub k c → Names s k h j → k.n 34 2 = 0xFFFF →
      let j2 : Job := { j with paused := (j.paused ++ j.quads).eraseDups }
      ((∀ id ∈ j.coresIn none, (s.chip.core id).running = false) → Answers s (.programPreempt p) k (withJob c h j2) { status := 0 }) ∧
      ((∃ id ∈ j.coresIn none, (s.chip.core id).running = true) → ∃ c2, Waiting s (.programPreempt p) k c2 ∧ c2.job h = some j2 ∧
        c2.cores = s.chip.cores ∧ ∀ id ∈ j.coresIn none, (s.chip.core id).running = true → (s.chip.core id).preempt = .none →
          ∃ open', (id, open') ∈ c2.coll.heldPreempts)) ∧
    (Taken s p 0x0204 anySub k c → Names s k h j → k.n 34 2 = 0xFFFF → j.saved = [] →
      (∀ cl ∈ j.clusters, (s.chip.cluster cl).withdrawn = false ∧ ∀ id ∈ coresOf cl, (s.chip.core id).running = false) →
      ∃ c2, Answers s (.programResume p) k c2 { status := 0 } ∧
        c2.job h = some { j with paused := j.paused.filter (fun q => !j.quads.contains q) } ∧ c2.cores = s.chip.cores) ∧
    (Taken s p 0x0204 anySub k c → Names s k h j → k.n 34 2 = 0xFFFF →
      (∀ cl ∈ j.clusters, (s.chip.cluster cl).withdrawn = false) → (∃ cl ∈ j.clusters, ∃ id ∈ coresOf cl, (s.chip.core id).running = true) →
      Refuses s (.programResume p) k c 1) ∧
    (Taken s p 0x0202 anySub k c → Names s k h j → NamesGroup s k 38 g x →
      let good := k.n 34 1 = 0 ∧ k.n 36 2 = 0 ∧ deadline + 20000 ≤ commit ∧ commit < 2 ^ 64 - 1 - 1000000000
      (commit < deadline + 20000 → Refuses s (.programMode p) k c 3) ∧
      (good → s.chip.modeOf g = none → j.mode = none → ns ≤ deadline → s.chip.cores = [] → Waiting s (.programMode p) k (withJob c h { j with
        mode := some { exact := false, f := 0, group := g, deadline := BitVec.ofNat 64 deadline, commit := BitVec.ofNat 64 commit, armed := true } })) ∧
      (∀ m, good → s.chip.modeOf g = none → j.mode = some m →
        Answers s (.programMode p) k c { status := 1, hint := (m.commit.toNat - ns + 999) / 1000 }))

/-- `hall.time` and `hall.barrier` (R380, R391, R393, R394, Table 15.10): DOMAIN above 127 is refused; a tenant claims an entry that nobody holds, arms it for an instant,
late when that has passed, disarms, drops and reads it; an armed entry is BUSY until its instant, and UNSET refuses to arm. -/
def Sys2Proof.Claims.HallCommands : Prop :=
  ∀ (s : State) (p : PktRef) (k : Pkt) (c : Chip) (e : BitVec 12),
    let b := s.chip.barrier e
    let ns := s.time.ht.toNat / 64
    let t := k.n 40 8
    let mine : Prop := b.claimed = true ∧ b.tenant = k.tenant
    (Taken s p 0x0400 anySub k c → 127 < k.n 36 1 → Refuses s (.hallTime p) k c 3) ∧
    (Taken s p 0x0400 anySub k c → k.n 36 1 ≤ 127 → k.n 48 8 = 2 ^ 64 - 1 → k.n 40 8 = 0 → ∃ t, exec (.hallTime p) s = .next t ∧
      t.chip = c.reply s.env k { status := 0 } ∧ t.time = s.time ∧ t.htRegs.pps = {} ∧ (t.htRegs.waiting = none →
        t.htRegs.cfg.hold.toNat = k.n 38 2 ∧ t.htRegs.cfg.rootBound.toNat = k.n 37 1 ∧ t.htRegs.cfg.domain.toNat = k.n 36 1)) ∧
    (∀ i op, (i, op) ∈ [(Instr.hallBarrierArm p, 1), (Instr.hallBarrierDisarm p, 2), (Instr.hallBarrierRelease p, 3), (Instr.hallBarrierQuery p, 4)] →
      Taken s p 0x0401 (subAt 34 op) k c →
      (4096 ≤ k.n 32 2 → Refuses s i k c 3) ∧ (k.n 32 2 = e.toNat → ¬mine → 16 ≤ k.ring.toNat → Refuses s i k c 4)) ∧
    (k.n 32 2 = e.toNat →
      (Taken s p 0x0401 (subAt 34 0) k c → b.claimed = false ∨ b.tenant = k.tenant → Entry s (.hallBarrierClaim p) k c e
        { b with tenant := k.tenant, claimed := true, st := .idle, generation := 0 }) ∧
      (Taken s p 0x0401 (subAt 34 0) k c → b.claimed = true → b.tenant ≠ k.tenant → Refuses s (.hallBarrierClaim p) k c 4) ∧
      (Taken s p 0x0401 (subAt 34 1) k c → mine → s.time.st = .unset → Refuses s (.hallBarrierArm p) k c 14) ∧
      (Taken s p 0x0401 (subAt 34 1) k c → mine → s.time.st ≠ .unset → t < 2 ^ 64 - 1 - 1000000000 →
        (b.st = .armed → Answers s (.hallBarrierArm p) k c { status := 1, hint := (b.instant.toNat - ns + 999) / 1000 }) ∧
        (b.st ≠ .armed → ns < t → Entry s (.hallBarrierArm p) k c e
          { b with instant := BitVec.ofNat 64 t, st := .armed, late := false, unlocked := false }) ∧
        (b.st ≠ .armed → t ≤ ns → ∃ c2 r, Answers s (.hallBarrierArm p) k c2 r ∧ r.status = 0 ∧ c2.barrier e = { b with
          instant := BitVec.ofNat 64 t, st := .released, generation := b.generation + 1, late := true, unlocked := s.time.st != .locked })) ∧
      (Taken s p 0x0401 (subAt 34 2) k c → mine → b.st = .armed → Entry s (.hallBarrierDisarm p) k c e { b with st := .idle }) ∧
      (Taken s p 0x0401 (subAt 34 3) k c → mine → s.chip.cores = [] → Entry s (.hallBarrierRelease p) k c e { b with claimed := false, st := .idle }) ∧
      (∀ id x, Taken s p 0x0401 (subAt 34 3) k c → mine → s.chip.cores = [(id, x)] → x.hold = .barw e false →
        Refuses s (.hallBarrierRelease p) k c 1) ∧
      (Taken s p 0x0401 (subAt 34 4) k c → mine → Answers s (.hallBarrierQuery p) k c (okBody (c.barrierBytes e))))

/-- `hall.sched`, `hall.channel`, `hall.route`, `hall.send` and `hall.cancel` (R407, R409, R413, R420, R422, R423, R503): a load clears READY of the idle bank, arms the swap and waits;
while a swap is armed it is BUSY; an entry count above 4,096 is refused; a group's channel is sealed and unsealed; the route table must lie in tier 1;
a message waits at the port of its route as the manager's, is ABSENT without a route, and is cancelled while it waits. -/
def Sys2Proof.Claims.FabricCommands : Prop :=
  ∀ (s : State) (p : PktRef) (k : Pkt) (c : Chip) (q : PortId) (g : GroupId) (x : Group),
    let y := s.chip.port q
    let mask := k.n 32 8
    let part := c.schedPart k q
    let t := k.n 48 8
    let ns := s.time.ht.toNat / 64
    let dest := k.n 32 4
    let route := (s.chip.mem.bytes.get (s.chip.fab.routes + dest)).toNat
    let wire := k.n 32 2
    s.chip.cmd.waiting.length < 1024 →
    (Taken s p 0x0402 anySub k c → mask = 2 ^ q.toNat → part.txCount ≤ 4096 → part.rxCount ≤ 4096 → c.schedBad [part] = false →
      t < 2 ^ 64 - 1 - 1000000000 →
      (y.armed = none → y.bank = false → Waiting s (.hallSched p) k (c.setPort q { y with
        bank1 := { y.bank1 with ready := false }, loads := y.loads ++ [{ bank := true, tx := part.txs, rx := part.rxs }]
        armed := some (BitVec.ofNat 64 t) })) ∧
      (∀ a, y.armed = some a → Answers s (.hallSched p) k c { status := 1, hint := (a.toNat - ns + 999) / 1000 })) ∧
    (Taken s p 0x0402 anySub k c → mask = 2 ^ q.toNat → 4096 < part.txCount → y.bank = false →
      Refuses s (.hallSched p) k (c.setPort q { y with bank1 := { y.bank1 with ready := false } }) 8) ∧
    (∀ i op, (i, op) ∈ [(Instr.hallChannelSeal p, 0), (Instr.hallChannelUnseal p, 1)] → Taken s p 0x0403 (subAt 34 op) k c → wire < 4096 →
      s.chip.group (BitVec.ofNat 12 wire) = none → Refuses s i k c 3) ∧
    (Taken s p 0x0403 (subAt 34 0) k c → wire = g.toNat → s.chip.group g = some x → tblFind s.chip.coll.channels g.toNat = none →
      (s.chip.coll.channels.length < 64 → Answers s (.hallChannelSeal p) k { c with coll := { c.coll with
        channels := tblSet c.coll.channels g.toNat {} } } { status := 0 }) ∧
      (64 ≤ s.chip.coll.channels.length → Refuses s (.hallChannelSeal p) k c 5)) ∧
    (Taken s p 0x0403 (subAt 34 1) k c → wire = g.toNat → s.chip.group g = some x → Answers s (.hallChannelUnseal p) k { c with coll :=
      { c.coll with channels := tblErase c.coll.channels g.toNat } } { status := 0 }) ∧
    (Taken s p 0x0404 anySub k c → mask + 1048576 ≤ tier1End →
      Answers s (.hallRoute p) k { c with fab := { c.fab with routes := mask } } { status := 0 }) ∧
    (Taken s p 0x0404 anySub k c → tier1End < mask + 1048576 → Refuses s (.hallRoute p) k c 3) ∧
    (Taken s p 0x0405 anySub k c → dest < 2 ^ 20 → k.n 37 1 = 0 → dest ≠ s.chip.cmd.chip.toNat → route = 128 + q.toNat → y.absent = false →
      ∃ c2 m, Waiting s (.hallSend p) k c2 ∧ (c2.port q).waiting = y.waiting ++ [m] ∧ m.cls = .manager ∧ m.sender = some (k.ring, k.index) ∧
        m.flit.tag.toNat % 2 ^ 20 = dest ∧ m.flit.tag.toNat / 2 ^ 20 % 256 = k.n 36 1 ∧ c2.mem = s.chip.mem) ∧
    (Taken s p 0x0405 anySub k c → dest < 2 ^ 20 → k.n 37 1 = 0 → dest ≠ s.chip.cmd.chip.toNat → route < 128 →
      (∀ r ∈ s.chip.fab.ports, ∀ m ∈ r.2.waiting, m.sender ≠ some (k.ring, k.index)) →
      ∃ c2, Refuses s (.hallSend p) k c2 14 ∧ (c2.port 0).openDrop = satInc (s.chip.port 0).openDrop 1 ∧ c2.mem = s.chip.mem) ∧
    (Taken s p 0x0406 anySub k c → s.chip.cmd.waiting = [] → Refuses s (.hallCancel p) k c 10) ∧
    (∀ k2 m, Taken s p 0x0406 anySub k c → s.chip.cmd.waiting = [k2] → k2.op = 0x0405 → k2.ring = k.ring → k2.tag = k.n 32 2 →
      s.chip.fab.ports = [(q.toNat, y)] → y.waiting = [m] → m.sender = some (k2.ring, k2.index) →
      ∃ c2 : Chip, Answers s (.hallCancel p) k (c2.reply s.env k2 { status := 17 }) { status := 0 } ∧ (c2.port q) = { y with waiting := [] } ∧
        c2.cmd.waiting = [])

/-- `collective.define`, `collective.free`, `collective.op` and `collective.query` (R426, R427, R431, R448): a free number gets the group of the definition, a number in use is
refused; a group whose step is open is BUSY; an operation takes the lowest free contexts of its engines or CAPACITY; the status word is read. -/
def Obligations.CollectiveCommands : Prop :=
  ∀ (s : State) (p : PktRef) (k : Pkt) (c : Chip) (g : GroupId) (x : Group),
    let d := c.aread k.space (k.n 32 8) 64
    let members := (List.range (fieldLe d 4 4)).map (fun i => ofLe (c.aread k.space (fieldLe d 16 8 + 4 * i) 4))
    let e := c.aread k.space (k.n 40 8) 128
    let good : Prop := fieldLe d 0 2 = g.toNat ∧ fieldLe d 2 2 = k.tenant.toNat ∧ 2 ≤ fieldLe d 4 4 ∧ fieldLe d 4 4 ≤ 65536 ∧
      fieldLe d 8 4 < fieldLe d 4 4 ∧ fieldLe d 12 1 ≤ 1 ∧ fieldLe d 13 1 ≤ 1 ∧ fieldLe d 15 1 ≠ 0 ∧ fieldLe d 24 8 % 64 = 0 ∧
      powTwoIn (fieldLe d 32 4) 6 16 = true ∧ (∀ i, 40 ≤ i → i < 64 → d.getD i 0 = 0) ∧ (∀ m ∈ members, m < 2 ^ 20) ∧ members.Nodup ∧
      members[fieldLe d 8 4]? = some s.chip.cmd.chip.toNat
    (Taken s p 0x0500 anySub k c → good → s.chip.coll.groups.length < 4096 →
      (s.chip.group g = none → ∃ y : Group, Answers s (.collectiveDefine p) k (withGroup c g y) { status := 0 } ∧ y.tenant = k.tenant ∧
        y.rank = fieldLe d 8 4 ∧ y.members = members.map (BitVec.ofNat 20) ∧ y.drop = (fieldLe d 13 1 == 1) ∧
        y.arrival = (fieldLe d 12 1 == 1) ∧ y.weight.toNat = fieldLe d 15 1 ∧ y.ledger = fieldLe d 24 8 ∧ y.op = none ∧
        y.exact = false ∧ y.limit = (if fieldLe d 36 4 = 0 then 1000000 else fieldLe d 36 4)) ∧
      (s.chip.group g = some x → x.tenant = k.tenant → Refuses s (.collectiveDefine p) k c 1)) ∧
    (Taken s p 0x0500 anySub k c → 16 ≤ k.ring.toNat → fieldLe d 2 2 % 4096 ≠ k.tenant.toNat → Refuses s (.collectiveDefine p) k c 4) ∧
    (Taken s p 0x0501 anySub k c → NamesGroup s k 32 g x →
      (x.isOpen = true → Refuses s (.collectiveFree p) k c 1) ∧
      (x.isOpen = false → Answers s (.collectiveFree p) k { c with coll := { c.coll with
        groups := tblErase c.coll.groups g.toNat, channels := tblErase c.coll.channels g.toNat } } { status := 0 })) ∧
    (Taken s p 0x0502 anySub k c → NamesGroup s k 32 g x →
      (x.isOpen = true → Refuses s (.collectiveOp p) k c 1) ∧
      (x.isOpen = false → c.takeContexts g (fieldLe e 8 8) = none → Refuses s (.collectiveOp p) k c 5) ∧
      (∀ ctxs seg, x.isOpen = false → c.takeContexts g (fieldLe e 8 8) = some ctxs → descriptorBad x e = false → fieldLe e 24 4 = 1 →
        seg = c.aread k.space (fieldLe e 16 8) 48 → segmentBad x (fieldLe e 2 1 == 1) (fieldLe e 0 1 == 1 || fieldLe e 0 1 == 2) seg = false →
        fieldLe e 48 4 = 0 → ∃ op : CollOp, Answers s (.collectiveOp p) k (withGroup c g { x with op := some op }) { status := 0 } ∧
          op.kind = fieldLe e 0 1 ∧ op.operator = fieldLe e 1 1 ∧ op.contexts = ctxs ∧ op.cur = none ∧ op.margin = fieldLe e 28 4 ∧
          op.deadlines = fieldLe e 32 8 ∧ op.step.toNat = fieldLe e 56 8 % 2 ^ 48 ∧ ∃ r : Segment, op.segs = [r] ∧
          r.source = fieldLe seg 0 8 ∧ r.result = fieldLe seg 8 8 ∧ r.elems = fieldLe seg 32 4 ∧ r.control = fieldLe seg 40 8)) ∧
    (Taken s p 0x0503 anySub k c → NamesGroup s k 32 g x → Answers s (.collectiveQuery p) k c (okBody (leBytes 8 (c.gstat g).toNat))) ∧
    (Taken s p 0x0503 anySub k c → 4096 ≤ k.n 32 2 → Refuses s (.collectiveQuery p) k c 3)

/-- `instar.plan`, `instar.moult` and `instar.query` (R232, R235 to R237, R261, R264): a plan that keeps its tables is registered with the instar it gives; a moult with
its instants in order is armed and waits, and another is BUSY until the commit; the instar and the status of each die are read. -/
def Sys2Proof.Claims.InstarCommands : Prop :=
  ∀ (s : State) (p : PktRef) (k : Pkt) (c : Chip) (h : JobId) (j : Job) (pl : Plan) (g : Group),
    let start := k.n 40 8
    let deadline := k.n 48 8
    let commit := k.n 56 8
    let ns := s.time.ht.toNat / 64
    s.chip.cmd.waiting.length < 1024 →
    (Taken s p 0x0600 anySub k c → NoJob s (.instarPlan p) k c) ∧ (Taken s p 0x0601 anySub k c → NoJob s (.instarMoult p) k c) ∧
    (Taken s p 0x0602 anySub k c → NoJob s (.instarQuery p) k c) ∧
    (Taken s p 0x0600 anySub k c → Names s k h j →
      (∀ m, j.moult = some m → Answers s (.instarPlan p) k c { status := 1, hint := (m.commit.toNat - ns + 999) / 1000 }) ∧
      (j.moult = none → c.readPlan k.space j.tenant start (k.n 48 4 % 2) = none → Refuses s (.instarPlan p) k c 3) ∧
      (j.moult = none → c.readPlan k.space j.tenant start (k.n 48 4 % 2) = some pl → ∃ c2, Answers s (.instarPlan p) k c2 { status := 0 } ∧
        c2.job h = some { j with plan := some pl, instar := BitVec.ofNat 32 (k.n 48 4) } ∧ c2.cores = s.chip.cores)) ∧
    (Taken s p 0x0601 anySub k c → Names s k h j → j.plan = none → Refuses s (.instarMoult p) k c 3) ∧
    (∀ old, Taken s p 0x0601 anySub k c → Names s k h j → j.plan = some old →
      c.readPlan old.space j.tenant old.addr.toNat (j.instar.toNat % 2) = some pl →
      (deadline ≤ start ∨ commit < deadline + 20000 → Refuses s (.instarMoult p) k c 3) ∧
      (start < deadline → deadline + 20000 ≤ commit → commit < 2 ^ 64 - 1 - 1000000000 → s.chip.group pl.group = some g → g.tenant = k.tenant →
        (∀ m, j.moult = some m → Answers s (.instarMoult p) k c { status := 1, hint := (m.commit.toNat - ns + 999) / 1000 }) ∧
        (j.moult = none → j.instar ≠ BitVec.allOnes 32 → ns ≤ deadline → Waiting s (.instarMoult p) k (withJob c h { j with
          plan := some pl, moult := some { start := BitVec.ofNat 64 start, deadline := BitVec.ofNat 64 deadline, commit := BitVec.ofNat 64 commit } })) ∧
        (j.moult = none → j.instar = BitVec.allOnes 32 → Refuses s (.instarMoult p) k c 5))) ∧
    (Taken s p 0x0602 anySub k c → Names s k h j → Answers s (.instarQuery p) k c
      (okBody (leBytes 8 j.instar.toNat ++ (List.range 8).flatMap (fun d => leBytes 8 (c.mltStatus d).toNat))))

/-- `chrysalis.` and `digest.` (R460, R463, R465, R468, R470, R471): a take of an area that is large enough waits for its copy, one that is not says how much is short; a ring and a
map that keep their tables are set; the digest of a range is read; what is no chrysalis is neither verified, shipped nor loaded, and what verifies
is loaded with its instar. -/
def Sys2Proof.Claims.SnapshotCommands : Prop :=
  ∀ (s : State) (p : PktRef) (k : Pkt) (c : Chip) (h : JobId) (j : Job),
    let area := k.n 40 8
    let es := c.copied j j.instar.toNat
    let need := containerLength (sections es) es.length
    let free (r : Reply) (i : Instr) : Prop := exec i s = .next { chipNow s (c.reply s.env k r) with fresh := s.fresh + 1 }
    s.chip.cmd.waiting = [] →
    (Taken s p 0x0700 anySub k c → NoJob s (.chrysalisTake p) k c) ∧ (Taken s p 0x0800 anySub k c → NoJob s (.digestRing p) k c) ∧
    (Taken s p 0x0700 anySub k c → Names s k h j → j.digestRecords = 0 → Refuses s (.chrysalisTake p) k c 3) ∧
    (Taken s p 0x0700 anySub k c → Names s k h j → j.digestRecords ≠ 0 → es ≠ [] → es.length ≤ 65535 → area < 2 ^ 48 →
      c.resharding j.tenant = false → j.chrysalis = none →
      (k.n 48 8 < need → Answers s (.chrysalisTake p) k c { status := 5, body := leBytes 8 (need - k.n 48 8) }) ∧
      (need ≤ k.n 48 8 → c.inTier2 k.space area need = true → Waiting s (.chrysalisTake p) k (withJob c h { j with
        chrysalis := some { area := BitVec.ofNat 48 area, physical := k.space.isNone, instar := j.instar } }))) ∧
    (Taken s p 0x0701 anySub k c → k.n 48 1 ≤ 1 → k.n 52 4 = 0 → area < 2 ^ 52 → k.n 50 2 < 4096 →
      (k.n 48 1 = 0 → 16 ≤ k.ring.toNat → Refuses s (.chrysalisShip p) k c 4) ∧
      (k.n 48 1 = 1 → containerHead (c.aread k.space area 128) = false → Refuses s (.chrysalisShip p) k c 3) ∧
      (k.n 48 1 = 1 → containerHead (c.aread k.space area 128) = true → Waiting s (.chrysalisShip p) k c)) ∧
    (Taken s p 0x0702 anySub k c → c.verify k.space area = .malformed → free { status := 3 } (.chrysalisVerify p)) ∧
    (∀ i, Taken s p 0x0702 anySub k c → c.verify k.space area = .failing i → free { status := 15, body := leBytes 4 i } (.chrysalisVerify p)) ∧
    (∀ ss, Taken s p 0x0702 anySub k c → c.verify k.space area = .sound ss → free { status := 0 } (.chrysalisVerify p)) ∧
    (Taken s p 0x0703 anySub k c → Names s k h j → c.verify k.space area = .malformed → free { status := 3 } (.chrysalisLoad p)) ∧
    (∀ ss, Taken s p 0x0703 anySub k c → Names s k h j → c.verify k.space area = .sound ss → ∃ c2 : Chip,
      exec (.chrysalisLoad p) s = .next { chipNow s (c2.reply s.env k { status := 0 }) with fresh := s.fresh + 1 } ∧
      c2.job h = some { j with instar := BitVec.ofNat 32 (fieldLe (c.aread k.space area 128) 16 4) } ∧ c2.cores = s.chip.cores) ∧
    (Taken s p 0x0800 anySub k c → Names s k h j → powTwoIn (k.n 48 4) 6 16 = true → k.n 40 8 < 2 ^ 48 → k.n 56 8 < 2 ^ 48 →
      (c.mapBad j.tenant (k.n 56 8) = true → Refuses s (.digestRing p) k c 3) ∧
      (c.mapBad j.tenant (k.n 56 8) = false → Answers s (.digestRing p) k (withJob c h { j with
        digestBase := k.n 40 8, digestRecords := k.n 48 4, digestMap := k.n 56 8 }) { status := 0 })) ∧
    (Taken s p 0x0801 anySub k c → k.n 40 8 + k.n 48 8 ≤ 2 ^ 52 → ∃ poisoned : Byte, Answers s (.digestRegion p) k c
      (okBody (leBytes 16 (regionDigest (k.n 56 4) (c.aread k.space (k.n 40 8) (k.n 48 8))) ++ [poisoned])) ∧ poisoned.toNat ≤ 1) ∧
    (Taken s p 0x0801 anySub k c → 2 ^ 52 < k.n 40 8 + k.n 48 8 → Refuses s (.digestRegion p) k c 3)

/-- `repair.` (R357, R530, R531, R538): the table is read in part with its counts; an entry whose replacement is not free is refused, one of an HBM row is staged; a root slot
that did not verify the firmware is revoked, unless it is the last; the roll-back count only rises. -/
def Sys2Proof.Claims.RepairCommands : Prop :=
  ∀ (s : State) (p : PktRef) (k : Pkt) (c : Chip),
    let y := s.chip.sys
    let f := y.fuses
    let e := RepairEntry.ofBytes (slice k.bytes 32 16)
    let fused (i : Instr) (f' : Fuses) : Prop := Answers s i k { c with sys := { c.sys with fuses := f' } } { status := 0 }
    (Taken s p 0x0A00 anySub k c → Answers s (.repairQuery p) k c
      { status := 0, body := leBytes 4 y.repairs.length ++ leBytes 4 (y.repairs.countP (fun e => e.state == 0)),
        data := ((y.repairs.drop (k.n 32 4)).take (k.n 36 4)).flatMap RepairEntry.bytes }) ∧
    (Taken s p 0x0A01 anySub k c → e.kind = 0 ∨ 10 ≤ e.kind.toNat → Refuses s (.repairApply p) k c 3) ∧
    (Taken s p 0x0A01 anySub k c → e.kind = 3 → e.replacement = 0 → y.repairs.length < 16384 →
      Answers s (.repairApply p) k { c with sys := { c.sys with repairs := y.repairs ++ [{ e with state := 0 }] } } { status := 0 }) ∧
    (Taken s p 0x0A01 anySub k c → e.kind = 3 → e.replacement ≠ 0 → Refuses s (.repairApply p) k c 3) ∧
    (∀ slot : Fin 4, Taken s p 0x0A02 (subAt 32 0) k c → k.n 33 1 = slot.val →
      (y.rootSlot.toNat = slot.val ∨ f.revoke.getLsbD slot.val = true → Refuses s (.repairFuseRevoke p) k c 3) ∧
      (y.rootSlot.toNat ≠ slot.val → f.revoke.getLsbD slot.val = false → f.revoke.getLsbD y.rootSlot.toNat = false →
        fused (.repairFuseRevoke p) { f with revoke := f.revoke ||| (1#4 <<< slot.val) })) ∧
    (Taken s p 0x0A02 (subAt 32 1) k c →
      (k.n 33 1 ≤ f.rollback.toNat ∨ 64 < k.n 33 1 → Refuses s (.repairFuseRollback p) k c 3) ∧
      (f.rollback.toNat < k.n 33 1 → k.n 33 1 ≤ 64 → fused (.repairFuseRollback p) { f with rollback := BitVec.ofNat 7 (k.n 33 1) }))

namespace Sys2Proof.Claims

open Sys2Proof.Machine

/-- The instructions that a core carries out by itself: its scalar, vector, matrix, random and norm instructions. -/
def ownInstructions (id : CoreId) (w : Fields) : List Instr :=
  [.nop id w, .jal id w, .jr id w, .beq id w, .bne id w, .blt id w, .bge id w, .bltu id w, .bgeu id w, .loop id w,
   .bsel id w, .trap id w, .add id w, .sub id w, .and id w, .or id w, .xor id w, .shl id w, .shr id w, .sra id w, .mul id w,
   .min id w, .max id w, .addi id w, .li id w, .lih id w, .ldS id w, .stS id w, .mma id w, .mmaT4 id w, .mmaT4t id w,
   .mmaT4s id w, .mclose id w, .mwait id w, .vadd id w, .vsub id w, .vmul id w, .vfma id w, .vmin id w, .vmax id w,
   .vabs id w, .vneg id w, .vcmp id w, .vsel id w, .vrsum id w, .vrmax id w, .vrmaxi id w, .vcvt id w, .vldq id w,
   .vexp2 id w, .vexp id w, .vlog2 id w, .vlog id w, .vrcp id w, .vrsqrt id w, .vsqrt id w, .verf id w, .vtanh id w,
   .vsigm id w, .vsilu id w, .vgelu id w, .vcompress id w, .vexpand id w, .vmov id w, .vbcast id w, .vpopc id w,
   .tqpop id w, .vseed id w, .vseedSt id w, .cseed id w, .cseedSt id w, .vrand id w, .vsample id w, .vtopk id w,
   .vtopp id w, .vdrop id w, .vosmStat id w, .vosmMerge id w, .vosmScale id w, .vosmNorm id w, .vosmProb id w, .nbind id w,
   .nflush id w, .vnorm id w, .mscore id w, .msieve id w, .waitht id w, .htrd id w, .htrdH id w, .statRd id w,
   .statClr id w]

end Sys2Proof.Claims

/-- What an instruction of a core leaves alone (R145, R473): its own work changes that core, and of the rest only stamps of eyespot units: no other core,
memory, translation, tenant, job, fabric, hall time or queue. -/
def Obligations.CoresKeepApart : Prop :=
  ∀ (s : State) (id : CoreId) (w : Fields) (i : Instr), i ∈ ownInstructions id w →
    ∃ t, exec i s = .next t ∧ t = { s with chip := { s.chip with cores := t.chip.cores, eye := t.chip.eye } } ∧
      (∀ j, j ≠ id → t.chip.core j = s.chip.core j) ∧ (s.chip.coreRuns id = false → t = s)

/-- The machine after power-on (R380, R392, R473, R506, R524, Tables 05.5, 12.9, 15.2, 16.6, 19.4, 21.8 to 21.11, 22.9): the values that the register tables give. -/
def Obligations.ResetValues : Prop :=
  let s := State.reset
  let read (r : Reg) : W64 := s.regValue .manager r
  read .htCfg = 0x00A0100000000000 ∧ read .htNow = 0 ∧ s.time.st = .unset ∧ read .pwrLimit = 0x00000D4828000A01 ∧ read .pwrCool = 0x6928 ∧
  read .repBoot = 0 ∧ read .qos = 0x28801480 ∧ s.chip.sys.stage = 0 ∧ s.chip.sys.ready = false ∧
  (∀ p, (s.chip.port p).link = 0 ∧ (s.chip.port p).retired = 7) ∧ (∀ d, (s.chip.eyeUnit d).freeze = BitVec.ofNat 64 (2 ^ 64 - 1)) ∧
  (∀ n, (s.chip.ring n).enabled = false) ∧ s.chip.xlt.ownEnable = false ∧ s.time.ppsOut = false ∧ s.pending = []

/-! The statements that stand on several of these. -/

/-- A step runs the command in front of the queue, and on an empty queue lets 10 ns of the model's clock pass (log 3). -/
def Obligations.Step : Prop :=
  Sys2Proof.Claims.StepRunsFrontCommand ∧ Sys2Proof.Claims.EmptyQueueTicks

/-- The registers of a core and its scalar instructions (R144, Table 06.3). -/
def Obligations.ScalarInstructions : Prop :=
  Sys2Proof.Claims.RegisterFile ∧ Sys2Proof.Claims.ScalarArithmetic ∧ Sys2Proof.Claims.ScalarImmediate ∧ Sys2Proof.Claims.ScalarMemory

/-- Branches, jumps and the end of the instruction store (R148). -/
def Obligations.ControlFlow : Prop :=
  Sys2Proof.Claims.Branches ∧ Sys2Proof.Claims.InstructionBounds

/-- Exceptions at issue that a program itself raises (R143, R163, R164). -/
def Obligations.CoreExceptions : Prop :=
  Sys2Proof.Claims.SoftwareTrap ∧ Sys2Proof.Claims.UnusedFields

/-- Status words and hall time, as a core reads and clears them (R11, R162, R376). -/
def Obligations.SystemReads : Prop :=
  Sys2Proof.Claims.StatusWords ∧ Sys2Proof.Claims.HallTimeRead

/-- The functions of the vector engine, and a vector instruction over no element (R126, R128, R156). -/
def Obligations.VectorFunctions : Prop :=
  Sys2Proof.Claims.FunctionTables ∧ Sys2Proof.Claims.EmptyVector

/-- Comparisons and reductions (R125, Table 06.9). -/
def Obligations.VectorReductions : Prop :=
  Sys2Proof.Claims.VectorCompare ∧ Sys2Proof.Claims.Reductions

/-- Instructions that move, fill or select encodings (R123, R124, R134, R158, R308). -/
def Obligations.VectorMoves : Prop :=
  Sys2Proof.Claims.Moves ∧ Sys2Proof.Claims.VectorFills

/-- The generators and the values drawn from them (R69, R131, R307). -/
def Obligations.RandomNumbers : Prop :=
  Sys2Proof.Claims.Generators ∧ Sys2Proof.Claims.RandomValues

/-- Sampling and block scores (R161, R309 to R311). -/
def Obligations.SelectionAndScores : Prop :=
  Sys2Proof.Claims.Sampling ∧ Sys2Proof.Claims.BlockScores

/-- The online softmax (R292 to R298). -/
def Obligations.Softmax : Prop :=
  Sys2Proof.Claims.OnlineSoftmax ∧ Sys2Proof.Claims.SoftmaxOfNoScores ∧ Sys2Proof.Claims.SoftmaxMerge

/-- Norm slots and their flush into the norm table (R78, R157, R266 to R268). -/
def Obligations.Norms : Prop :=
  Sys2Proof.Claims.NormSlots ∧ Sys2Proof.Claims.NormFlushUpdate

/-- The matrix instructions at issue (R150 to R154). -/
def Obligations.MatrixInstructions : Prop :=
  Sys2Proof.Claims.MatrixIssue ∧ Sys2Proof.Claims.MatrixClose

/-- Passes in the array (R62, R90, R91, R101). -/
def Obligations.Passes : Prop :=
  Sys2Proof.Claims.PassStart ∧ Sys2Proof.Claims.ProductCycle

/-- Swaps of accumulator sets and the drain path (R70 to R79, R103). -/
def Obligations.SwapsAndDrains : Prop :=
  Sys2Proof.Claims.DeferredSwap ∧ Sys2Proof.Claims.Drains

/-- A load returns, and an atomic runs at its home (R160, R370). -/
def Obligations.LoadsAndAtomics : Prop :=
  Sys2Proof.Claims.LoadReturn ∧ Sys2Proof.Claims.AtomicAtHome

/-- Write buffers and fences (R360, R363, R364). -/
def Obligations.WritesAndFences : Prop :=
  Sys2Proof.Claims.WriteBuffer ∧ Sys2Proof.Claims.Fences

/-- Memory controllers and patrol scrub (R322, R325). -/
def Obligations.MemoryControllers : Prop :=
  Sys2Proof.Claims.Controllers ∧ Sys2Proof.Claims.PatrolScrub

/-- Transfer phases and the transfer instructions (R176 to R190). -/
def Obligations.Transfers : Prop :=
  Sys2Proof.Claims.TransferPhases ∧ Sys2Proof.Claims.TransferOpening

/-- Streams, from their lines to their end (R191 to R199). -/
def Obligations.Streams : Prop :=
  Sys2Proof.Claims.LineDelivery ∧ Sys2Proof.Claims.StreamEnds ∧ Sys2Proof.Claims.StreamPlaces

/-- Work items of a cluster and the end of one (R166, R167, R174). -/
def Obligations.WorkItems : Prop :=
  Sys2Proof.Claims.Items ∧ Sys2Proof.Claims.EndOfItem

/-- Waits for hall time and for barriers (R387 to R394). -/
def Obligations.Waits : Prop :=
  Sys2Proof.Claims.TimedWaits ∧ Sys2Proof.Claims.BarrierRelease

/-- Time states, the time tree, time flits and the pulse per second (R378 to R386). -/
def Obligations.TimeDistribution : Prop :=
  Sys2Proof.Claims.TimeStates ∧ Sys2Proof.Claims.TimeTree ∧ Sys2Proof.Claims.TimeFlits ∧ Sys2Proof.Claims.PulsePerSecond

/-- Spares, management processors and the repair commands (R528 to R541). -/
def Obligations.RepairUnits : Prop :=
  Sys2Proof.Claims.Spares ∧ Sys2Proof.Claims.Managers ∧ Sys2Proof.Claims.RepairCommands

/-- Lanes, banks and scheduled slots of a port (R399 to R415). -/
def Obligations.PortsAndSlots : Prop :=
  Sys2Proof.Claims.LanesAndBanks ∧ Sys2Proof.Claims.ScheduledSlots

/-- The repair path, absent partners and open slots (R416 to R422). -/
def Obligations.RepairAndOpenSlots : Prop :=
  Sys2Proof.Claims.RepairPath ∧ Sys2Proof.Claims.AbsentAndOpen

/-- Steps of a collective group, late contributions and sealed channels (R426 to R447). -/
def Obligations.CollectiveSteps : Prop :=
  Sys2Proof.Claims.StepInstants ∧ Sys2Proof.Claims.LateContributions ∧ Sys2Proof.Claims.SealedChannels

/-- The eyespot and its commands (R470 to R483). -/
def Obligations.EyespotUnit : Prop :=
  Sys2Proof.Claims.Eyespot ∧ Sys2Proof.Claims.EyespotAndDebug

/-- The registers of the device (R484 to R502). -/
def Obligations.RegisterMap : Prop :=
  Sys2Proof.Claims.RingRegisters ∧ Sys2Proof.Claims.Registers

/-- Supply inputs and throttling (R504 to R514). -/
def Obligations.PowerControl : Prop :=
  Sys2Proof.Claims.SupplyInputs ∧ Sys2Proof.Claims.Throttling

/-- Resets of the whole device and those that a command asks for (R526, R572, Table 22.2). -/
def Obligations.Resets : Prop :=
  Sys2Proof.Claims.FullResets ∧ Sys2Proof.Claims.DeviceResets

/-- Start-up and the pins (R524, R525, R543, R563, R570). -/
def Obligations.StartUpAndPins : Prop :=
  Sys2Proof.Claims.StartUp ∧ Sys2Proof.Claims.Pins

/-- The phases of a moult on a die (R245 to R258). -/
def Obligations.MoultRuns : Prop :=
  Sys2Proof.Claims.MoultStart ∧ Sys2Proof.Claims.MoultPhases

/-- The reduction of a moult's scores and its votes (R240 to R247). -/
def Obligations.MoultDecisions : Prop :=
  Sys2Proof.Claims.MoultReduction ∧ Sys2Proof.Claims.MoultVotes

/-- Mode changes, digests and chrysalis copies (R450 to R469). -/
def Obligations.StepBoundaries : Prop :=
  Sys2Proof.Claims.ModeChanges ∧ Sys2Proof.Claims.DigestsAndChrysalises

/-- Command packets, from the ring to the reply (R484 to R493). -/
def Obligations.CommandRings : Prop :=
  Sys2Proof.Claims.PacketRead ∧ Sys2Proof.Claims.PacketQueues ∧ Sys2Proof.Claims.Replies

/-- The commands of the tenant family (R349 to R356). -/
def Obligations.TenantCommands : Prop :=
  Sys2Proof.Claims.TenantBind ∧ Sys2Proof.Claims.Tenants

/-- The commands of the memory family (R328 to R331, R344, R347). -/
def Obligations.MemoryFamily : Prop :=
  Sys2Proof.Claims.Placement ∧ Sys2Proof.Claims.MemoryCommands

/-- The commands of the program family (R165 to R175, R450). -/
def Obligations.ProgramFamily : Prop :=
  Sys2Proof.Claims.ProgramCommands ∧ Sys2Proof.Claims.PreemptAndMode

/-- The commands of the hall and fabric families. -/
def Obligations.HallAndFabricFamilies : Prop :=
  Sys2Proof.Claims.HallCommands ∧ Sys2Proof.Claims.FabricCommands

/-- The commands of the instar and snapshot families. -/
def Obligations.InstarAndSnapshotFamilies : Prop :=
  Sys2Proof.Claims.InstarCommands ∧ Sys2Proof.Claims.SnapshotCommands
end

