-- ==== Sys2Proof/Laws/Table.lean ====
section
/-! SUPPORT. Laws of the keyed tables: what is read back after a write, and that rising keys stay rising. -/
namespace Sys2Proof

@[simp] theorem tblFind_tblSet_same {β : Type} (t : Tbl β) (k : Nat) (v : β) : tblFind (tblSet t k v) k = some v := by
  induction t with
  | nil => simp [tblSet, tblFind]
  | cons p t ih =>
    obtain ⟨j, w⟩ := p
    by_cases h : j = k
    · simp [tblSet, tblFind, h]
    · by_cases h2 : k < j <;> simp [tblSet, tblFind, h, h2, ih]

theorem tblFind_tblSet_other {β : Type} (t : Tbl β) (k i : Nat) (v : β) (hne : i ≠ k) :
    tblFind (tblSet t k v) i = tblFind t i := by
  induction t with
  | nil => simp [tblSet, tblFind, Ne.symm hne]
  | cons p t ih =>
    obtain ⟨j, w⟩ := p
    by_cases h : j = k
    · subst h; simp [tblSet, tblFind, Ne.symm hne]
    · by_cases h2 : k < j
      · simp [tblSet, tblFind, h, h2, Ne.symm hne]
      · simp [tblSet, tblFind, h, h2, ih]

@[simp] theorem tblFind_tblErase_same {β : Type} (t : Tbl β) (k : Nat) : tblFind (tblErase t k) k = none := by
  induction t with
  | nil => rfl
  | cons p t ih =>
    obtain ⟨j, w⟩ := p
    by_cases h : j = k
    · simpa [tblErase, h] using ih
    · simpa [tblErase, tblFind, h] using ih

theorem tblFind_tblErase_other {β : Type} (t : Tbl β) (k i : Nat) (hne : i ≠ k) : tblFind (tblErase t k) i = tblFind t i := by
  induction t with
  | nil => rfl
  | cons p t ih =>
    obtain ⟨j, w⟩ := p
    by_cases h : j = k
    · subst h; simpa [tblErase, tblFind, Ne.symm hne] using ih
    · by_cases hj : j = i
      · simp [tblErase, tblFind, hj, hne]
      · simpa [tblErase, tblFind, h, hj] using ih

theorem tblFind_tblMap {β : Type} (t : Tbl β) (f : Nat → β → β) (k : Nat) : tblFind (tblMap t f) k = (tblFind t k).map (f k) := by
  induction t with
  | nil => rfl
  | cons p t ih =>
    obtain ⟨j, w⟩ := p
    by_cases h : j = k
    · subst h; simp [tblMap, tblFind]
    · simpa [tblMap, tblFind, h] using ih

@[simp] theorem tblGet_tblSet_same {β : Type} (d : β) (t : Tbl β) (k : Nat) (v : β) : tblGet d (tblSet t k v) k = v := by
  simp [tblGet]

theorem tblGet_tblSet_other {β : Type} (d : β) (t : Tbl β) (k i : Nat) (v : β) (hne : i ≠ k) :
    tblGet d (tblSet t k v) i = tblGet d t i := by
  simp [tblGet, tblFind_tblSet_other t k i v hne]

@[simp] theorem tblSet_tblSet {β : Type} (t : Tbl β) (k : Nat) (v w : β) : tblSet (tblSet t k v) k w = tblSet t k w := by
  induction t with
  | nil => simp [tblSet]
  | cons p t ih =>
    obtain ⟨j, u⟩ := p
    by_cases h : j = k
    · simp [tblSet, h]
    · by_cases h2 : k < j <;> simp [tblSet, h, h2, ih]

@[simp] theorem tblGet_nil {β : Type} (d : β) (k : Nat) : tblGet d [] k = d := rfl
@[simp] theorem tblFind_nil {β : Type} (k : Nat) : tblFind ([] : Tbl β) k = none := rfl

end Sys2Proof
end

