-- ==== Sys2Proof/Laws/State.lean ====
section
/-! SUPPORT. What an update of the state leaves as it was: one lemma for each field and update, each true by rfl, and what an
updated unit reads as. -/
namespace Sys2Proof

/-! ### `Chip.setCore` -/

@[simp] theorem Chip.setCore_clusters (c : Chip) (id : CoreId) (k : Core) : (c.setCore id k).clusters = c.clusters := rfl
@[simp] theorem Chip.setCore_mem (c : Chip) (id : CoreId) (k : Core) : (c.setCore id k).mem = c.mem := rfl
@[simp] theorem Chip.setCore_xlt (c : Chip) (id : CoreId) (k : Core) : (c.setCore id k).xlt = c.xlt := rfl
@[simp] theorem Chip.setCore_tenants (c : Chip) (id : CoreId) (k : Core) : (c.setCore id k).tenants = c.tenants := rfl
@[simp] theorem Chip.setCore_jobs (c : Chip) (id : CoreId) (k : Core) : (c.setCore id k).jobs = c.jobs := rfl
@[simp] theorem Chip.setCore_barriers (c : Chip) (id : CoreId) (k : Core) : (c.setCore id k).barriers = c.barriers := rfl
@[simp] theorem Chip.setCore_eye (c : Chip) (id : CoreId) (k : Core) : (c.setCore id k).eye = c.eye := rfl
@[simp] theorem Chip.setCore_power (c : Chip) (id : CoreId) (k : Core) : (c.setCore id k).power = c.power := rfl
@[simp] theorem Chip.setCore_sys (c : Chip) (id : CoreId) (k : Core) : (c.setCore id k).sys = c.sys := rfl
@[simp] theorem Chip.setCore_cmd (c : Chip) (id : CoreId) (k : Core) : (c.setCore id k).cmd = c.cmd := rfl
@[simp] theorem Chip.setCore_seqs (c : Chip) (id : CoreId) (k : Core) : (c.setCore id k).seqs = c.seqs := rfl
@[simp] theorem Chip.setCore_fab (c : Chip) (id : CoreId) (k : Core) : (c.setCore id k).fab = c.fab := rfl
@[simp] theorem Chip.setCore_coll (c : Chip) (id : CoreId) (k : Core) : (c.setCore id k).coll = c.coll := rfl
@[simp] theorem Chip.setCore_reservations (c : Chip) (id : CoreId) (k : Core) : (c.setCore id k).reservations = c.reservations := rfl
@[simp] theorem Chip.setCore_returned (c : Chip) (id : CoreId) (k : Core) : (c.setCore id k).returned = c.returned := rfl

/-! ### `Chip.modCore` -/

@[simp] theorem Chip.modCore_clusters (c : Chip) (id : CoreId) (f : Core → Core) : (c.modCore id f).clusters = c.clusters := rfl
@[simp] theorem Chip.modCore_mem (c : Chip) (id : CoreId) (f : Core → Core) : (c.modCore id f).mem = c.mem := rfl
@[simp] theorem Chip.modCore_xlt (c : Chip) (id : CoreId) (f : Core → Core) : (c.modCore id f).xlt = c.xlt := rfl
@[simp] theorem Chip.modCore_tenants (c : Chip) (id : CoreId) (f : Core → Core) : (c.modCore id f).tenants = c.tenants := rfl
@[simp] theorem Chip.modCore_jobs (c : Chip) (id : CoreId) (f : Core → Core) : (c.modCore id f).jobs = c.jobs := rfl
@[simp] theorem Chip.modCore_barriers (c : Chip) (id : CoreId) (f : Core → Core) : (c.modCore id f).barriers = c.barriers := rfl
@[simp] theorem Chip.modCore_eye (c : Chip) (id : CoreId) (f : Core → Core) : (c.modCore id f).eye = c.eye := rfl
@[simp] theorem Chip.modCore_power (c : Chip) (id : CoreId) (f : Core → Core) : (c.modCore id f).power = c.power := rfl
@[simp] theorem Chip.modCore_sys (c : Chip) (id : CoreId) (f : Core → Core) : (c.modCore id f).sys = c.sys := rfl
@[simp] theorem Chip.modCore_cmd (c : Chip) (id : CoreId) (f : Core → Core) : (c.modCore id f).cmd = c.cmd := rfl
@[simp] theorem Chip.modCore_seqs (c : Chip) (id : CoreId) (f : Core → Core) : (c.modCore id f).seqs = c.seqs := rfl
@[simp] theorem Chip.modCore_fab (c : Chip) (id : CoreId) (f : Core → Core) : (c.modCore id f).fab = c.fab := rfl
@[simp] theorem Chip.modCore_coll (c : Chip) (id : CoreId) (f : Core → Core) : (c.modCore id f).coll = c.coll := rfl
@[simp] theorem Chip.modCore_reservations (c : Chip) (id : CoreId) (f : Core → Core) : (c.modCore id f).reservations = c.reservations := rfl
@[simp] theorem Chip.modCore_returned (c : Chip) (id : CoreId) (f : Core → Core) : (c.modCore id f).returned = c.returned := rfl

/-! ### `Chip.setCluster` -/

@[simp] theorem Chip.setCluster_cores (c : Chip) (cl : ClusterId) (x : Cluster) : (c.setCluster cl x).cores = c.cores := rfl
@[simp] theorem Chip.setCluster_mem (c : Chip) (cl : ClusterId) (x : Cluster) : (c.setCluster cl x).mem = c.mem := rfl
@[simp] theorem Chip.setCluster_xlt (c : Chip) (cl : ClusterId) (x : Cluster) : (c.setCluster cl x).xlt = c.xlt := rfl
@[simp] theorem Chip.setCluster_tenants (c : Chip) (cl : ClusterId) (x : Cluster) : (c.setCluster cl x).tenants = c.tenants := rfl
@[simp] theorem Chip.setCluster_jobs (c : Chip) (cl : ClusterId) (x : Cluster) : (c.setCluster cl x).jobs = c.jobs := rfl
@[simp] theorem Chip.setCluster_barriers (c : Chip) (cl : ClusterId) (x : Cluster) : (c.setCluster cl x).barriers = c.barriers := rfl
@[simp] theorem Chip.setCluster_eye (c : Chip) (cl : ClusterId) (x : Cluster) : (c.setCluster cl x).eye = c.eye := rfl
@[simp] theorem Chip.setCluster_power (c : Chip) (cl : ClusterId) (x : Cluster) : (c.setCluster cl x).power = c.power := rfl
@[simp] theorem Chip.setCluster_sys (c : Chip) (cl : ClusterId) (x : Cluster) : (c.setCluster cl x).sys = c.sys := rfl
@[simp] theorem Chip.setCluster_cmd (c : Chip) (cl : ClusterId) (x : Cluster) : (c.setCluster cl x).cmd = c.cmd := rfl
@[simp] theorem Chip.setCluster_seqs (c : Chip) (cl : ClusterId) (x : Cluster) : (c.setCluster cl x).seqs = c.seqs := rfl
@[simp] theorem Chip.setCluster_fab (c : Chip) (cl : ClusterId) (x : Cluster) : (c.setCluster cl x).fab = c.fab := rfl
@[simp] theorem Chip.setCluster_coll (c : Chip) (cl : ClusterId) (x : Cluster) : (c.setCluster cl x).coll = c.coll := rfl
@[simp] theorem Chip.setCluster_reservations (c : Chip) (cl : ClusterId) (x : Cluster) : (c.setCluster cl x).reservations = c.reservations := rfl
@[simp] theorem Chip.setCluster_returned (c : Chip) (cl : ClusterId) (x : Cluster) : (c.setCluster cl x).returned = c.returned := rfl

/-! ### `Chip.modCluster` -/

@[simp] theorem Chip.modCluster_cores (c : Chip) (cl : ClusterId) (f : Cluster → Cluster) : (c.modCluster cl f).cores = c.cores := rfl
@[simp] theorem Chip.modCluster_mem (c : Chip) (cl : ClusterId) (f : Cluster → Cluster) : (c.modCluster cl f).mem = c.mem := rfl
@[simp] theorem Chip.modCluster_xlt (c : Chip) (cl : ClusterId) (f : Cluster → Cluster) : (c.modCluster cl f).xlt = c.xlt := rfl
@[simp] theorem Chip.modCluster_tenants (c : Chip) (cl : ClusterId) (f : Cluster → Cluster) : (c.modCluster cl f).tenants = c.tenants := rfl
@[simp] theorem Chip.modCluster_jobs (c : Chip) (cl : ClusterId) (f : Cluster → Cluster) : (c.modCluster cl f).jobs = c.jobs := rfl
@[simp] theorem Chip.modCluster_barriers (c : Chip) (cl : ClusterId) (f : Cluster → Cluster) : (c.modCluster cl f).barriers = c.barriers := rfl
@[simp] theorem Chip.modCluster_eye (c : Chip) (cl : ClusterId) (f : Cluster → Cluster) : (c.modCluster cl f).eye = c.eye := rfl
@[simp] theorem Chip.modCluster_power (c : Chip) (cl : ClusterId) (f : Cluster → Cluster) : (c.modCluster cl f).power = c.power := rfl
@[simp] theorem Chip.modCluster_sys (c : Chip) (cl : ClusterId) (f : Cluster → Cluster) : (c.modCluster cl f).sys = c.sys := rfl
@[simp] theorem Chip.modCluster_cmd (c : Chip) (cl : ClusterId) (f : Cluster → Cluster) : (c.modCluster cl f).cmd = c.cmd := rfl
@[simp] theorem Chip.modCluster_seqs (c : Chip) (cl : ClusterId) (f : Cluster → Cluster) : (c.modCluster cl f).seqs = c.seqs := rfl
@[simp] theorem Chip.modCluster_fab (c : Chip) (cl : ClusterId) (f : Cluster → Cluster) : (c.modCluster cl f).fab = c.fab := rfl
@[simp] theorem Chip.modCluster_coll (c : Chip) (cl : ClusterId) (f : Cluster → Cluster) : (c.modCluster cl f).coll = c.coll := rfl
@[simp] theorem Chip.modCluster_reservations (c : Chip) (cl : ClusterId) (f : Cluster → Cluster) : (c.modCluster cl f).reservations = c.reservations := rfl
@[simp] theorem Chip.modCluster_returned (c : Chip) (cl : ClusterId) (f : Cluster → Cluster) : (c.modCluster cl f).returned = c.returned := rfl

/-! ### `Chip.setTenant` -/

@[simp] theorem Chip.setTenant_cores (c : Chip) (t : TenantId) (x : Tenant) : (c.setTenant t x).cores = c.cores := rfl
@[simp] theorem Chip.setTenant_clusters (c : Chip) (t : TenantId) (x : Tenant) : (c.setTenant t x).clusters = c.clusters := rfl
@[simp] theorem Chip.setTenant_mem (c : Chip) (t : TenantId) (x : Tenant) : (c.setTenant t x).mem = c.mem := rfl
@[simp] theorem Chip.setTenant_xlt (c : Chip) (t : TenantId) (x : Tenant) : (c.setTenant t x).xlt = c.xlt := rfl
@[simp] theorem Chip.setTenant_jobs (c : Chip) (t : TenantId) (x : Tenant) : (c.setTenant t x).jobs = c.jobs := rfl
@[simp] theorem Chip.setTenant_barriers (c : Chip) (t : TenantId) (x : Tenant) : (c.setTenant t x).barriers = c.barriers := rfl
@[simp] theorem Chip.setTenant_eye (c : Chip) (t : TenantId) (x : Tenant) : (c.setTenant t x).eye = c.eye := rfl
@[simp] theorem Chip.setTenant_power (c : Chip) (t : TenantId) (x : Tenant) : (c.setTenant t x).power = c.power := rfl
@[simp] theorem Chip.setTenant_sys (c : Chip) (t : TenantId) (x : Tenant) : (c.setTenant t x).sys = c.sys := rfl
@[simp] theorem Chip.setTenant_cmd (c : Chip) (t : TenantId) (x : Tenant) : (c.setTenant t x).cmd = c.cmd := rfl
@[simp] theorem Chip.setTenant_seqs (c : Chip) (t : TenantId) (x : Tenant) : (c.setTenant t x).seqs = c.seqs := rfl
@[simp] theorem Chip.setTenant_fab (c : Chip) (t : TenantId) (x : Tenant) : (c.setTenant t x).fab = c.fab := rfl
@[simp] theorem Chip.setTenant_coll (c : Chip) (t : TenantId) (x : Tenant) : (c.setTenant t x).coll = c.coll := rfl
@[simp] theorem Chip.setTenant_reservations (c : Chip) (t : TenantId) (x : Tenant) : (c.setTenant t x).reservations = c.reservations := rfl
@[simp] theorem Chip.setTenant_returned (c : Chip) (t : TenantId) (x : Tenant) : (c.setTenant t x).returned = c.returned := rfl

/-! ### `Chip.setJob` -/

@[simp] theorem Chip.setJob_cores (c : Chip) (j : JobId) (x : Job) : (c.setJob j x).cores = c.cores := rfl
@[simp] theorem Chip.setJob_clusters (c : Chip) (j : JobId) (x : Job) : (c.setJob j x).clusters = c.clusters := rfl
@[simp] theorem Chip.setJob_mem (c : Chip) (j : JobId) (x : Job) : (c.setJob j x).mem = c.mem := rfl
@[simp] theorem Chip.setJob_xlt (c : Chip) (j : JobId) (x : Job) : (c.setJob j x).xlt = c.xlt := rfl
@[simp] theorem Chip.setJob_tenants (c : Chip) (j : JobId) (x : Job) : (c.setJob j x).tenants = c.tenants := rfl
@[simp] theorem Chip.setJob_barriers (c : Chip) (j : JobId) (x : Job) : (c.setJob j x).barriers = c.barriers := rfl
@[simp] theorem Chip.setJob_eye (c : Chip) (j : JobId) (x : Job) : (c.setJob j x).eye = c.eye := rfl
@[simp] theorem Chip.setJob_power (c : Chip) (j : JobId) (x : Job) : (c.setJob j x).power = c.power := rfl
@[simp] theorem Chip.setJob_sys (c : Chip) (j : JobId) (x : Job) : (c.setJob j x).sys = c.sys := rfl
@[simp] theorem Chip.setJob_cmd (c : Chip) (j : JobId) (x : Job) : (c.setJob j x).cmd = c.cmd := rfl
@[simp] theorem Chip.setJob_seqs (c : Chip) (j : JobId) (x : Job) : (c.setJob j x).seqs = c.seqs := rfl
@[simp] theorem Chip.setJob_fab (c : Chip) (j : JobId) (x : Job) : (c.setJob j x).fab = c.fab := rfl
@[simp] theorem Chip.setJob_coll (c : Chip) (j : JobId) (x : Job) : (c.setJob j x).coll = c.coll := rfl
@[simp] theorem Chip.setJob_reservations (c : Chip) (j : JobId) (x : Job) : (c.setJob j x).reservations = c.reservations := rfl
@[simp] theorem Chip.setJob_returned (c : Chip) (j : JobId) (x : Job) : (c.setJob j x).returned = c.returned := rfl

/-! ### `Chip.setPort` -/

@[simp] theorem Chip.setPort_cores (c : Chip) (p : PortId) (x : Port) : (c.setPort p x).cores = c.cores := rfl
@[simp] theorem Chip.setPort_clusters (c : Chip) (p : PortId) (x : Port) : (c.setPort p x).clusters = c.clusters := rfl
@[simp] theorem Chip.setPort_mem (c : Chip) (p : PortId) (x : Port) : (c.setPort p x).mem = c.mem := rfl
@[simp] theorem Chip.setPort_xlt (c : Chip) (p : PortId) (x : Port) : (c.setPort p x).xlt = c.xlt := rfl
@[simp] theorem Chip.setPort_tenants (c : Chip) (p : PortId) (x : Port) : (c.setPort p x).tenants = c.tenants := rfl
@[simp] theorem Chip.setPort_jobs (c : Chip) (p : PortId) (x : Port) : (c.setPort p x).jobs = c.jobs := rfl
@[simp] theorem Chip.setPort_barriers (c : Chip) (p : PortId) (x : Port) : (c.setPort p x).barriers = c.barriers := rfl
@[simp] theorem Chip.setPort_eye (c : Chip) (p : PortId) (x : Port) : (c.setPort p x).eye = c.eye := rfl
@[simp] theorem Chip.setPort_power (c : Chip) (p : PortId) (x : Port) : (c.setPort p x).power = c.power := rfl
@[simp] theorem Chip.setPort_sys (c : Chip) (p : PortId) (x : Port) : (c.setPort p x).sys = c.sys := rfl
@[simp] theorem Chip.setPort_cmd (c : Chip) (p : PortId) (x : Port) : (c.setPort p x).cmd = c.cmd := rfl
@[simp] theorem Chip.setPort_seqs (c : Chip) (p : PortId) (x : Port) : (c.setPort p x).seqs = c.seqs := rfl
@[simp] theorem Chip.setPort_coll (c : Chip) (p : PortId) (x : Port) : (c.setPort p x).coll = c.coll := rfl
@[simp] theorem Chip.setPort_reservations (c : Chip) (p : PortId) (x : Port) : (c.setPort p x).reservations = c.reservations := rfl
@[simp] theorem Chip.setPort_returned (c : Chip) (p : PortId) (x : Port) : (c.setPort p x).returned = c.returned := rfl

/-! ### `Chip.modPort` -/

@[simp] theorem Chip.modPort_cores (c : Chip) (p : PortId) (f : Port → Port) : (c.modPort p f).cores = c.cores := rfl
@[simp] theorem Chip.modPort_clusters (c : Chip) (p : PortId) (f : Port → Port) : (c.modPort p f).clusters = c.clusters := rfl
@[simp] theorem Chip.modPort_mem (c : Chip) (p : PortId) (f : Port → Port) : (c.modPort p f).mem = c.mem := rfl
@[simp] theorem Chip.modPort_xlt (c : Chip) (p : PortId) (f : Port → Port) : (c.modPort p f).xlt = c.xlt := rfl
@[simp] theorem Chip.modPort_tenants (c : Chip) (p : PortId) (f : Port → Port) : (c.modPort p f).tenants = c.tenants := rfl
@[simp] theorem Chip.modPort_jobs (c : Chip) (p : PortId) (f : Port → Port) : (c.modPort p f).jobs = c.jobs := rfl
@[simp] theorem Chip.modPort_barriers (c : Chip) (p : PortId) (f : Port → Port) : (c.modPort p f).barriers = c.barriers := rfl
@[simp] theorem Chip.modPort_eye (c : Chip) (p : PortId) (f : Port → Port) : (c.modPort p f).eye = c.eye := rfl
@[simp] theorem Chip.modPort_power (c : Chip) (p : PortId) (f : Port → Port) : (c.modPort p f).power = c.power := rfl
@[simp] theorem Chip.modPort_sys (c : Chip) (p : PortId) (f : Port → Port) : (c.modPort p f).sys = c.sys := rfl
@[simp] theorem Chip.modPort_cmd (c : Chip) (p : PortId) (f : Port → Port) : (c.modPort p f).cmd = c.cmd := rfl
@[simp] theorem Chip.modPort_seqs (c : Chip) (p : PortId) (f : Port → Port) : (c.modPort p f).seqs = c.seqs := rfl
@[simp] theorem Chip.modPort_coll (c : Chip) (p : PortId) (f : Port → Port) : (c.modPort p f).coll = c.coll := rfl
@[simp] theorem Chip.modPort_reservations (c : Chip) (p : PortId) (f : Port → Port) : (c.modPort p f).reservations = c.reservations := rfl
@[simp] theorem Chip.modPort_returned (c : Chip) (p : PortId) (f : Port → Port) : (c.modPort p f).returned = c.returned := rfl

/-! ### `Chip.setGroup` -/

@[simp] theorem Chip.setGroup_cores (c : Chip) (g : GroupId) (x : Group) : (c.setGroup g x).cores = c.cores := rfl
@[simp] theorem Chip.setGroup_clusters (c : Chip) (g : GroupId) (x : Group) : (c.setGroup g x).clusters = c.clusters := rfl
@[simp] theorem Chip.setGroup_mem (c : Chip) (g : GroupId) (x : Group) : (c.setGroup g x).mem = c.mem := rfl
@[simp] theorem Chip.setGroup_xlt (c : Chip) (g : GroupId) (x : Group) : (c.setGroup g x).xlt = c.xlt := rfl
@[simp] theorem Chip.setGroup_tenants (c : Chip) (g : GroupId) (x : Group) : (c.setGroup g x).tenants = c.tenants := rfl
@[simp] theorem Chip.setGroup_jobs (c : Chip) (g : GroupId) (x : Group) : (c.setGroup g x).jobs = c.jobs := rfl
@[simp] theorem Chip.setGroup_barriers (c : Chip) (g : GroupId) (x : Group) : (c.setGroup g x).barriers = c.barriers := rfl
@[simp] theorem Chip.setGroup_eye (c : Chip) (g : GroupId) (x : Group) : (c.setGroup g x).eye = c.eye := rfl
@[simp] theorem Chip.setGroup_power (c : Chip) (g : GroupId) (x : Group) : (c.setGroup g x).power = c.power := rfl
@[simp] theorem Chip.setGroup_sys (c : Chip) (g : GroupId) (x : Group) : (c.setGroup g x).sys = c.sys := rfl
@[simp] theorem Chip.setGroup_cmd (c : Chip) (g : GroupId) (x : Group) : (c.setGroup g x).cmd = c.cmd := rfl
@[simp] theorem Chip.setGroup_seqs (c : Chip) (g : GroupId) (x : Group) : (c.setGroup g x).seqs = c.seqs := rfl
@[simp] theorem Chip.setGroup_fab (c : Chip) (g : GroupId) (x : Group) : (c.setGroup g x).fab = c.fab := rfl
@[simp] theorem Chip.setGroup_reservations (c : Chip) (g : GroupId) (x : Group) : (c.setGroup g x).reservations = c.reservations := rfl
@[simp] theorem Chip.setGroup_returned (c : Chip) (g : GroupId) (x : Group) : (c.setGroup g x).returned = c.returned := rfl

/-! ### `Chip.setBarrier` -/

@[simp] theorem Chip.setBarrier_cores (c : Chip) (e : BitVec 12) (b : Barrier) : (c.setBarrier e b).cores = c.cores := rfl
@[simp] theorem Chip.setBarrier_clusters (c : Chip) (e : BitVec 12) (b : Barrier) : (c.setBarrier e b).clusters = c.clusters := rfl
@[simp] theorem Chip.setBarrier_mem (c : Chip) (e : BitVec 12) (b : Barrier) : (c.setBarrier e b).mem = c.mem := rfl
@[simp] theorem Chip.setBarrier_xlt (c : Chip) (e : BitVec 12) (b : Barrier) : (c.setBarrier e b).xlt = c.xlt := rfl
@[simp] theorem Chip.setBarrier_tenants (c : Chip) (e : BitVec 12) (b : Barrier) : (c.setBarrier e b).tenants = c.tenants := rfl
@[simp] theorem Chip.setBarrier_jobs (c : Chip) (e : BitVec 12) (b : Barrier) : (c.setBarrier e b).jobs = c.jobs := rfl
@[simp] theorem Chip.setBarrier_eye (c : Chip) (e : BitVec 12) (b : Barrier) : (c.setBarrier e b).eye = c.eye := rfl
@[simp] theorem Chip.setBarrier_power (c : Chip) (e : BitVec 12) (b : Barrier) : (c.setBarrier e b).power = c.power := rfl
@[simp] theorem Chip.setBarrier_sys (c : Chip) (e : BitVec 12) (b : Barrier) : (c.setBarrier e b).sys = c.sys := rfl
@[simp] theorem Chip.setBarrier_cmd (c : Chip) (e : BitVec 12) (b : Barrier) : (c.setBarrier e b).cmd = c.cmd := rfl
@[simp] theorem Chip.setBarrier_seqs (c : Chip) (e : BitVec 12) (b : Barrier) : (c.setBarrier e b).seqs = c.seqs := rfl
@[simp] theorem Chip.setBarrier_fab (c : Chip) (e : BitVec 12) (b : Barrier) : (c.setBarrier e b).fab = c.fab := rfl
@[simp] theorem Chip.setBarrier_coll (c : Chip) (e : BitVec 12) (b : Barrier) : (c.setBarrier e b).coll = c.coll := rfl
@[simp] theorem Chip.setBarrier_reservations (c : Chip) (e : BitVec 12) (b : Barrier) : (c.setBarrier e b).reservations = c.reservations := rfl
@[simp] theorem Chip.setBarrier_returned (c : Chip) (e : BitVec 12) (b : Barrier) : (c.setBarrier e b).returned = c.returned := rfl

/-! ### `Chip.setSector` -/

@[simp] theorem Chip.setSector_cores (c : Chip) (n : SectorId) (x : Sector) : (c.setSector n x).cores = c.cores := rfl
@[simp] theorem Chip.setSector_clusters (c : Chip) (n : SectorId) (x : Sector) : (c.setSector n x).clusters = c.clusters := rfl
@[simp] theorem Chip.setSector_mem (c : Chip) (n : SectorId) (x : Sector) : (c.setSector n x).mem = c.mem := rfl
@[simp] theorem Chip.setSector_xlt (c : Chip) (n : SectorId) (x : Sector) : (c.setSector n x).xlt = c.xlt := rfl
@[simp] theorem Chip.setSector_tenants (c : Chip) (n : SectorId) (x : Sector) : (c.setSector n x).tenants = c.tenants := rfl
@[simp] theorem Chip.setSector_jobs (c : Chip) (n : SectorId) (x : Sector) : (c.setSector n x).jobs = c.jobs := rfl
@[simp] theorem Chip.setSector_barriers (c : Chip) (n : SectorId) (x : Sector) : (c.setSector n x).barriers = c.barriers := rfl
@[simp] theorem Chip.setSector_eye (c : Chip) (n : SectorId) (x : Sector) : (c.setSector n x).eye = c.eye := rfl
@[simp] theorem Chip.setSector_sys (c : Chip) (n : SectorId) (x : Sector) : (c.setSector n x).sys = c.sys := rfl
@[simp] theorem Chip.setSector_cmd (c : Chip) (n : SectorId) (x : Sector) : (c.setSector n x).cmd = c.cmd := rfl
@[simp] theorem Chip.setSector_seqs (c : Chip) (n : SectorId) (x : Sector) : (c.setSector n x).seqs = c.seqs := rfl
@[simp] theorem Chip.setSector_fab (c : Chip) (n : SectorId) (x : Sector) : (c.setSector n x).fab = c.fab := rfl
@[simp] theorem Chip.setSector_coll (c : Chip) (n : SectorId) (x : Sector) : (c.setSector n x).coll = c.coll := rfl
@[simp] theorem Chip.setSector_reservations (c : Chip) (n : SectorId) (x : Sector) : (c.setSector n x).reservations = c.reservations := rfl
@[simp] theorem Chip.setSector_returned (c : Chip) (n : SectorId) (x : Sector) : (c.setSector n x).returned = c.returned := rfl

/-! ### `Chip.modSector` -/

@[simp] theorem Chip.modSector_cores (c : Chip) (n : SectorId) (f : Sector → Sector) : (c.modSector n f).cores = c.cores := rfl
@[simp] theorem Chip.modSector_clusters (c : Chip) (n : SectorId) (f : Sector → Sector) : (c.modSector n f).clusters = c.clusters := rfl
@[simp] theorem Chip.modSector_mem (c : Chip) (n : SectorId) (f : Sector → Sector) : (c.modSector n f).mem = c.mem := rfl
@[simp] theorem Chip.modSector_xlt (c : Chip) (n : SectorId) (f : Sector → Sector) : (c.modSector n f).xlt = c.xlt := rfl
@[simp] theorem Chip.modSector_tenants (c : Chip) (n : SectorId) (f : Sector → Sector) : (c.modSector n f).tenants = c.tenants := rfl
@[simp] theorem Chip.modSector_jobs (c : Chip) (n : SectorId) (f : Sector → Sector) : (c.modSector n f).jobs = c.jobs := rfl
@[simp] theorem Chip.modSector_barriers (c : Chip) (n : SectorId) (f : Sector → Sector) : (c.modSector n f).barriers = c.barriers := rfl
@[simp] theorem Chip.modSector_eye (c : Chip) (n : SectorId) (f : Sector → Sector) : (c.modSector n f).eye = c.eye := rfl
@[simp] theorem Chip.modSector_sys (c : Chip) (n : SectorId) (f : Sector → Sector) : (c.modSector n f).sys = c.sys := rfl
@[simp] theorem Chip.modSector_cmd (c : Chip) (n : SectorId) (f : Sector → Sector) : (c.modSector n f).cmd = c.cmd := rfl
@[simp] theorem Chip.modSector_seqs (c : Chip) (n : SectorId) (f : Sector → Sector) : (c.modSector n f).seqs = c.seqs := rfl
@[simp] theorem Chip.modSector_fab (c : Chip) (n : SectorId) (f : Sector → Sector) : (c.modSector n f).fab = c.fab := rfl
@[simp] theorem Chip.modSector_coll (c : Chip) (n : SectorId) (f : Sector → Sector) : (c.modSector n f).coll = c.coll := rfl
@[simp] theorem Chip.modSector_reservations (c : Chip) (n : SectorId) (f : Sector → Sector) : (c.modSector n f).reservations = c.reservations := rfl
@[simp] theorem Chip.modSector_returned (c : Chip) (n : SectorId) (f : Sector → Sector) : (c.modSector n f).returned = c.returned := rfl

/-! ### `Chip.stamp` -/

@[simp] theorem Chip.stamp_cores (c : Chip) (v : Env) (src data : Nat) : (c.stamp v src data).cores = c.cores := rfl
@[simp] theorem Chip.stamp_clusters (c : Chip) (v : Env) (src data : Nat) : (c.stamp v src data).clusters = c.clusters := rfl
@[simp] theorem Chip.stamp_mem (c : Chip) (v : Env) (src data : Nat) : (c.stamp v src data).mem = c.mem := rfl
@[simp] theorem Chip.stamp_xlt (c : Chip) (v : Env) (src data : Nat) : (c.stamp v src data).xlt = c.xlt := rfl
@[simp] theorem Chip.stamp_tenants (c : Chip) (v : Env) (src data : Nat) : (c.stamp v src data).tenants = c.tenants := rfl
@[simp] theorem Chip.stamp_jobs (c : Chip) (v : Env) (src data : Nat) : (c.stamp v src data).jobs = c.jobs := rfl
@[simp] theorem Chip.stamp_barriers (c : Chip) (v : Env) (src data : Nat) : (c.stamp v src data).barriers = c.barriers := rfl
@[simp] theorem Chip.stamp_power (c : Chip) (v : Env) (src data : Nat) : (c.stamp v src data).power = c.power := rfl
@[simp] theorem Chip.stamp_sys (c : Chip) (v : Env) (src data : Nat) : (c.stamp v src data).sys = c.sys := rfl
@[simp] theorem Chip.stamp_cmd (c : Chip) (v : Env) (src data : Nat) : (c.stamp v src data).cmd = c.cmd := rfl
@[simp] theorem Chip.stamp_seqs (c : Chip) (v : Env) (src data : Nat) : (c.stamp v src data).seqs = c.seqs := rfl
@[simp] theorem Chip.stamp_fab (c : Chip) (v : Env) (src data : Nat) : (c.stamp v src data).fab = c.fab := rfl
@[simp] theorem Chip.stamp_coll (c : Chip) (v : Env) (src data : Nat) : (c.stamp v src data).coll = c.coll := rfl
@[simp] theorem Chip.stamp_reservations (c : Chip) (v : Env) (src data : Nat) : (c.stamp v src data).reservations = c.reservations := rfl
@[simp] theorem Chip.stamp_returned (c : Chip) (v : Env) (src data : Nat) : (c.stamp v src data).returned = c.returned := rfl

/-! ### `Chip.stampAt` -/

@[simp] theorem Chip.stampAt_cores (c : Chip) (v : Env) (t src data : Nat) : (c.stampAt v t src data).cores = c.cores := rfl
@[simp] theorem Chip.stampAt_clusters (c : Chip) (v : Env) (t src data : Nat) : (c.stampAt v t src data).clusters = c.clusters := rfl
@[simp] theorem Chip.stampAt_mem (c : Chip) (v : Env) (t src data : Nat) : (c.stampAt v t src data).mem = c.mem := rfl
@[simp] theorem Chip.stampAt_xlt (c : Chip) (v : Env) (t src data : Nat) : (c.stampAt v t src data).xlt = c.xlt := rfl
@[simp] theorem Chip.stampAt_tenants (c : Chip) (v : Env) (t src data : Nat) : (c.stampAt v t src data).tenants = c.tenants := rfl
@[simp] theorem Chip.stampAt_jobs (c : Chip) (v : Env) (t src data : Nat) : (c.stampAt v t src data).jobs = c.jobs := rfl
@[simp] theorem Chip.stampAt_barriers (c : Chip) (v : Env) (t src data : Nat) : (c.stampAt v t src data).barriers = c.barriers := rfl
@[simp] theorem Chip.stampAt_power (c : Chip) (v : Env) (t src data : Nat) : (c.stampAt v t src data).power = c.power := rfl
@[simp] theorem Chip.stampAt_sys (c : Chip) (v : Env) (t src data : Nat) : (c.stampAt v t src data).sys = c.sys := rfl
@[simp] theorem Chip.stampAt_cmd (c : Chip) (v : Env) (t src data : Nat) : (c.stampAt v t src data).cmd = c.cmd := rfl
@[simp] theorem Chip.stampAt_seqs (c : Chip) (v : Env) (t src data : Nat) : (c.stampAt v t src data).seqs = c.seqs := rfl
@[simp] theorem Chip.stampAt_fab (c : Chip) (v : Env) (t src data : Nat) : (c.stampAt v t src data).fab = c.fab := rfl
@[simp] theorem Chip.stampAt_coll (c : Chip) (v : Env) (t src data : Nat) : (c.stampAt v t src data).coll = c.coll := rfl
@[simp] theorem Chip.stampAt_reservations (c : Chip) (v : Env) (t src data : Nat) : (c.stampAt v t src data).reservations = c.reservations := rfl
@[simp] theorem Chip.stampAt_returned (c : Chip) (v : Env) (t src data : Nat) : (c.stampAt v t src data).returned = c.returned := rfl

/-! ### Updated units -/

@[simp] theorem Chip.core_setCore (c : Chip) (id : CoreId) (k : Core) : (c.setCore id k).core id = k := by
  simp [Chip.core, Chip.setCore]

theorem Chip.core_setCore_other (c : Chip) (id i : CoreId) (k : Core) (h : i ≠ id) : (c.setCore id k).core i = c.core i := by
  have : i.toNat ≠ id.toNat := fun e => h (BitVec.eq_of_toNat_eq e)
  simp [Chip.core, Chip.setCore, tblGet_tblSet_other _ _ _ _ _ this]

@[simp] theorem Chip.core_modCore (c : Chip) (id : CoreId) (f : Core → Core) : (c.modCore id f).core id = f (c.core id) := by
  simp [Chip.modCore]

@[simp] theorem Chip.setCore_setCore (c : Chip) (id : CoreId) (k l : Core) : (c.setCore id k).setCore id l = c.setCore id l := by
  simp [Chip.setCore]

@[simp] theorem Chip.cluster_setCluster (c : Chip) (cl : ClusterId) (x : Cluster) : (c.setCluster cl x).cluster cl = x := by
  simp [Chip.cluster, Chip.setCluster]

@[simp] theorem Chip.tenant_setTenant (c : Chip) (t : TenantId) (x : Tenant) : (c.setTenant t x).tenant t = some x := by
  simp [Chip.tenant, Chip.setTenant]

@[simp] theorem Chip.job_setJob (c : Chip) (j : JobId) (x : Job) : (c.setJob j x).job j = some x := by
  simp [Chip.job, Chip.setJob]

@[simp] theorem Chip.port_setPort (c : Chip) (p : PortId) (x : Port) : (c.setPort p x).port p = x := by
  simp [Chip.port, Chip.setPort]

@[simp] theorem Chip.port_modPort (c : Chip) (p : PortId) (f : Port → Port) : (c.modPort p f).port p = f (c.port p) := by
  simp [Chip.modPort]

theorem Chip.port_setPort_other (c : Chip) (p q : PortId) (x : Port) (h : q ≠ p) : (c.setPort p x).port q = c.port q := by
  have : q.toNat ≠ p.toNat := fun e => h (BitVec.eq_of_toNat_eq e)
  simp [Chip.port, Chip.setPort, tblGet_tblSet_other _ _ _ _ _ this]

@[simp] theorem Chip.group_setGroup (c : Chip) (g : GroupId) (x : Group) : (c.setGroup g x).group g = some x := by
  simp [Chip.group, Chip.setGroup]

@[simp] theorem Chip.barrier_setBarrier (c : Chip) (e : BitVec 12) (b : Barrier) : (c.setBarrier e b).barrier e = b := by
  simp [Chip.barrier, Chip.setBarrier]

theorem Chip.barrier_setBarrier_other (c : Chip) (e i : BitVec 12) (b : Barrier) (h : i ≠ e) :
    (c.setBarrier e b).barrier i = c.barrier i := by
  have : i.toNat ≠ e.toNat := fun x => h (BitVec.eq_of_toNat_eq x)
  simp [Chip.barrier, Chip.setBarrier, tblGet_tblSet_other _ _ _ _ _ this]

@[simp] theorem Chip.sector_setSector (c : Chip) (n : SectorId) (x : Sector) : (c.setSector n x).sector n = x := by
  simp [Chip.sector, Chip.setSector]

@[simp] theorem Chip.sector_modSector (c : Chip) (n : SectorId) (f : Sector → Sector) : (c.modSector n f).sector n = f (c.sector n) := by
  simp [Chip.modSector]

/-! ### What a unit reads as after an update of another -/

@[simp] theorem Chip.core_stamp (c : Chip) (v : Env) (src data : Nat) (id : CoreId) : (c.stamp v src data).core id = c.core id := rfl
@[simp] theorem Chip.cluster_setCore (c : Chip) (id : CoreId) (k : Core) (cl : ClusterId) :
    (c.setCore id k).cluster cl = c.cluster cl := rfl
@[simp] theorem Chip.sector_setCore (c : Chip) (id : CoreId) (k : Core) (n : SectorId) : (c.setCore id k).sector n = c.sector n := rfl
@[simp] theorem Chip.core_setCluster (c : Chip) (cl : ClusterId) (x : Cluster) (id : CoreId) :
    (c.setCluster cl x).core id = c.core id := rfl
@[simp] theorem Chip.job_setCore (c : Chip) (id : CoreId) (k : Core) (j : JobId) : (c.setCore id k).job j = c.job j := rfl
@[simp] theorem Chip.tenant_setCore (c : Chip) (id : CoreId) (k : Core) (t : TenantId) : (c.setCore id k).tenant t = c.tenant t := rfl
@[simp] theorem Chip.port_stamp (c : Chip) (v : Env) (src data : Nat) (p : PortId) : (c.stamp v src data).port p = c.port p := rfl
@[simp] theorem Chip.group_stamp (c : Chip) (v : Env) (src data : Nat) (g : GroupId) : (c.stamp v src data).group g = c.group g := rfl
@[simp] theorem Chip.job_stamp (c : Chip) (v : Env) (src data : Nat) (j : JobId) : (c.stamp v src data).job j = c.job j := rfl
@[simp] theorem Chip.barrier_stamp (c : Chip) (v : Env) (src data : Nat) (e : BitVec 12) :
    (c.stamp v src data).barrier e = c.barrier e := rfl

end Sys2Proof

namespace Sys2Proof.Machine

/-! ### The whole state -/

@[simp] theorem State.onChip_time (s : State) (f : Chip → Chip) : (s.onChip f).time = s.time := rfl
@[simp] theorem State.onChip_htRegs (s : State) (f : Chip → Chip) : (s.onChip f).htRegs = s.htRegs := rfl
@[simp] theorem State.onChip_now (s : State) (f : Chip → Chip) : (s.onChip f).now = s.now := rfl
@[simp] theorem State.onChip_fresh (s : State) (f : Chip → Chip) : (s.onChip f).fresh = s.fresh := rfl
@[simp] theorem State.onChip_pending (s : State) (f : Chip → Chip) : (s.onChip f).pending = s.pending := rfl
@[simp] theorem State.onTime_chip (s : State) (f : HallTime → HtRegs → HallTime) : (s.onTime f).chip = s.chip := rfl
@[simp] theorem State.onTime_htRegs (s : State) (f : HallTime → HtRegs → HallTime) : (s.onTime f).htRegs = s.htRegs := rfl
@[simp] theorem State.onTime_now (s : State) (f : HallTime → HtRegs → HallTime) : (s.onTime f).now = s.now := rfl
@[simp] theorem State.onTime_fresh (s : State) (f : HallTime → HtRegs → HallTime) : (s.onTime f).fresh = s.fresh := rfl
@[simp] theorem State.onTime_pending (s : State) (f : HallTime → HtRegs → HallTime) : (s.onTime f).pending = s.pending := rfl
@[simp] theorem State.onCore_time (s : State) (id : CoreId) (f : Core → Core) : (s.onCore id f).time = s.time := rfl
@[simp] theorem State.onCore_htRegs (s : State) (id : CoreId) (f : Core → Core) : (s.onCore id f).htRegs = s.htRegs := rfl
@[simp] theorem State.onCore_now (s : State) (id : CoreId) (f : Core → Core) : (s.onCore id f).now = s.now := rfl
@[simp] theorem State.onCore_fresh (s : State) (id : CoreId) (f : Core → Core) : (s.onCore id f).fresh = s.fresh := rfl
@[simp] theorem State.onCore_pending (s : State) (id : CoreId) (f : Core → Core) : (s.onCore id f).pending = s.pending := rfl
@[simp] theorem State.onChip_chip (s : State) (f : Chip → Chip) : (s.onChip f).chip = f s.chip := rfl
@[simp] theorem State.onTime_time (s : State) (f : HallTime → HtRegs → HallTime) : (s.onTime f).time = f s.time s.htRegs := rfl
@[simp] theorem State.onCore_chip (s : State) (id : CoreId) (f : Core → Core) : (s.onCore id f).chip = s.chip.onCore s.env id f := rfl

end Sys2Proof.Machine
end

