-- ==== Sys2Proof/Laws/Core.lean ====
section
/-! SUPPORT. Laws of one core: its registers (R144), what issue can do (R145, R148, R163), and what an instruction or event of a
core leaves as it was. -/
namespace Sys2Proof

/-! ### Registers -/

@[simp] theorem Core.reg_zero (c : Core) : c.reg 0 = 0 := rfl

/-- What a register reads as after a write: S0 reads zero and takes no write. -/
theorem Core.reg_setReg (c : Core) (d r : BitVec 4) (v : W32) :
    (c.setReg d v).reg r = if r = 0 then 0 else if r = d then v else c.reg r := by
  by_cases hr : r = 0
  · simp only [Core.reg, if_pos hr]
  · unfold Core.setReg
    split
    · rename_i hd
      rw [if_neg (fun e : r = d => hr (e.trans hd))]
    · simp only [Core.reg, if_neg hr]
      split
      · rename_i h
        subst h
        exact Vector.getElem_set_self _
      · rename_i h
        exact Vector.getElem_set_ne _ _ (fun e => h (BitVec.eq_of_toNat_eq e.symm))

/-! ### Issue -/

@[simp] theorem minCause_nil : minCause [] = none := rfl
@[simp] theorem when_false (k : Nat) : when false k = [] := rfl
@[simp] theorem when_true (k : Nat) : when true k = [k] := rfl
@[simp] theorem standingCauses_nil : standingCauses [] = [] := rfl

theorem Core.issueWith_waits (c : Core) (causes : List Nat) (code : Nat) (body : Core → IssueResult) (h : c.canIssue = false) :
    c.issueWith causes code body = c := by
  simp [Core.issueWith, h]

theorem Core.issueWith_clean (c : Core) (code : Nat) (body : Core → IssueResult) (h : c.canIssue = true) :
    c.issueWith [] code body = (match body c with
      | .wait => c
      | .raise k => c.raise k 0 c.pc
      | .done c' => c') := by
  unfold Core.issueWith
  rw [h]
  rfl

theorem Core.issueWith_raises (c : Core) (causes : List Nat) (code k : Nat) (body : Core → IssueResult) (h : c.canIssue = true)
    (hk : minCause (standingCauses causes) = some k) :
    c.issueWith causes code body = c.raise k (if k == cTrap then code else 0) c.pc := by
  simp [Core.issueWith, h, hk]

/-- A step that issues: its effect and the next index. -/
theorem Core.seqWith_done (c c' : Core) (body : Core → IssueResult) (h : c.canIssue = true) (hp : c.pc ≠ 2047)
    (hb : body c = .done c') : c.seqWith [] body = { c' with pc := c.pc + 1 } := by
  unfold Core.seqWith
  rw [Core.issueWith_clean _ _ _ h]
  simp only [hb]
  rw [if_neg (fun e => hp (eq_of_beq e))]

theorem Core.seqWith_wait (c : Core) (body : Core → IssueResult) (h : c.canIssue = true) (hb : body c = .wait) :
    c.seqWith [] body = c := by
  unfold Core.seqWith
  rw [Core.issueWith_clean _ _ _ h]
  simp only [hb]

theorem Core.seq_done (c : Core) (f : Core → Core) (h : c.canIssue = true) (hp : c.pc ≠ 2047) :
    c.seq [] f = { f c with pc := c.pc + 1 } :=
  Core.seqWith_done c (f c) _ h hp rfl

/-! ### One core of the chip -/

/-- An instruction that sets no cause and asks for no restoration changes the core and nothing else. -/
theorem Chip.onCore_eq (c : Chip) (v : Env) (id : CoreId) (f : Core → Core) (hr : c.coreRuns id = true)
    (he : (f (c.core id)).excCause = (c.core id).excCause) (hp : (f (c.core id)).restorePend = (c.core id).restorePend) :
    c.onCore v id f = c.setCore id (f (c.core id)) := by
  unfold Chip.onCore
  rw [if_pos hr]
  unfold Chip.stampFaults
  have e : (c.modCore id f).core id = f (c.core id) := by simp [Chip.modCore]
  rw [e]
  dsimp only
  rw [he, hp]
  have h2 : (!(c.core id).restorePend && (c.core id).restorePend) = false := by
    cases (c.core id).restorePend <;> rfl
  rw [h2]
  by_cases h : (c.core id).excCause = 0#8
  · rw [h]; rfl
  · rw [show ((c.core id).excCause == 0) = false from beq_eq_false_iff_ne.mpr h]; rfl

theorem Chip.onCore_stopped (c : Chip) (v : Env) (id : CoreId) (f : Core → Core) (hr : c.coreRuns id = false) :
    c.onCore v id f = c := by
  simp [Chip.onCore, hr]

/-- Every other core stays as it was. -/
theorem Chip.onCore_core_other (c : Chip) (v : Env) (id i : CoreId) (f : Core → Core) (h : i ≠ id) :
    (c.onCore v id f).core i = c.core i := by
  unfold Chip.onCore
  split
  · unfold Chip.stampFaults
    dsimp only
    split <;> split <;> simp [Chip.modCore, Chip.core_setCore_other _ _ _ _ h]
  · rfl

/-- What an instruction of one core can change: that core, and the eyespot units that stamp its faults. -/
theorem Chip.onCore_frame (c : Chip) (v : Env) (id : CoreId) (f : Core → Core) :
    ∃ e : EyeState, c.onCore v id f = { (if c.coreRuns id then c.setCore id (f (c.core id)) else c) with eye := e } := by
  unfold Chip.onCore
  split
  · unfold Chip.stampFaults
    dsimp only
    split <;> split <;> exact ⟨_, rfl⟩
  · exact ⟨_, rfl⟩

/-- What an instruction of one core does to the state, when it sets no cause and asks for no restoration. -/
theorem Machine.State.onCore_eq (s : Machine.State) (id : CoreId) (f : Core → Core) (k : Core) (hr : s.chip.coreRuns id = true)
    (e : f (s.chip.core id) = k) (he : k.excCause = (s.chip.core id).excCause) (hp : k.restorePend = (s.chip.core id).restorePend) :
    s.onCore id f = { s with chip := s.chip.setCore id k } := by
  subst e
  unfold Machine.State.onCore Machine.State.onChip
  dsimp only
  rw [Chip.onCore_eq _ _ _ _ hr he hp]

/-- A write of a register changes nothing but the registers. -/
theorem Core.setReg_frame (c : Core) (d : BitVec 4) (v : W32) : { c.setReg d v with regs := c.regs } = c := by
  unfold Core.setReg
  split <;> rfl

@[simp] theorem Core.setReg_zero (c : Core) (v : W32) : c.setReg 0 v = c := rfl
@[simp] theorem Core.setReg_pc (c : Core) (d : BitVec 4) (v : W32) : (c.setReg d v).pc = c.pc := by
  unfold Core.setReg
  split <;> rfl
@[simp] theorem Core.setReg_scratch (c : Core) (d : BitVec 4) (v : W32) : (c.setReg d v).scratch = c.scratch := by
  unfold Core.setReg
  split <;> rfl
@[simp] theorem Core.setReg_excCause (c : Core) (d : BitVec 4) (v : W32) : (c.setReg d v).excCause = c.excCause := by
  unfold Core.setReg
  split <;> rfl
@[simp] theorem Core.setReg_restorePend (c : Core) (d : BitVec 4) (v : W32) : (c.setReg d v).restorePend = c.restorePend := by
  unfold Core.setReg
  split <;> rfl

end Sys2Proof
end

