-- ==== Sys2Proof/Laws/Memory.lean ====
section
/-! SUPPORT. Laws of byte memories: every operation keeps the canonical form, a byte that has been written reads back, and every
other byte stays. -/
namespace Sys2Proof

theorem Memory.wfFrom_le {lo lo' : Nat} {m : Memory} (h : Memory.wfFrom lo m = true) (hl : lo' ≤ lo) :
    Memory.wfFrom lo' m = true := by
  cases m with
  | nil => rfl
  | cons p m =>
    simp only [Memory.wfFrom, Bool.and_eq_true, decide_eq_true_eq] at h ⊢
    exact ⟨⟨by omega, h.1.2⟩, h.2⟩

theorem Memory.wfFrom_filter (p : Host.Cell → Bool) {lo : Nat} {m : Memory} (h : Memory.wfFrom lo m = true) :
    Memory.wfFrom lo (m.filter p) = true := by
  induction m generalizing lo with
  | nil => rfl
  | cons c m ih =>
    obtain ⟨j, b⟩ := c
    simp only [Memory.wfFrom, Bool.and_eq_true, decide_eq_true_eq, bne_iff_ne, ne_eq, BitVec.ofNat_eq_ofNat] at h
    by_cases hp : p (j, b) = true
    · simp [hp, Memory.wfFrom, h, ih h.2]
    · simpa [List.filter_cons, hp] using ih (Memory.wfFrom_le h.2 (by omega))

theorem Memory.wfFrom_insert {lo a : Nat} {v : Byte} {m : Memory} (hv : v ≠ 0) (h : Memory.wfFrom lo m = true) (ha : lo ≤ a)
    (hf : ∀ c ∈ m, c.1 ≠ a) : Memory.wfFrom lo (m.insert a v) = true := by
  induction m generalizing lo with
  | nil => simpa [Memory.insert, Memory.wfFrom, ha] using hv
  | cons p m ih =>
    obtain ⟨j, b⟩ := p
    simp only [Memory.wfFrom, Bool.and_eq_true, decide_eq_true_eq, bne_iff_ne, ne_eq] at h
    have hj : j ≠ a := hf (j, b) (List.mem_cons_self ..)
    unfold Memory.insert
    split
    · simp only [Memory.wfFrom, Bool.and_eq_true, decide_eq_true_eq, bne_iff_ne, ne_eq]
      exact ⟨⟨ha, hv⟩, ⟨by omega, h.1.2⟩, h.2⟩
    · simp only [Memory.wfFrom, Bool.and_eq_true, decide_eq_true_eq, bne_iff_ne, ne_eq]
      exact ⟨h.1, ih h.2 (by omega) (fun c hc => hf c (List.mem_cons_of_mem _ hc))⟩

/-- A write of one byte keeps the canonical form. -/
theorem Memory.wf_set {m : Memory} (a : Nat) (v : Byte) (h : m.wf = true) : (m.set a v).wf = true := by
  unfold Memory.set
  dsimp only
  split
  · exact Memory.wfFrom_filter _ h
  · rename_i hv
    refine Memory.wfFrom_insert hv (Memory.wfFrom_filter _ h) (Nat.zero_le _) (fun c hc => ?_)
    simpa using (List.mem_filter.mp hc).2

/-- A write of bytes keeps the canonical form. -/
theorem Memory.wf_write (bs : List Byte) (m : Memory) (a : Nat) (h : m.wf = true) : (m.write a bs).wf = true := by
  induction bs generalizing m a with
  | nil => exact h
  | cons b bs ih => exact ih _ _ (Memory.wf_set a b h)

theorem Memory.wf_writeLe (m : Memory) (a n v : Nat) (h : m.wf = true) : (m.writeLe a n v).wf = true :=
  Memory.wf_write _ _ _ h

theorem Memory.wf_zero (m : Memory) (a n : Nat) (h : m.wf = true) : (m.zero a n).wf = true := Memory.wfFrom_filter _ h

theorem Memory.wf_copy (m : Memory) (src dst n : Nat) (h : m.wf = true) : (m.copy src dst n).wf = true :=
  Memory.wf_write _ _ _ h

/-! ### Reads after writes: of every memory, canonical or not -/

theorem Memory.get_filter_ne (m : Memory) (a i : Nat) (h : i ≠ a) : Memory.get (m.filter (fun c => c.1 != a)) i = m.get i := by
  induction m with
  | nil => rfl
  | cons p m ih =>
    obtain ⟨j, b⟩ := p
    by_cases hj : j = a
    · subst hj
      simpa [Memory.get, Ne.symm h] using ih
    · simp [hj, Memory.get, ih]

theorem Memory.get_filter_eq (m : Memory) (a : Nat) : Memory.get (m.filter (fun c => c.1 != a)) a = 0 := by
  induction m with
  | nil => rfl
  | cons p m ih =>
    obtain ⟨j, b⟩ := p
    by_cases hj : j = a
    · subst hj
      simpa using ih
    · simpa [hj, Memory.get] using ih

theorem Memory.get_insert (m : Memory) (a i : Nat) (v : Byte) (hf : ∀ c ∈ m, c.1 ≠ a) :
    (m.insert a v).get i = if i = a then v else m.get i := by
  induction m with
  | nil =>
    by_cases h : i = a
    · simp [Memory.insert, Memory.get, h]
    · simp [Memory.insert, Memory.get, h, Ne.symm h]
  | cons p m ih =>
    obtain ⟨j, b⟩ := p
    have hj : j ≠ a := hf (j, b) (List.mem_cons_self ..)
    have ih := ih (fun c hc => hf c (List.mem_cons_of_mem _ hc))
    unfold Memory.insert
    by_cases h : i = a
    · subst h
      split
      · simp [Memory.get]
      · simp [Memory.get, hj, ih]
    · split
      · simp [Memory.get, Ne.symm h]
      · simp [Memory.get, h, ih]

/-- A byte that has been written reads back, and every other byte stays. -/
@[simp] theorem Memory.get_set (m : Memory) (a i : Nat) (v : Byte) : (m.set a v).get i = if i = a then v else m.get i := by
  unfold Memory.set
  dsimp only
  split
  · rename_i hv
    split
    · rename_i h
      subst h
      rw [Memory.get_filter_eq, hv]
    · rename_i h
      exact Memory.get_filter_ne m a i h
  · rw [Memory.get_insert _ _ _ _ (fun c hc => by simpa using (List.mem_filter.mp hc).2)]
    split
    · rfl
    · rename_i h
      exact Memory.get_filter_ne m a i h

/-- Bytes that have been written read back, and every byte outside them stays. -/
theorem Memory.get_write (bs : List Byte) (m : Memory) (a i : Nat) :
    (m.write a bs).get i = if a ≤ i ∧ i < a + bs.length then bs.getD (i - a) 0 else m.get i := by
  induction bs generalizing m a with
  | nil => simp only [Memory.write, List.length_nil, Nat.add_zero]; rw [if_neg (by omega)]
  | cons b bs ih =>
    simp only [Memory.write]
    rw [ih, Memory.get_set]
    by_cases h1 : i = a
    · subst h1
      have h2 : ¬ (i + 1 ≤ i ∧ i < i + 1 + bs.length) := by omega
      simp [h2]
    · by_cases h2 : a + 1 ≤ i ∧ i < a + 1 + bs.length
      · have h3 : a ≤ i ∧ i < a + (b :: bs).length := by simp; omega
        rw [if_pos h2, if_pos h3]
        have : i - a = (i - (a + 1)) + 1 := by omega
        rw [this]; rfl
      · have h3 : ¬ (a ≤ i ∧ i < a + (b :: bs).length) := by simp; omega
        rw [if_neg h2, if_neg h3, if_neg h1]

/-- Every byte outside a write stays. -/
theorem Memory.get_write_outside (bs : List Byte) (m : Memory) (a i : Nat) (h : i < a ∨ a + bs.length ≤ i) :
    (m.write a bs).get i = m.get i := by
  rw [Memory.get_write, if_neg (by omega)]

@[simp] theorem leBytes_length (n v : Nat) : (leBytes n v).length = n := by
  induction n generalizing v with
  | zero => rfl
  | succ n ih => simp [leBytes, ih]

theorem Memory.get_writeLe_outside (m : Memory) (a n v i : Nat) (h : i < a ∨ a + n ≤ i) : (m.writeLe a n v).get i = m.get i :=
  Memory.get_write_outside _ _ _ _ (by simpa using h)

/-- The value of the low `n` bytes. -/
theorem ofLe_leBytes (n v : Nat) : ofLe (leBytes n v) = v % 256 ^ n := by
  induction n generalizing v with
  | zero => simp [leBytes, ofLe, Nat.mod_one]
  | succ n ih =>
    simp only [leBytes, ofLe, ih, BitVec.toNat_ofNat]
    rw [show 256 ^ (n + 1) = 256 * 256 ^ n from Nat.pow_succ', Nat.mod_mul]

/-- Bytes read where they have been written. -/
theorem Memory.read_write_self (bs : List Byte) (m : Memory) (a : Nat) : (m.write a bs).read a bs.length = bs := by
  apply List.ext_getElem
  · simp [Memory.read]
  · intro i h1 h2
    simp only [Memory.read, List.getElem_map, List.getElem_range, Memory.get_write]
    rw [if_pos (by omega)]
    simp [List.getD, h2]

/-- Bytes read beside a write. -/
theorem Memory.read_write_outside (bs : List Byte) (m : Memory) (a b n : Nat) (h : b + n ≤ a ∨ a + bs.length ≤ b) :
    (m.write a bs).read b n = m.read b n := by
  unfold Memory.read
  refine List.map_congr_left (fun i hi => Memory.get_write_outside _ _ _ _ ?_)
  have := List.mem_range.mp hi
  omega

/-- A value that has been written reads back. -/
theorem Memory.readLe_writeLe (m : Memory) (a n v : Nat) : (m.writeLe a n v).readLe a n = v % 256 ^ n := by
  unfold Memory.readLe Memory.writeLe
  have h := Memory.read_write_self (leBytes n v) m a
  rw [leBytes_length] at h
  rw [h, ofLe_leBytes]

theorem Memory.readLe_writeLe_outside (m : Memory) (a n v b k : Nat) (h : b + k ≤ a ∨ a + n ≤ b) :
    (m.writeLe a n v).readLe b k = m.readLe b k := by
  unfold Memory.readLe Memory.writeLe
  rw [Memory.read_write_outside _ _ _ _ _ (by simpa using h)]

@[simp] theorem Memory.wf_nil : Memory.wf [] = true := rfl

end Sys2Proof
end

