-- ==== Sys2Proof/Laws/Step.lean ====
section
/-! SUPPORT. What the operations behind the meanings keep: the commands that wait, the count of free values, and the ranges of hall
time's registers. -/
namespace Sys2Proof.Machine

/-- `t` follows `s` by an operation that touches no command that waits, takes back no free value and keeps the registers of hall
time in their ranges. -/
structure Kept (s t : State) : Prop where
  pending : t.pending = s.pending
  fresh : s.fresh ≤ t.fresh
  inv : HtInv s.htRegs → HtInv t.htRegs

theorem Kept.refl (s : State) : Kept s s := ⟨rfl, Nat.le_refl _, id⟩

theorem Kept.trans {s t u : State} (h : Kept s t) (g : Kept t u) : Kept s u :=
  ⟨g.pending.trans h.pending, Nat.le_trans h.fresh g.fresh, fun i => g.inv (h.inv i)⟩

/-- Anything that leaves the queue and the registers of hall time and takes no free value back. -/
theorem Kept.of_eq {s t : State} (hp : t.pending = s.pending) (hf : s.fresh ≤ t.fresh) (hr : t.htRegs = s.htRegs) : Kept s t :=
  ⟨hp, hf, fun i => hr ▸ i⟩

theorem kept_onChip (s : State) (f : Chip → Chip) : Kept s (s.onChip f) := .of_eq rfl (Nat.le_refl _) rfl
theorem kept_chip (s : State) (c : Chip) : Kept s { s with chip := c } := .of_eq rfl (Nat.le_refl _) rfl
theorem kept_onCore (s : State) (id : CoreId) (f : Core → Core) : Kept s (s.onCore id f) := kept_onChip s _
theorem kept_onTime (s : State) (f : HallTime → HtRegs → HallTime) : Kept s (s.onTime f) := .of_eq rfl (Nat.le_refl _) rfl
theorem kept_took (s : State) (n : Nat) (f : Chip → Chip) : Kept s (s.took n f) := .of_eq rfl (Nat.le_add_right _ _) rfl
theorem kept_timeEvent (s : State) (f : HallTime → HtRegs → HallTime) : Kept s (s.timeEvent f) := .of_eq rfl (Nat.le_refl _) rfl

/-- The registers of hall time after reset. -/
theorem htInv_reset : HtInv {} :=
  ⟨by unfold CfgInv; decide, (by intro c h; cases h), by decide, by decide⟩

theorem kept_fullReset (s : State) (kind : ResetKind) : Kept s (s.fullReset kind) :=
  ⟨rfl, Nat.le_refl _, fun _ => htInv_reset⟩

theorem kept_coldReset (s : State) : Kept s s.coldReset := by
  unfold State.coldReset
  split
  · exact .refl s
  · exact kept_fullReset s _

theorem kept_powerOn (s : State) (pos cool : BitVec 2) : Kept s (s.powerOn pos cool) :=
  (kept_fullReset s _).trans (kept_onChip _ _)

theorem kept_powerLoss (s : State) : Kept s s.powerLoss := by
  unfold State.powerLoss
  split
  · exact .refl s
  · split
    · exact kept_fullReset s _
    · exact .refl s

theorem kept_thermalTrip (s : State) (tj : Byte) : Kept s (s.thermalTrip tj) := by
  unfold State.thermalTrip
  split
  · exact .refl s
  · exact (kept_fullReset s _).trans (kept_onChip _ _)

/-- Free values that the end of a stage takes. -/
theorem kept_fresh (s : State) (n : Nat) : Kept s { s with fresh := s.fresh + n } := .of_eq rfl (Nat.le_add_right _ _) rfl

theorem kept_bootStage (s : State) (r : BootResult) : Kept s (s.bootStage r) := by
  have h := kept_onChip s (fun c => c.bootStage s.env r)
  cases r with
  | memory _ _ => exact h.trans (kept_fresh _ 2)
  | imagesBad => exact h.trans (kept_fresh _ 1)
  | system good =>
    cases good
    · exact h.trans (kept_fresh _ 1)
    · exact h
  | supplies => exact h
  | image _ => exact h
  | repairTable _ => exact h
  | stackFailed =>
    unfold State.bootStage
    dsimp only
    split
    · exact .of_eq rfl (Nat.le_refl _) rfl
    · exact h
  | ports _ => exact h
  | links _ => exact h
  | selfTest _ => exact h

theorem kept_deviceReset (s : State) (p : PktRef) (kind : Nat) (f : State → State) (hf : ∀ x, Kept x (f x)) :
    Kept s (s.deviceReset p kind f) := by
  unfold State.deviceReset
  split
  · exact .refl s
  · exact (kept_chip s _).trans (hf _)

theorem kept_takeover (s : State) : Kept s s.takeover := by
  unfold State.takeover
  dsimp only
  split
  · exact .of_eq rfl (Nat.le_refl _) rfl
  · exact kept_onChip s _

theorem kept_upstreamSwitch (s : State) : Kept s s.upstreamSwitch := by
  unfold State.upstreamSwitch
  split
  · exact .refl s
  · exact .of_eq rfl (Nat.le_refl _) rfl

theorem kept_timeFlitReceive (s : State) (p : PortId) (a : TimeArrival) : Kept s (s.timeFlitReceive p a) := by
  unfold State.timeFlitReceive
  split
  · exact .refl s
  · exact (kept_onChip s _).trans (kept_timeEvent _ _)

theorem kept_ppsInEdge (s : State) (rising : Bool) : Kept s (s.ppsInEdge rising) := by
  unfold State.ppsInEdge
  dsimp only
  split
  · exact (kept_timeEvent s _).trans (kept_onChip _ _)
  · exact kept_timeEvent s _

theorem kept_ppsOutEdge (s : State) (rising : Bool) : Kept s (s.ppsOutEdge rising) := by
  unfold State.ppsOutEdge
  dsimp only
  split
  · exact .refl s
  · split
    · exact .of_eq rfl (Nat.le_refl _) rfl
    · exact kept_onTime s _

/-! ### Writes of the registers of hall time (R380, Tables 15.2 and 15.8) -/

theorem htInv_writeCfg (r : HtRegs) (w : W64) (h : HtInv r) : HtInv (r.writeCfg w) := by
  unfold HtRegs.writeCfg
  dsimp only
  split
  · exact h
  · rename_i hd
    split
    · exact ⟨h.1, fun c e => by cases e; exact Nat.le_of_not_lt hd, h.2.2⟩
    · exact ⟨Nat.le_of_not_lt hd, (by intro c e; cases e), h.2.2⟩

theorem htInv_writePps (r : HtRegs) (w : W64) (h : HtInv r) : HtInv (r.writePps w) := by
  refine ⟨h.1, h.2.1, ?_, ?_⟩
  · unfold HtRegs.writePps
    dsimp only
    split
    · rename_i ho
      rw [BitVec.toNat_ofNat]
      exact Nat.lt_of_le_of_lt (Nat.mod_le _ _) ho
    · exact h.2.2.1
  · unfold HtRegs.writePps
    dsimp only
    split
    · rename_i ho
      rw [BitVec.toNat_ofNat]
      exact Nat.lt_of_le_of_lt (Nat.mod_le _ _) ho
    · exact h.2.2.2

/-- A frame boundary takes a write that waits, which is in range too. -/
theorem htInv_boundary (r : HtRegs) (h : HtInv r) : HtInv r.boundary := by
  unfold HtRegs.boundary
  split
  · rename_i c e
    exact ⟨h.2.1 c e, (by intro c e; cases e), h.2.2⟩
  · exact h

theorem kept_regWrite (s : State) (w : W64) (r : Reg) : Kept s (s.regWrite w r) := by
  unfold State.regWrite
  split
  · exact ⟨rfl, Nat.le_refl _, htInv_writeCfg _ _⟩
  · exact ⟨rfl, Nat.le_refl _, htInv_writePps _ _⟩
  · exact .of_eq rfl (Nat.le_refl _) rfl
  · exact .of_eq rfl (Nat.le_refl _) rfl
  · exact kept_onChip s _

/-! ### Accesses of the device regions and of application cores -/

theorem kept_deviceWrite (s : State) (m : Master) (off : Nat) (whole : Bool) (w : W64) : Kept s (s.deviceWrite m off whole w) := by
  unfold State.deviceWrite
  split
  · split
    · exact kept_onChip s _
    · exact .refl s
  · split
    · exact .refl s
    · split
      · exact kept_onChip s _
      · split
        · exact kept_regWrite s w _
        · exact .refl s

theorem kept_deviceRead (s : State) (m : Master) (off : Nat) (whole : Bool) : Kept s (s.deviceRead m off whole).1 := by
  unfold State.deviceRead
  split
  · dsimp only
    split
    · exact kept_onChip s _
    · exact .refl s
  · split
    · exact .of_eq rfl (Nat.le_add_right _ 1) rfl
    · split
      · exact kept_chip s _
      · split
        · unfold State.regRead
          dsimp only
          split
          · exact kept_onTime s _
          · exact .refl s
        · exact .refl s

theorem kept_give (s : State) (x : State × W64) (m : Master) (h : Kept s x.1) : Kept s (State.give x m) := h.trans (kept_onChip _ _)

theorem kept_appMemory (s : State) (a : AppId) (addr n : Nat) (reads : Bool) (f : State → State) (hf : ∀ x, Kept x (f x)) :
    Kept s (s.appMemory a addr n reads f) := by
  unfold State.appMemory
  split
  · split
    · exact kept_give _ _ _ (kept_chip s _)
    · exact .refl s
  · split
    · exact (kept_onChip s _).trans (kept_onChip _ _)
    · exact hf s

theorem kept_appAccess (s : State) (a : AppId) (x : AppAccess) : Kept s (s.appAccess a x) := by
  unfold State.appAccess
  split
  · exact kept_onChip s _
  · dsimp only
    split
    · exact kept_give _ _ _ (kept_deviceRead _ _ _ _)
    · exact kept_appMemory _ _ _ _ _ _ (fun x => kept_give _ _ _ (kept_chip x _))
  · dsimp only
    split
    · exact kept_deviceWrite _ _ _ _ _
    · exact kept_appMemory _ _ _ _ _ _ (fun x => kept_onChip x _)
  · dsimp only
    split
    · exact kept_onChip s _
    · split
      · exact kept_give _ _ _ (kept_deviceRead _ _ _ _)
      · exact kept_appMemory _ _ _ _ _ _ (fun x => (kept_give x _ _ (.refl x)).trans (kept_onChip _ _))
  · dsimp only
    split
    · exact kept_give _ _ _ (kept_deviceRead _ _ _ _)
    · exact kept_appMemory _ _ _ _ _ _ (fun x => (kept_give x _ _ (kept_chip x _)).trans (kept_onChip _ _))
  · dsimp only
    split
    · exact kept_give _ _ _ (kept_deviceRead _ _ _ _)
    · refine kept_appMemory _ _ _ _ _ _ (fun x => (kept_give x _ _ ?_).trans (kept_onChip _ _))
      dsimp only
      split
      · exact kept_onChip x _
      · exact .refl x

theorem kept_command (s : State) (p : PktRef) (op : Nat) (sub : Pkt → Bool) (body : State → Pkt → State × Reply)
    (hb : ∀ x k, Kept x (body x k).1) : Kept s (s.command p op sub body) := by
  unfold State.command
  split
  · exact .refl s
  · dsimp only
    exact (kept_chip s _).trans ((hb _ _).trans (kept_onChip _ _))

theorem kept_debugReg (s : State) (k : Pkt) : Kept s (s.debugReg k).1 := by
  unfold State.debugReg
  have hw := kept_deviceWrite s .debug (k.n 32 8) true (BitVec.ofNat 64 (k.n 48 8))
  have hr := kept_deviceRead s .debug (k.n 32 8) true
  dsimp only
  split
  · exact .refl s
  · split
    · exact hw
    · exact hr

theorem kept_hallTime (s : State) (p : PktRef) : Kept s (s.hallTime p) := by
  unfold State.hallTime
  split
  · exact .refl s
  · dsimp only
    split
    · exact .of_eq rfl (Nat.le_refl _) rfl
    · exact ⟨rfl, Nat.le_refl _, fun h => htInv_writePps _ _ (htInv_writeCfg _ _ h)⟩

/-- The tick keeps the registers of hall time in their ranges. -/
theorem htInv_tick (s : State) (h : HtInv s.htRegs) : HtInv s.tick.htRegs := by
  unfold State.tick
  dsimp only
  split
  · exact h
  · exact htInv_boundary _ h

end Sys2Proof.Machine
end

