-- ==== Sys2Proof/Laws/Vector.lean ====
section
/-! SUPPORT. Laws of the vector engine: elements of the byte formats, issue cycles, and what element-wise work leaves in the
scratchpad. -/
namespace Sys2Proof

/-! ### Elements of whole bytes -/

/-- Bytes of an element of a format that vector arithmetic takes. -/
theorem Fmt.elemBytes_mul (f : Fmt) (h : f.noArith = false) (n : Nat) : f.elemBytes n = f.width / 8 * n := by
  cases f <;> first | (exact absurd h (by decide)) | (simp [Fmt.elemBytes, Fmt.width])

theorem elemAt_eq (m : Memory) (f : Fmt) (h : f.noArith = false) (base i : Nat) :
    elemAt m f base i = m.readLe (base + f.width / 8 * i) (f.width / 8) := by
  cases f <;> first
    | (exact absurd h (by decide))
    | rfl
    | (simp [elemAt, Fmt.width, Memory.readLe, Memory.read, ofLe])

theorem writeElem_eq (m : Memory) (f : Fmt) (h : f.noArith = false) (base k code : Nat) :
    writeElem m f base k code = m.writeLe (base + f.width / 8 * k) (f.width / 8) code := by
  unfold writeElem
  rw [Fmt.elemBytes_mul f h]
  cases f <;> first | (exact absurd h (by decide)) | rfl

theorem Fmt.width_pos (f : Fmt) (h : f.noArith = false) : 0 < f.width / 8 := by
  cases f <;> first | (exact absurd h (by decide)) | decide

theorem Fmt.pow_width (f : Fmt) (h : f.noArith = false) : 256 ^ (f.width / 8) = 2 ^ f.width := by
  cases f <;> first | (exact absurd h (by decide)) | decide

/-- An element that has been written reads back; the others stay. -/
theorem elemAt_writeElem (m : Memory) (f : Fmt) (h : f.noArith = false) (base k i code : Nat) :
    elemAt (writeElem m f base k code) f base i = if i = k then code % 2 ^ f.width else elemAt m f base i := by
  rw [elemAt_eq _ f h, elemAt_eq _ f h, writeElem_eq _ f h]
  have hw := Fmt.width_pos f h
  split
  · rename_i e
    subst e
    rw [Memory.readLe_writeLe, Fmt.pow_width f h]
  · rename_i e
    refine Memory.readLe_writeLe_outside _ _ _ _ _ _ ?_
    generalize f.width / 8 = s at hw
    rcases Nat.lt_or_ge i k with hl | hl
    · left
      have : s * (i + 1) ≤ s * k := Nat.mul_le_mul_left s hl
      rw [Nat.mul_add] at this
      omega
    · right
      have : s * (k + 1) ≤ s * i := Nat.mul_le_mul_left s (by omega)
      rw [Nat.mul_add] at this
      omega

/-- A byte outside a run of `n` elements stays when one of them is written. -/
theorem get_writeElem_outside (m : Memory) (f : Fmt) (h : f.noArith = false) (base k n a code : Nat) (hk : k < n)
    (ha : a < base ∨ base + f.elemBytes n ≤ a) : (writeElem m f base k code).get a = m.get a := by
  rw [writeElem_eq _ f h]
  rw [Fmt.elemBytes_mul f h] at ha
  refine Memory.get_writeLe_outside _ _ _ _ _ ?_
  generalize f.width / 8 = s at ha ⊢
  rcases ha with ha | ha
  · left; omega
  · right
    have : s * (k + 1) ≤ s * n := Nat.mul_le_mul_left s hk
    rw [Nat.mul_add] at this
    omega

/-! ### Issue cycles (R120) -/

theorem issueCycles_upto (n l k : Nat) :
    (List.range k).flatMap (fun q => (List.range (min l (n - q * l))).map (· + q * l)) = List.range (min (k * l) n) := by
  induction k with
  | zero => simp
  | succ k ih =>
    rw [List.range_succ, List.flatMap_append, ih]
    simp only [List.flatMap_cons, List.flatMap_nil, List.append_nil, Nat.succ_mul]
    rcases Nat.lt_or_ge n (k * l) with h | h
    · rw [show min l (n - k * l) = 0 by omega, show min (k * l) n = n by omega, show min (k * l + l) n = n by omega]
      simp
    · rw [show min (k * l) n = k * l by omega, show min (k * l + l) n = k * l + min l (n - k * l) by omega, List.range_add]
      congr 1
      exact List.map_congr_left (fun x _ => Nat.add_comm _ _)

/-- The issue cycles take every element once, in ascending order. -/
theorem issueCycles_flatten (n l : Nat) (h : 0 < l) : (issueCycles n l).flatten = List.range n := by
  unfold issueCycles
  rw [← List.flatMap_def, issueCycles_upto]
  congr 1
  have : n ≤ ceilDiv n l * l := by
    unfold ceilDiv
    have := Nat.div_add_mod (n + l - 1) l
    have := Nat.mod_lt (n + l - 1) h
    rw [Nat.mul_comm]
    omega
  omega

/-! ### Element-wise work -/

/-- What element `i` takes: the encoding of its value when it is active, 0 under `.Z`, else nothing. -/
def elemResult (w : Fields) (act : Memory → Nat → Bool) (rnds : List Rnd) (val : Memory → Nat → FVal)
    (enc : FVal → Rnd → Nat × Flags) (m : Memory) (i : Nat) : Option (Nat × Flags) :=
  if act m i then some (enc (val m i) (nth .rn rnds i)) else if vZ w then some (0, 0) else none

/-- One element written, and its flags. -/
def elemStep (f : Fmt) (dst : Nat) (res : Nat → Option (Nat × Flags)) (acc : Memory × Flags) (i : Nat) : Memory × Flags :=
  match res i with
  | some x => (writeElem acc.1 f dst i x.1, acc.2 ||| x.2)
  | none => acc

theorem elemStep_get (f : Fmt) (hf : f.noArith = false) (dst n : Nat) (res : Nat → Option (Nat × Flags)) (acc : Memory × Flags) (i a : Nat)
    (hi : i < n) (ha : a < dst ∨ dst + f.elemBytes n ≤ a) : (elemStep f dst res acc i).1.get a = acc.1.get a := by
  unfold elemStep
  split
  · exact get_writeElem_outside _ f hf _ _ n _ _ hi ha
  · rfl

theorem elemSteps_get (f : Fmt) (hf : f.noArith = false) (dst n : Nat) (res : Nat → Option (Nat × Flags)) (is : List Nat)
    (acc : Memory × Flags) (a : Nat) (hi : ∀ i ∈ is, i < n) (ha : a < dst ∨ dst + f.elemBytes n ≤ a) :
    (is.foldl (elemStep f dst res) acc).1.get a = acc.1.get a := by
  induction is generalizing acc with
  | nil => rfl
  | cons i is ih =>
    rw [List.foldl_cons, ih _ (fun j hj => hi j (List.mem_cons_of_mem _ hj))]
    exact elemStep_get f hf dst n res acc i a (hi i (List.mem_cons_self ..)) ha

theorem elemSteps_elem (f : Fmt) (hf : f.noArith = false) (dst : Nat) (res : Nat → Option (Nat × Flags)) (n : Nat)
    (acc : Memory × Flags) (i : Nat) :
    elemAt ((List.range n).foldl (elemStep f dst res) acc).1 f dst i =
      if i < n then (match res i with
        | some x => x.1 % 2 ^ f.width
        | none => elemAt acc.1 f dst i) else elemAt acc.1 f dst i := by
  induction n with
  | zero => simp
  | succ n ih =>
    rw [List.range_succ, List.foldl_append, List.foldl_cons, List.foldl_nil]
    generalize (List.range n).foldl (elemStep f dst res) acc = b at ih
    unfold elemStep
    by_cases h : i = n
    · subst h
      rw [if_neg (Nat.lt_irrefl _)] at ih
      rw [if_pos (Nat.lt_succ_self _)]
      split
      · rw [elemAt_writeElem _ f hf, if_pos rfl]
      · exact ih
    · have e : (i < n + 1) ↔ (i < n) := ⟨fun _ => by omega, fun _ => by omega⟩
      simp only [e, ← ih]
      split
      · rw [elemAt_writeElem _ f hf, if_neg h]
      · rfl

theorem elemSteps_flags (f : Fmt) (dst : Nat) (res : Nat → Option (Nat × Flags)) (is : List Nat) (acc : Memory × Flags) :
    (is.foldl (elemStep f dst res) acc).2 = is.foldl (fun (fl : Flags) i => match res i with
      | some x => fl ||| x.2
      | none => fl) acc.2 := by
  induction is generalizing acc with
  | nil => rfl
  | cons i is ih =>
    rw [List.foldl_cons, List.foldl_cons, ih]
    unfold elemStep
    cases res i <;> rfl

theorem elemSteps_other (f : Fmt) (hf : f.noArith = false) (dst : Nat) (res : Nat → Option (Nat × Flags)) (is : List Nat)
    (acc : Memory × Flags) (i : Nat) (h : i ∉ is) :
    elemAt (is.foldl (elemStep f dst res) acc).1 f dst i = elemAt acc.1 f dst i := by
  induction is generalizing acc with
  | nil => rfl
  | cons j is ih =>
    rw [List.foldl_cons, ih _ (fun hm => h (List.mem_cons_of_mem _ hm))]
    unfold elemStep
    split
    · rw [elemAt_writeElem _ f hf, if_neg (fun e : i = j => h (e ▸ List.mem_cons_self ..))]
    · rfl

/-- A cycle of the engine, when what its elements take does not depend on what earlier cycles wrote. -/
theorem cycle_eq (f : Fmt) (dst : Nat) (res : Nat → Option (Nat × Flags)) (is : List Nat) (acc : Memory × Flags) :
    (is.zip (is.map res)).foldl (fun (acc : Memory × Flags) p =>
        match p.2 with
        | some x => (writeElem acc.1 f dst p.1 x.1, acc.2 ||| x.2)
        | none => acc) acc = is.foldl (elemStep f dst res) acc := by
  induction is generalizing acc with
  | nil => rfl
  | cons i is ih =>
    simp only [List.map_cons, List.zip_cons_cons, List.foldl_cons]
    rw [ih]
    rfl

/-- Element-wise work outside the MX formats, when an element depends on nothing in the destination but its own old encoding (R117,
R120, R121): every element has its result or stays, every byte outside the destination stays, and CVT collects the flags. -/
theorem Core.elementwise_spec (c : Core) (w : Fields) (dst n l : Nat) (act : Memory → Nat → Bool) (rnds : List Rnd)
    (val : Memory → Nat → FVal) (enc : FVal → Rnd → Nat × Flags) (hf : (fmt1 w).noArith = false) (hl : 0 < l)
    (hs : ∀ m : Memory, (∀ a, a < dst ∨ dst + (fmt1 w).elemBytes n ≤ a → m.get a = c.scratch.get a) →
      ∀ i, i < n → elemAt m (fmt1 w) dst i = elemAt c.scratch (fmt1 w) dst i →
        act m i = act c.scratch i ∧ val m i = val c.scratch i) :
    let res := elemResult w act rnds val enc c.scratch
    let c' := c.elementwise w dst n l act rnds val enc
    c' = { c with scratch := c'.scratch, cvt := c'.cvt } ∧
    (∀ i, i < n → elemAt c'.scratch (fmt1 w) dst i = (match res i with
      | some x => x.1 % 2 ^ (fmt1 w).width
      | none => elemAt c.scratch (fmt1 w) dst i)) ∧
    (∀ a, a < dst ∨ dst + (fmt1 w).elemBytes n ≤ a → c'.scratch.get a = c.scratch.get a) ∧
    c'.cvt = c.cvt ||| (List.range n).foldl (fun (fl : Flags) i => match res i with
      | some x => fl ||| x.2
      | none => fl) 0 := by
  intro res c'
  have hmx : (fmt1 w).isMx = false := by
    generalize fmt1 w = f at hf
    cases f <;> first | (exact absurd hf (by decide)) | rfl
  have key : ∀ (iss : List (List Nat)) (acc : Memory × Flags), (∀ i ∈ iss.flatten, i < n) → iss.flatten.Nodup →
      (∀ i ∈ iss.flatten, elemAt acc.1 (fmt1 w) dst i = elemAt c.scratch (fmt1 w) dst i) →
      (∀ a, a < dst ∨ dst + (fmt1 w).elemBytes n ≤ a → acc.1.get a = c.scratch.get a) →
      iss.foldl (fun (acc : Memory × Flags) is =>
        let m := acc.1
        let rs := is.map (fun i => if act m i then some (enc (val m i) (nth .rn rnds i)) else if vZ w then some (0, 0) else none)
        (is.zip rs).foldl (fun (acc : Memory × Flags) p =>
          match p.2 with
          | some x => (writeElem acc.1 (fmt1 w) dst p.1 x.1, acc.2 ||| x.2)
          | none => acc) acc) acc = iss.flatten.foldl (elemStep (fmt1 w) dst res) acc := by
    intro iss
    induction iss with
    | nil => intro acc _ _ _ _; rfl
    | cons is iss ih =>
      intro acc hi hn he ha
      rw [List.flatten_cons] at hi hn he
      have hi0 : ∀ i ∈ is, i < n := fun i h => hi i (List.mem_append_left _ h)
      have hd := List.nodup_append.mp hn
      have e : is.map (fun i => if act acc.1 i then some (enc (val acc.1 i) (nth .rn rnds i)) else
          if vZ w then some (0, 0) else none) = is.map res := by
        refine List.map_congr_left (fun i hm => ?_)
        have := hs acc.1 ha i (hi0 i hm) (he i (List.mem_append_left _ hm))
        rw [this.1, this.2]
        rfl
      simp only [List.foldl_cons, List.flatten_cons, List.foldl_append]
      rw [e, cycle_eq]
      refine ih _ (fun i h => hi i (List.mem_append_right _ h)) hd.2.1 (fun i h => ?_) (fun a h => ?_)
      · rw [elemSteps_other _ hf dst res is acc i (fun hm => hd.2.2 i hm i h rfl)]
        exact he i (List.mem_append_right _ h)
      · rw [elemSteps_get _ hf dst n res is acc a hi0 h, ha a h]
  have hin : ∀ i ∈ (issueCycles n l).flatten, i < n := by
    rw [issueCycles_flatten n l hl]
    exact fun i h => List.mem_range.mp h
  have hnd : (issueCycles n l).flatten.Nodup := by
    rw [issueCycles_flatten n l hl]
    exact List.nodup_range
  have hc : c' = { c with
      scratch := ((List.range n).foldl (elemStep (fmt1 w) dst res) (c.scratch, 0)).1
      cvt := c.cvt ||| ((List.range n).foldl (elemStep (fmt1 w) dst res) (c.scratch, 0)).2 } := by
    show c.elementwise w dst n l act rnds val enc = _
    unfold Core.elementwise
    have e := key _ (c.scratch, 0) hin hnd (fun _ _ => rfl) (fun _ _ => rfl)
    rw [issueCycles_flatten n l hl] at e
    dsimp only
    rw [hmx, if_neg (by decide)]
    exact congrArg (fun r : Memory × Flags => ({ c with scratch := r.1, cvt := c.cvt ||| r.2 } : Core)) e
  rw [hc]
  refine ⟨rfl, ?_, ?_, ?_⟩
  · intro i hi
    rw [elemSteps_elem _ hf, if_pos hi]
  · intro a ha
    exact elemSteps_get _ hf dst n res _ _ a (fun i hi => List.mem_range.mp hi) ha
  · rw [elemSteps_flags]

end Sys2Proof
end

