-- ==== Sys2Proof/WellFormed.lean ====
section
/-! DEFINITION. Which terms of `Instr` spell a command: ranges that the types of the operands do not hold. -/
namespace Sys2Proof

/-- Ring pairs 0 to 4,111 exist (R481). -/
def ringExists (r : RingId) : Bool := decide (r.toNat < 4112)

/-- A flit carries 240 payload bytes (Table 16.2). -/
def Flit.wf (f : Flit) : Bool := f.payload.length == 240

def Arrival.wf : Arrival → Bool
  | .nothing => true
  | .badFec => true
  | .flit f => f.wf

/-- Lanes of a layer come in equal numbers: one score and one key for each lane, and both ends of each check word (Table 09.6). -/
def PeerLanes.wf (p : PeerLanes) : Bool := p.scores.length == p.keys.length && p.checkMin.length == p.checkMax.length

/-- Physical addresses have 52 bits (R315). -/
def WalkFindings.wf (f : WalkFindings) : Bool :=
  (f.failing ++ f.corrected ++ f.uncorrectable).all (fun a => decide (a < 2 ^ 52))

/-- The times of a time flit are times of the 70-bit counter (R375). -/
def TimeArrival.wf : TimeArrival → Bool
  | .missing => true
  | .damaged => true
  | .flit t => decide (t.origin < 2 ^ 70) && decide (t.arrival < 2 ^ 70)

/-- Atomics, LR and SC of an application core are naturally aligned (Table 14.3). -/
def AppAccess.wf : AppAccess → Bool
  | .load _ _ => true
  | .store _ _ _ => true
  | .amo op a wide _ => decide (op.toNat ≤ 8) && a.toNat % (if wide then 8 else 4) == 0
  | .lr a wide => a.toNat % (if wide then 8 else 4) == 0
  | .sc a wide _ => a.toNat % (if wide then 8 else 4) == 0
  | .exception => true

/-- Stage 3 finds the repair table's at most 16,384 entries (R537), stage 4 the four tier 3 ports (R317). -/
def BootResult.wf : BootResult → Bool
  | .supplies => true
  | .image _ => true
  | .imagesBad => true
  | .repairTable es => decide (es.length ≤ 16384)
  | .memory _ _ => true
  | .stackFailed => true
  | .ports cs => cs.length == 4
  | .links _ => true
  | .selfTest _ => true
  | .system _ => true

/-- A command is well formed. -/
def Instr.wf : Instr → Bool
  | .nop _ _ => true
  | .endItem _ _ => true
  | .jal _ _ => true
  | .jr _ _ => true
  | .beq _ _ => true
  | .bne _ _ => true
  | .blt _ _ => true
  | .bge _ _ => true
  | .bltu _ _ => true
  | .bgeu _ _ => true
  | .loop _ _ => true
  | .bsel _ _ => true
  | .trap _ _ => true
  | .add _ _ => true
  | .sub _ _ => true
  | .and _ _ => true
  | .or _ _ => true
  | .xor _ _ => true
  | .shl _ _ => true
  | .shr _ _ => true
  | .sra _ _ => true
  | .mul _ _ => true
  | .min _ _ => true
  | .max _ _ => true
  | .addi _ _ => true
  | .li _ _ => true
  | .lih _ _ => true
  | .ldS _ _ => true
  | .stS _ _ => true
  | .mma _ _ => true
  | .mmaT4 _ _ => true
  | .mmaT4t _ _ => true
  | .mmaT4s _ _ => true
  | .mclose _ _ => true
  | .mwait _ _ => true
  | .vadd _ _ => true
  | .vsub _ _ => true
  | .vmul _ _ => true
  | .vfma _ _ => true
  | .vmin _ _ => true
  | .vmax _ _ => true
  | .vabs _ _ => true
  | .vneg _ _ => true
  | .vcmp _ _ => true
  | .vsel _ _ => true
  | .vrsum _ _ => true
  | .vrmax _ _ => true
  | .vrmaxi _ _ => true
  | .vcvt _ _ => true
  | .vldq _ _ => true
  | .vexp2 _ _ => true
  | .vexp _ _ => true
  | .vlog2 _ _ => true
  | .vlog _ _ => true
  | .vrcp _ _ => true
  | .vrsqrt _ _ => true
  | .vsqrt _ _ => true
  | .verf _ _ => true
  | .vtanh _ _ => true
  | .vsigm _ _ => true
  | .vsilu _ _ => true
  | .vgelu _ _ => true
  | .vcompress _ _ => true
  | .vexpand _ _ => true
  | .vmov _ _ => true
  | .vbcast _ _ => true
  | .vpopc _ _ => true
  | .vdesc _ _ => true
  | .descriptorWalkEnd _ f => f.wf
  | .tqpop _ _ => true
  | .vseed _ _ => true
  | .vseedSt _ _ => true
  | .cseed _ _ => true
  | .cseedSt _ _ => true
  | .vrand _ _ => true
  | .vsample _ _ => true
  | .vtopk _ _ => true
  | .vtopp _ _ => true
  | .vdrop _ _ => true
  | .vosmStat _ _ => true
  | .vosmMerge _ _ => true
  | .vosmScale _ _ => true
  | .vosmNorm _ _ => true
  | .vosmProb _ _ => true
  | .nbind _ _ => true
  | .nflush _ _ => true
  | .normFlushUpdate _ => true
  | .vnorm _ _ => true
  | .mscore _ _ => true
  | .msieve _ _ => true
  | .xbegin _ _ => true
  | .transferPhaseAdmit _ => true
  | .xend _ _ => true
  | .xfer _ _ => true
  | .xferWin _ _ => true
  | .xferFill _ _ => true
  | .xferCopy _ _ => true
  | .xferMc _ _ => true
  | .fence _ _ => true
  | .fenceSc _ _ => true
  | .drainRequestArrival _ _ => true
  | .drainAcknowledge _ _ => true
  | .ldG _ _ => true
  | .loadReturn _ => true
  | .stG _ _ => true
  | .amo _ _ => true
  | .waitht _ _ => true
  | .waithtRelease _ => true
  | .barw _ _ => true
  | .barwRelease _ _ => true
  | .htrd _ _ => true
  | .htrdH _ _ => true
  | .statRd _ _ => true
  | .statClr _ _ => true
  | .passStart _ _ => true
  | .productEntry _ _ _ _ => true
  | .overflowRepeat _ => true
  | .deferredSwap _ => true
  | .drainRead _ _ _ => true
  | .drainOutput _ => true
  | .parityRestart _ => true
  | .tileRestore _ => true
  | .coreOutOfService _ => true
  | .workItemStart _ _ => true
  | .preemptRequest _ => true
  | .preemptBoundary _ => true
  | .preemptDiscard _ => true
  | .streamPreemptPark _ _ => true
  | .contextSaveDone _ => true
  | .lineDelivery _ _ => true
  | .streamEnd _ _ => true
  | .parkedStreamSpill _ _ => true
  | .parkLimitExpiry _ _ => true
  | .spillRotation _ => true
  | .spillPromotion _ => true
  | .multicastReceiveTimeout _ _ => true
  | .multicastSendTimeout _ _ => true
  | .detachedCopyEnd _ _ => true
  | .writeBufferSend _ _ => true
  | .homeWritePerform _ _ => true
  | .homeAtomic _ => true
  | .memoryRequestService u _ => decide (u.toNat < 36)
  | .starvationGuard u => decide (u.toNat < 36)
  | .patrolScrub _ _ _ => true
  | .hbmRowRepair _ _ _ _ => true
  | .pseudoChannelCopyEnd _ => true
  | .walkStart _ => true
  | .walkEnd _ _ _ => true
  | .accessParkLimit _ => true
  | .moultStart _ _ => true
  | .moultScore _ => true
  | .moultSieve _ => true
  | .moultReduce _ peers => peers.all PeerLanes.wf
  | .moultDropGrow _ => true
  | .moultRechoose _ => true
  | .moultRebuild _ => true
  | .moultCandidates _ => true
  | .moultVote _ => true
  | .moultVoteResult _ _ => true
  | .moultCommit _ => true
  | .moultTimeout _ => true
  | .stagedRepairApply _ => true
  | .upstreamSwitch => true
  | .holdoverEntry => true
  | .holdoverExit => true
  | .timeFlitSend _ => true
  | .timeFlitReceive _ f => f.wf
  | .partnerOutClear _ => true
  | .slewComplete => true
  | .delayValidExpiry _ => true
  | .enterOut => true
  | .enterTrack => true
  | .enterLocked => true
  | .ppsInEdge _ => true
  | .ppsLost => true
  | .ppsOutEdge _ => true
  | .htCfgWrite _ _ => true
  | .htNowRead _ => true
  | .htEnd => true
  | .barrierInstantRelease _ => true
  | .laneLockLoss _ _ => true
  | .laneSwap _ _ => true
  | .scheduledSend _ _ _ => true
  | .scheduledReceive _ _ _ a => a.wf
  | .forwardSend _ _ _ => true
  | .repairRequestSend _ => true
  | .repairRequestReceive _ a => a.wf
  | .repairFlitSend _ _ _ => true
  | .repairFlitReceive _ a => a.wf
  | .flitLoss _ _ _ => true
  | .partnerAbsent _ => true
  | .absentClear _ => true
  | .openMessageReceive _ a => a.wf
  | .openSlotGrant _ _ _ => true
  | .sealedAcknowledgement _ => true
  | .sealedResendRequest _ _ _ => true
  | .scheduleLoadDone _ => true
  | .bankSwap _ => true
  | .holdLimit _ => true
  | .lateContributionReady _ _ => true
  | .stepDeadline _ => true
  | .stepEnd _ => true
  | .exactLimit _ => true
  | .collectiveStepBoundary _ => true
  | .modeVote _ => true
  | .modeVoteResult _ _ => true
  | .modeCommit _ => true
  | .modeTimeout _ => true
  | .digestClose _ => true
  | .chrysalisCopyEnd _ => true
  | .eyeStamp _ => true
  | .eyeFreeze _ => true
  | .evtEdge _ _ => true
  | .eyeMarkWrite _ _ => true
  | .eyeCtlWrite _ _ _ => true
  | .doorbell _ ring _ => ringExists ring
  | .cmdRtailWrite _ ring _ => ringExists ring
  | .cmdRingEnable _ ring _ => ringExists ring
  | .packetRead ring => ringExists ring
  | .managementDatagram _ _ bytes => decide (bytes.length ≤ 65507)
  | .queueAging p => ringExists p.ring
  | .deviceNop p => ringExists p.ring
  | .deviceQuery p => ringExists p.ring
  | .deviceAttest p => ringExists p.ring
  | .deviceCancel p => ringExists p.ring
  | .deviceConfig p => ringExists p.ring
  | .deviceResetCold p => ringExists p.ring
  | .deviceResetWarm p => ringExists p.ring
  | .deviceResetCompute p => ringExists p.ring
  | .deviceHealth p => ringExists p.ring
  | .tenantBind p => ringExists p.ring
  | .tenantUnbind p => ringExists p.ring
  | .tenantGuard p => ringExists p.ring
  | .tenantQuery p => ringExists p.ring
  | .programLoad p => ringExists p.ring
  | .programLaunch p => ringExists p.ring
  | .programMode p => ringExists p.ring
  | .programPreempt p => ringExists p.ring
  | .programResume p => ringExists p.ring
  | .programStop p => ringExists p.ring
  | .memoryPlace p => ringExists p.ring
  | .memoryResume p => ringExists p.ring
  | .memoryEnd p => ringExists p.ring
  | .memoryInval p => ringExists p.ring
  | .memoryStreamResume p => ringExists p.ring
  | .memoryStreamEnd p => ringExists p.ring
  | .memoryTensor p => ringExists p.ring
  | .memoryRelease p => ringExists p.ring
  | .hallTime p => ringExists p.ring
  | .hallBarrierClaim p => ringExists p.ring
  | .hallBarrierArm p => ringExists p.ring
  | .hallBarrierDisarm p => ringExists p.ring
  | .hallBarrierRelease p => ringExists p.ring
  | .hallBarrierQuery p => ringExists p.ring
  | .hallSched p => ringExists p.ring
  | .hallChannelSeal p => ringExists p.ring
  | .hallChannelUnseal p => ringExists p.ring
  | .hallRoute p => ringExists p.ring
  | .hallSend p => ringExists p.ring
  | .hallCancel p => ringExists p.ring
  | .collectiveDefine p => ringExists p.ring
  | .collectiveFree p => ringExists p.ring
  | .collectiveOp p => ringExists p.ring
  | .collectiveQuery p => ringExists p.ring
  | .instarPlan p => ringExists p.ring
  | .instarMoult p => ringExists p.ring
  | .instarQuery p => ringExists p.ring
  | .chrysalisTake p => ringExists p.ring
  | .chrysalisShip p => ringExists p.ring
  | .chrysalisVerify p => ringExists p.ring
  | .chrysalisLoad p => ringExists p.ring
  | .digestRing p => ringExists p.ring
  | .digestRegion p => ringExists p.ring
  | .powerQuery p => ringExists p.ring
  | .powerLimit p => ringExists p.ring
  | .repairQuery p => ringExists p.ring
  | .repairApply p => ringExists p.ring
  | .repairFuseRevoke p => ringExists p.ring
  | .repairFuseRollback p => ringExists p.ring
  | .eyespotConfig p => ringExists p.ring
  | .eyespotRead p => ringExists p.ring
  | .eyespotTrigger p => ringExists p.ring
  | .debugReg p => ringExists p.ring
  | .debugServiceHold p => ringExists p.ring
  | .debugServiceRelease p => ringExists p.ring
  | .debugScratch p => ringExists p.ring
  | .registerWrite _ offset _ => offset.toNat % 8 == 0
  | .inputLoss _ => true
  | .supplySwitchOver => true
  | .prefWrite _ _ => true
  | .inputRestore _ => true
  | .powerLossReset => true
  | .powerOnReset _ _ => true
  | .operatingPointChange _ => true
  | .droop _ => true
  | .droopDecay _ => true
  | .thermalControl _ _ => true
  | .powerControl _ => true
  | .thermalTrip _ _ => true
  | .clusterGate _ => true
  | .clusterUngate _ => true
  | .sectorSleep _ => true
  | .sectorWake _ => true
  | .bootStageEnd r => r.wf
  | .coreReset _ => true
  | .regulatorPhaseFail _ _ => true
  | .ageingScan _ _ _ => true
  | .managementPairFailure _ => true
  | .sparePairReady => true
  | .cocoonTakeover => true
  | .smbusReadBoot => true
  | .smbusReadState => true
  | .smbusColdReset _ => true
  | .jtagBypass => true
  | .jtagIdcode => true
  | .jtagSamplePreload => true
  | .jtagExtest => true
  | .thermalTripRecovery _ => true
  | .referenceClockLoss => true
  | .referenceClockReturn => true
  | .applicationCoreAccess _ x => x.wf
  | .repairTrigger _ _ => true
  | .chrysalisShipEnd _ _ => true

end Sys2Proof
end

