-- ==== Sys2Proof/Tests/Slice0.lean ====
section
/-! SUPPORT. Tests. `test_hyps_<name>` shows concrete states and operands that meet the hypotheses of the clauses of the statement
of that name, at the ends of their ranges; the rest checks single steps against values that the spec gives. -/
namespace Sys2Proof.Tests

open Sys2Proof.Machine Sys2Proof.Claims

set_option maxRecDepth 100000
set_option Elab.async false

/-! ### States to start from -/

/-- The registers of the core of most tests. -/
def regs0 : Regs := #v[0, 1, 1024, 2048, 3072, 5, 0xFFFFFFFF, 10, 16, 32, 64, 4032, 4096, 2047, 0, 7]

/-- A core that runs, at index 9, all else as after reset. -/
def core0 : Core := { running := true, pc := 9, regs := regs0 }

/-- A chip with one core, 0x1003, in a sector that runs. -/
def chipOf (k : Core) : Chip := { cores := [(0x1003, k)], power := { sectors := [(1, { st := .running })] } }
def onCore (k : Core) : State := { chip := chipOf k }

/-- A word of three registers and a count of 4, and the same with source A at the destination. -/
def word4 : Fields := { w0 with d := 4, a := 2, b := 3, imm := 4 }

theorem test_hyps_StepRunsFrontCommand : ∃ (i : Instr) (rest : List Instr) (s : State), s.pending = i :: rest :=
  ⟨.nop 0x1003 w0, [], { pending := [.nop 0x1003 w0] }, rfl⟩

theorem test_hyps_EmptyQueueTicks : ∃ (s : State), s.pending = [] :=
  ⟨State.reset, rfl⟩

theorem test_hyps_StepKeepsInvariant : ∃ (s t : State), Inv s ∧ step s = .next t :=
  ⟨State.reset, State.reset.tick, (⟨show (0 : Nat) ≤ 127 from by decide, (fun c h => nomatch h), by decide, by decide⟩), rfl⟩

theorem test_hyps_RegisterFile : ∃ (d r : BitVec 4), 
    (d ≠ 0) ∧
    (r ≠ d) :=
  ⟨15, 0, by decide, by decide⟩

theorem test_hyps_ScalarArithmetic : ∃ (s : State) (id : CoreId), Ready s id :=
  ⟨onCore core0, 0x1003, by decide⟩

theorem test_hyps_ScalarImmediate : ∃ (s : State) (id : CoreId) (imm : BitVec 24), Ready s id ∧ imm.toNat < 65536 :=
  ⟨onCore core0, 0x1003, 0xFFFF, by decide, by decide⟩

theorem test_hyps_ScalarMemory : ∃ (s : State) (id : CoreId) (a : BitVec 4) (imm : BitVec 24), Ready s id ∧ 
    let k := s.chip.core id
    let addr := (k.regN a : Int) + imm.toInt
    k.regN a < 4096 ∧ 0 ≤ addr ∧ addr + 4 ≤ 4096 ∧ addr % 4 = 0 ∧ 
    ((k.mustWait [(addr.toNat, 4)] [] = false)) ∧
    ((k.mustWait [] [(addr.toNat, 4)] = false) ∧ ∃ (x : Nat), (x < addr.toNat ∨ addr.toNat + 4 ≤ x)) :=
  ⟨onCore core0, 0x1003, 11, 60, by decide, by decide, by decide, by decide, by decide, by decide, ⟨by decide, 4091, by decide⟩⟩

theorem test_hyps_Branches : ∃ (s : State) (id : CoreId), 
    (∃ (a b : BitVec 4) (imm : BitVec 24) (target : BitVec 11), CanIssue s id ∧ 
    let k := s.chip.core id
    let next : Int := k.pc.toNat + 1
    let there : Int := k.pc.toNat + imm.toInt
    let goes (c : Prop) : Prop := (target.toNat : Int) = there ∧ c ∨ (target.toNat : Int) = next ∧ ¬c
    let x := k.reg a
    let y := k.reg b
    goes (x = y)) ∧
    (∃ (a b : BitVec 4) (imm : BitVec 24) (target : BitVec 11), CanIssue s id ∧ 
    let k := s.chip.core id
    let next : Int := k.pc.toNat + 1
    let there : Int := k.pc.toNat + imm.toInt
    let goes (c : Prop) : Prop := (target.toNat : Int) = there ∧ c ∨ (target.toNat : Int) = next ∧ ¬c
    let x := k.reg a
    let y := k.reg b
    goes (x ≠ y)) ∧
    (∃ (a b : BitVec 4) (imm : BitVec 24) (target : BitVec 11), CanIssue s id ∧ 
    let k := s.chip.core id
    let next : Int := k.pc.toNat + 1
    let there : Int := k.pc.toNat + imm.toInt
    let goes (c : Prop) : Prop := (target.toNat : Int) = there ∧ c ∨ (target.toNat : Int) = next ∧ ¬c
    let x := k.reg a
    let y := k.reg b
    goes (x.toInt < y.toInt)) ∧
    (∃ (a b : BitVec 4) (imm : BitVec 24) (target : BitVec 11), CanIssue s id ∧ 
    let k := s.chip.core id
    let next : Int := k.pc.toNat + 1
    let there : Int := k.pc.toNat + imm.toInt
    let goes (c : Prop) : Prop := (target.toNat : Int) = there ∧ c ∨ (target.toNat : Int) = next ∧ ¬c
    let x := k.reg a
    let y := k.reg b
    goes (y.toInt ≤ x.toInt)) ∧
    (∃ (a b : BitVec 4) (imm : BitVec 24), 
    (∃ (target : BitVec 11), CanIssue s id ∧ 
    let k := s.chip.core id
    let next : Int := k.pc.toNat + 1
    let there : Int := k.pc.toNat + imm.toInt
    let goes (c : Prop) : Prop := (target.toNat : Int) = there ∧ c ∨ (target.toNat : Int) = next ∧ ¬c
    let x := k.reg a
    let y := k.reg b
    goes (x.toNat < y.toNat)) ∧
    (∃ (target : BitVec 11), CanIssue s id ∧ 
    let k := s.chip.core id
    let next : Int := k.pc.toNat + 1
    let there : Int := k.pc.toNat + imm.toInt
    let goes (c : Prop) : Prop := (target.toNat : Int) = there ∧ c ∨ (target.toNat : Int) = next ∧ ¬c
    let x := k.reg a
    let y := k.reg b
    goes (y.toNat ≤ x.toNat))) ∧
    (∃ (a : BitVec 4) (imm : BitVec 24) (target : BitVec 11), CanIssue s id ∧ 
    let k := s.chip.core id
    let next : Int := k.pc.toNat + 1
    let there : Int := k.pc.toNat + imm.toInt
    let goes (c : Prop) : Prop := (target.toNat : Int) = there ∧ c ∨ (target.toNat : Int) = next ∧ ¬c
    let x := k.reg a
    goes (x - 1 ≠ 0)) ∧
    (∃ (imm : BitVec 24) (target : BitVec 11), CanIssue s id ∧ 
    let k := s.chip.core id
    let there : Int := k.pc.toNat + imm.toInt
    (target.toNat : Int) = there) ∧
    (∃ (a : BitVec 4) (target : BitVec 11), CanIssue s id ∧ 
    let k := s.chip.core id
    let x := k.reg a
    target.toNat = x.toNat) :=
  ⟨onCore core0, 0x1003, ⟨0, 0, 0xFFFFF7, 0, by decide, by decide⟩, ⟨1, 0, 100, 109, by decide, by decide⟩, ⟨6, 1, 2038, 2047, by decide, by decide⟩,
      ⟨1, 6, 100, 109, by decide, by decide⟩, ⟨6, 1, 100, ⟨10, by decide, by decide⟩, ⟨109, by decide, by decide⟩⟩, ⟨1, 100, 10, by decide,
      by decide⟩, ⟨0xFFFFF7, 0, by decide, by decide⟩, ⟨13, 2047, by decide, by decide⟩⟩

theorem test_hyps_InstructionBounds :
    (∃ (s : State) (id : CoreId), CanIssue s id ∧ 
    let k := s.chip.core id
    k.pc = 2047) ∧
    (∃ (s : State) (id : CoreId), 
    (∃ (a b : BitVec 4) (imm : BitVec 24), CanIssue s id ∧ 
    let k := s.chip.core id
    let there : Int := k.pc.toNat + imm.toInt
    (there < 0 ∨ 2047 < there) ∧ k.reg a = k.reg b) ∧
    (∃ (a : BitVec 4) (imm : BitVec 24), CanIssue s id ∧ 
    let k := s.chip.core id
    let there : Int := k.pc.toNat + imm.toInt
    (there < 0 ∨ 2047 < there) ∧ k.reg a - 1 ≠ 0) ∧
    (∃ (a : BitVec 4), CanIssue s id ∧ 
    let k := s.chip.core id
    2047 < (k.reg a).toNat)) :=
  ⟨⟨onCore { core0 with pc := 2047 }, 0x1003, by decide, by decide⟩, ⟨onCore core0, 0x1003, ⟨1, 1, 0xFFFFF6, by decide, by decide, by decide⟩, ⟨2,
      2039, by decide, by decide, by decide⟩, ⟨3, by decide, by decide⟩⟩⟩

theorem test_hyps_SoftwareTrap : ∃ (s : State) (id : CoreId) (imm : BitVec 24), CanIssue s id ∧ imm.toNat < 256 :=
  ⟨onCore core0, 0x1003, 255, by decide, by decide⟩

theorem test_hyps_UnusedFields : ∃ (s : State) (id : CoreId) (w : Fields), CanIssue s id ∧ 
    let used (d a b imm : Bool) : Prop := ((d = true ∨ w.d = 0) ∧ (a = true ∨ w.a = 0) ∧ (b = true ∨ w.b = 0) ∧ w.c = 0 ∧ w.f1 = 0 ∧
      w.f2 = 0 ∧ (imm = true ∨ w.imm = 0) ∧ w.mod = 0)
    (¬used true true true false) ∧
    (¬used true true false true) ∧
    (¬used true false false true) ∧
    (¬used false true true true) ∧
    (¬used false true false false) ∧
    (¬used false true false true) ∧
    (¬used false false false false) :=
  ⟨onCore core0, 0x1003, { w0 with mod := 1 }, by decide, by decide, by decide, by decide, by decide, by decide, by decide, by decide⟩

/-- A job whose image has one dimension, of the buckets 10 and 20. -/
def bucketJob : Job := { tenant := 1, quads := [16], ctx := 0, image := ⟨0, false, 0, [⟨[10, 20], false, 0, 0⟩], 8, [], none, 0⟩ }
def bucketState (v : W32) : State :=
  { chip := { chipOf { core0 with job := some 4, regs := regs0.set 1 v } with jobs := [(4, bucketJob)] } }

/-- A NaN at offset 1,024 of the scratchpad, and the states that vector instructions start from. -/
def nanAt1024 : Memory := [(1026, 0xC0), (1027, 0x7F)]
def word0 : Fields := { word4 with imm := 0 }
/-- The queue head of four FP32 zeros, as far as the fields that `.TQ` reads. -/
def head0 : TqEntry := { vals := List.replicate 16 0, scale := 0x7F, fmt := 0, status := 0, wide := false, visible := true }

theorem test_hyps_BucketSelection :
    (∃ (s : State) (id : CoreId) (a : BitVec 4) (n : Fin 4) (j : JobId) (job : Job), 
    let v := ((s.chip.core id).reg a).toNat
    (s.chip.core id).job = some j ∧ s.chip.job j = some job ∧ ∃ (dim : _), job.image.dims[n.val]? = some dim ∧ ∃ (i : Fin dim.sizes.length), Ready s id ∧ v ≤ dim.sizes[i].toNat ∧ (∀ m : Fin dim.sizes.length,
        m < i → dim.sizes[m].toNat < v)) ∧
    (∃ (s : State) (id : CoreId) (a : BitVec 4) (n : Fin 4) (j : JobId) (job : Job), 
    let v := ((s.chip.core id).reg a).toNat
    (s.chip.core id).job = some j ∧ s.chip.job j = some job ∧ ∃ (dim : _), job.image.dims[n.val]? = some dim ∧ CanIssue s id ∧ (∀ i : Fin dim.sizes.length,
        dim.sizes[i].toNat < v)) ∧
    (∃ (s : State) (id : CoreId) (n : Fin 4) (j : JobId) (job : Job),
        (s.chip.core id).job = some j ∧ s.chip.job j = some job ∧ CanIssue s id ∧ job.image.dims.length ≤ n.val) :=
  ⟨⟨bucketState 11, 0x1003, 1, 0, 4, bucketJob, by decide, by decide, _, rfl, 1, by decide, by decide, by decide⟩, ⟨bucketState 21, 0x1003, 1, 0, 4,
      bucketJob, by decide, by decide, _, rfl, by decide, by decide⟩, ⟨bucketState 11, 0x1003, 1, 4, bucketJob, by decide, by decide, by decide,
      by decide⟩⟩

theorem test_hyps_StatusWords : ∃ (s : State) (id : CoreId), Ready s id :=
  ⟨onCore core0, 0x1003, by decide⟩

theorem test_hyps_HallTimeRead : ∃ (s : State) (id : CoreId), Ready s id :=
  ⟨onCore core0, 0x1003, by decide⟩

theorem test_hyps_VectorArithmetic :
    (∃ (s : State) (id : CoreId), 
    (∃ (w : Fields) (h : Head), 
    let k := s.chip.core id
    let two : VecForm := { useB := true }
    VecRuns s id w two h ∧ SourcesApart k w two) ∧
    (∃ (w : Fields) (h : Head), 
    let k := s.chip.core id
    VecRuns s id w {} h ∧ SourcesApart k w {}) ∧
    (∃ (w : Fields) (h : Head), 
    let k := s.chip.core id
    let two : VecForm := { useB := true }
    VecRuns s id w { two with acc := true } h ∧ SourcesApart k w { two with acc := true })) ∧
    (∃ (s : State) (id : CoreId) (w : Fields) (h : Head), 
    let k := s.chip.core id
    let two : VecForm := { useB := true }
    VecRuns s id w { two with sel := true } h ∧ SourcesApart k w { two with sel := true }) :=
  ⟨⟨onCore core0, 0x1003, ⟨word4, none, (⟨by decide, ⟨by decide, by decide, by decide, by decide, by decide, by decide⟩, by decide, by decide,
      by decide, by decide, by decide, .inl ⟨by decide, rfl⟩⟩), (⟨by decide, by decide, by decide⟩)⟩, ⟨{ word4 with b := 0 }, none, (⟨by decide,
      ⟨by decide, by decide, by decide, by decide, by decide, by decide⟩, by decide, by decide, by decide, by decide, by decide, .inl ⟨by decide,
      rfl⟩⟩), (⟨by decide, by decide, by decide⟩)⟩, ⟨word4, none, (⟨by decide, ⟨by decide, by decide, by decide, by decide, by decide, by decide⟩,
      by decide, by decide, by decide, by decide, by decide, .inl ⟨by decide, rfl⟩⟩), (⟨by decide, by decide, by decide⟩)⟩⟩,
      ⟨onCore { core0 with regs := regs0.set 5 0 }, 0x1003, { word4 with c := 5, imm := 32 }, none, (⟨by decide, ⟨by decide, by decide, by decide,
      by decide, by decide, by decide⟩, by decide, by decide, by decide, by decide, by decide, .inl ⟨by decide, rfl⟩⟩), (⟨by decide, by decide,
      by decide⟩)⟩⟩

theorem test_hyps_FunctionTables : ∃ (s : State) (id : CoreId) (w : Fields) (h : Head), 
    let k := s.chip.core id
    let fun1 : VecForm := { func := true }
    let cvt : VecForm := { arith := false }
    ((VecRuns s id w fun1 h) ∧ (SourcesApart k w fun1)) ∧
    (VecRuns s id w cvt h ∧ SourcesApart k w cvt ∧ (fmt1 w).noArith = false ∧ (vTq w = true ∨ Beside (rangeA k w) (rangeD k w))) :=
  ⟨onCore core0, 0x1003, { word4 with b := 0 }, none, ⟨(⟨by decide, ⟨by decide, by decide, by decide, by decide, by decide, by decide⟩, by decide,
      by decide, by decide, by decide, by decide, .inl ⟨by decide, rfl⟩⟩), (⟨by decide, by decide, by decide⟩)⟩, ⟨(⟨by decide, ⟨by decide, by decide,
      by decide, by decide, by decide, by decide⟩, by decide, by decide, by decide, by decide, by decide, .inl ⟨by decide, rfl⟩⟩), (⟨by decide,
      by decide, by decide⟩), by decide, by decide⟩⟩

theorem test_hyps_EmptyVector : ∃ (s : State) (id : CoreId), 
    (∃ (w : Fields), Ready s id ∧ 
    let k := s.chip.core id
    k.count w = 0 ∧ (w.c ≠ 0 → k.regN w.c % 4 = 0) ∧ (VecLegal k w { d := true, c := true } 0) ∧ k.arr.passes = [] ∧ k.arr.drains = []) ∧
    (∃ (w : Fields), Ready s id ∧ 
    let k := s.chip.core id
    let legal (useB : Bool) : Prop := VecLegal k w { d := true, a := true, b := useB, c := true, f1 := true, f2 := true } 0
    k.count w = 0 ∧ (w.c ≠ 0 → k.regN w.c % 4 = 0) ∧ (fmt1 w).noArith = false ∧ (fmt2 w).noArith = false ∧ legal true) ∧
    (∃ (w : Fields), Ready s id ∧ 
    let k := s.chip.core id
    let legal (useB : Bool) : Prop := VecLegal k w { d := true, a := true, b := useB, c := true, f1 := true, f2 := true } 0
    k.count w = 0 ∧ (w.c ≠ 0 → k.regN w.c % 4 = 0) ∧ (fmt1 w).noArith = false ∧ (fmt2 w).noArith = false ∧ legal false ∧ w.f1 = w.f2) :=
  ⟨onCore core0, 0x1003, ⟨{ w0 with d := 4 }, by decide, by decide, by decide, (⟨by decide, by decide, by decide, by decide, by decide, by decide⟩),
      by decide, by decide⟩, ⟨word0, by decide, by decide, by decide, by decide, by decide, (⟨by decide, by decide, by decide, by decide, by decide,
      by decide⟩)⟩, ⟨{ word0 with b := 0 }, by decide, by decide, by decide, by decide, by decide, (⟨by decide, by decide, by decide, by decide,
      by decide, by decide⟩), by decide⟩⟩

theorem test_hyps_VectorCompare : ∃ (s : State) (id : CoreId) (w : Fields) (h : Head), 
    let k := s.chip.core id
    let n := k.count w
    let dst := k.regN w.d
    let reads := sourceA k w ++ (if vS w then [] else [rangeB k w]) ++ maskOf k w
    (VecCan s id w { d := true, a := true, b := true, c := true, f2 := true } 7 reads [(dst,
        maskBytes n)] (dst :: maskAt k w)) ∧ HeadIs k w h ∧ vecFn w ≤ 5 ∧ (fmt2 w).noArith = false ∧ (∀ r ∈ reads, Beside r (dst, maskBytes n)) :=
  ⟨onCore { core0 with regs := regs0.set 5 0 }, 0x1003, { word4 with d := 5, mod := 0 }, none, (⟨by decide, ⟨by decide, by decide, by decide,
      by decide, by decide, by decide⟩, by decide, by decide, by decide, by decide⟩), (.inl ⟨by decide, rfl⟩), by decide, by decide, by decide⟩

theorem test_hyps_Reductions :
    (∃ (s : State) (id : CoreId) (w : Fields) (h : Head), 
    let k := s.chip.core id
    let toMem : Used := { d := true, a := true, c := true, f1 := true, f2 := true }
    let dst := (k.regN w.d, (fmt1 w).operandBytes 1)
    let reads := sourceA k w ++ maskOf k w
    VecCan s id w toMem 0 reads [dst] (maskAt k w) ∧ HeadIs k w h ∧ (fmt1 w).noArith = false ∧ (fmt2 w).noArith = false) ∧
    (∃ (s : State) (id : CoreId) (w : Fields) (h : Head), 
    let k := s.chip.core id
    let vs := actives k w h
    let reads := sourceA k w ++ maskOf k w
    (VecCan s id w { d := true, a := true, c := true, f2 := true } 0 reads [] (maskAt k w)) ∧ HeadIs k w h ∧ (fmt2 w).noArith = false ∧ vs = []) ∧
    (∃ (s : State) (id : CoreId) (w : Fields) (h : Head), 
    let k := s.chip.core id
    let vs := actives k w h
    let reads := sourceA k w ++ maskOf k w
    (VecCan s id w { d := true, a := true, c := true, f2 := true } 0 reads [] (maskAt k w)) ∧ HeadIs k w h ∧ (fmt2 w).noArith = false ∧ ∃ (p : _), (vs.find? (fun p => p.2.isNan) = some p)) ∧
    (∃ (s : State) (id : CoreId) (w : Fields) (h : Head), 
    let k := s.chip.core id
    let vs := actives k w h
    let reads := sourceA k w ++ maskOf k w
    (VecCan s id w { d := true, a := true, c := true, f2 := true } 0 reads [] (maskAt k w)) ∧ HeadIs k w h ∧ (fmt2 w).noArith = false ∧ (vs.find? (fun p => p.2.isNan) = none) ∧ vs ≠ []) ∧
    (∃ (s : State) (id : CoreId) (w : Fields), 
    let k := s.chip.core id
    (VecCan s id w { d := true, c := true } 0 (maskOf k w) [] (maskAt k w))) :=
  ⟨⟨onCore core0, 0x1003, { w0 with d := 4, a := 2, imm := 4 }, none, (⟨by decide, ⟨by decide, by decide, by decide, by decide, by decide, by decide⟩,
      by decide, by decide, by decide, by decide⟩), (.inl ⟨by decide, rfl⟩), by decide, by decide⟩, ⟨onCore { core0 with regs := regs0.set 5 0 },
      0x1003, { w0 with d := 4, a := 2, c := 5, imm := 4 }, none, (⟨by decide, ⟨by decide, by decide, by decide, by decide, by decide, by decide⟩,
      by decide, by decide, by decide, by decide⟩), (.inl ⟨by decide, rfl⟩), by decide, by decide⟩, ⟨onCore { core0 with scratch := nanAt1024 },
      0x1003, { w0 with d := 4, a := 2, imm := 4 }, none, (⟨by decide, ⟨by decide, by decide, by decide, by decide, by decide, by decide⟩, by decide,
      by decide, by decide, by decide⟩), (.inl ⟨by decide, rfl⟩), by decide, _, rfl⟩, ⟨onCore core0, 0x1003, { w0 with d := 4, a := 2, imm := 4 },
      none, (⟨by decide, ⟨by decide, by decide, by decide, by decide, by decide, by decide⟩, by decide, by decide, by decide, by decide⟩),
      (.inl ⟨by decide, rfl⟩), by decide, by decide, by decide⟩, ⟨onCore { core0 with regs := regs0.set 5 0 }, 0x1003,
      { w0 with d := 4, c := 5, imm := 4 }, (⟨by decide, ⟨by decide, by decide, by decide, by decide, by decide, by decide⟩, by decide, by decide,
      by decide, by decide⟩)⟩⟩

theorem test_hyps_Moves : ∃ (s : State) (id : CoreId) (w : Fields) (h : Head), 
    let k := s.chip.core id
    let n := k.count w
    let f := fmt1 w
    let on := (List.range n).filter (k.active w k.scratch)
    let moves (useB : Bool) (len : Nat) : Prop :=
      VecCan s id w { d := true, a := true, b := useB, c := true, f1 := true, f2 := true } 0
      ((if vTq w then [] else [(k.regN w.a, (fmt2 w).operandBytes len)]) ++ maskOf k w) [rangeD k w] (maskAt k w) ∧ HeadIs k w h ∧
      w.f1 = w.f2 ∧ f.noArith = false ∧ (vTq w = true ∨ Beside (k.regN w.a, (fmt2 w).operandBytes len) (rangeD k w)) ∧
      (w.c = 0 ∨ Beside (rangeC k w) (rangeD k w))
    (moves false n) ∧
    (moves true n) ∧
    (moves false on.length) :=
  ⟨onCore core0, 0x1003, { w0 with d := 4, a := 2, imm := 4 }, none, (⟨⟨by decide, ⟨by decide, by decide, by decide, by decide, by decide, by decide⟩,
      by decide, by decide, by decide, by decide⟩, .inl ⟨by decide, rfl⟩, by decide, by decide, by decide, by decide⟩), (⟨⟨by decide, ⟨by decide,
      by decide, by decide, by decide, by decide, by decide⟩, by decide, by decide, by decide, by decide⟩, .inl ⟨by decide, rfl⟩, by decide,
      by decide, by decide, by decide⟩), (⟨⟨by decide, ⟨by decide, by decide, by decide, by decide, by decide, by decide⟩, by decide, by decide,
      by decide, by decide⟩, .inl ⟨by decide, rfl⟩, by decide, by decide, by decide, by decide⟩)⟩

theorem test_hyps_VectorFills :
    (∃ (s : State) (id : CoreId) (w : Fields), 
    let k := s.chip.core id
    (VecCan s id w { d := true, b := true, c := true, f1 := true, f2 := true } 0 (maskOf k w) [rangeD k w] (maskAt k w)) ∧ vS w = true ∧ vTq w = false ∧ (fmt1 w).noArith = false ∧ (w.c = 0 ∨ Beside (rangeC k w) (rangeD k w))) ∧
    (∃ (s : State) (id : CoreId), 
    (let k := s.chip.core id
    ∃ (e rest : _), k.tq = e :: rest ∧ e.visible = true ∧ k.phase ≠ .transfer ∧ Ready s id) ∧
    (∃ (w : Fields), 
    let k := s.chip.core id
    let n := k.count w
    ∃ (e rest : _), k.tq = e :: rest ∧ e.visible = true ∧ (VecCan s id w { d := true, c := true, f1 := true } 0 (maskOf k w) [rangeD k w] (maskAt k w)) ∧ n ≤ 16) ∧
    (let k := s.chip.core id
    ∃ (e rest : _), k.tq = e :: rest ∧ e.visible = true ∧ ∃ (d : BitVec 4) (mod : BitVec 8), Ready s id ∧ k.phase ≠ .transfer ∧ (mod = 0 ∨ mod = 0x08 ∨ mod = 0x18) ∧ k.regN d + 8 ≤ 4096 ∧ (k.mustWait [] [(k.regN d,
        8)] = false) ∧ e.wide = false)) ∧
    (∃ (s : State) (id : CoreId) (w : Fields), 
    let k := s.chip.core id
    ∃ (h : _), (VecCan s id w { d := true, a := true, b := true, c := true, f1 := true, f2 := true } 0 (sourceA k w) [rangeD k w] []) ∧ HeadIs k w h ∧ w.c = 0 ∧ (fmt1 w).noArith = false ∧ (fmt2 w).noArith = false) :=
  ⟨⟨onCore core0, 0x1003, { w0 with d := 4, b := 3, imm := 4, mod := 0x20 }, (⟨by decide, ⟨by decide, by decide, by decide, by decide, by decide,
      by decide⟩, by decide, by decide, by decide, by decide⟩), by decide, by decide, by decide, by decide⟩, ⟨onCore { core0 with tq := [head0] },
      0x1003, ⟨_, _, rfl, by decide, by decide, by decide⟩, ⟨{ w0 with d := 4, imm := 16 }, _, _, rfl, by decide, (⟨by decide, ⟨by decide, by decide,
      by decide, by decide, by decide, by decide⟩, by decide, by decide, by decide, by decide⟩), by decide⟩, ⟨_, _, rfl, by decide, 2, 0x18,
      by decide, by decide, by decide, by decide, by decide, by decide⟩⟩, ⟨onCore core0, 0x1003, { w0 with d := 4, b := 3, imm := 4 }, none,
      (⟨by decide, ⟨by decide, by decide, by decide, by decide, by decide, by decide⟩, by decide, by decide, by decide, by decide⟩), (.inl ⟨by decide,
      rfl⟩), by decide, by decide, by decide⟩⟩

theorem test_hyps_Generators : ∃ (s : State) (id : CoreId) (a : BitVec 4), Ready s id ∧ 
    let k := s.chip.core id
    let at' := k.regN a
    k.phase ≠ .transfer ∧ at' + 128 ≤ 4096 ∧ 
    ((k.mustWait [(at', 128)] [] = false) ∧ k.arr.passes = [] ∧ k.arr.drains = []) ∧
    ((k.mustWait [] [(at', 128)] = false) ∧ k.arr.passes = [] ∧ k.arr.drains = []) :=
  ⟨onCore core0, 0x1003, 4, by decide, by decide, by decide, ⟨by decide, by decide, by decide⟩, ⟨by decide, by decide, by decide⟩⟩

theorem test_hyps_RandomValues : ∃ (s : State) (id : CoreId) (w : Fields), 
    let k := s.chip.core id
    let n := k.count w
    let f := fmt1 w
    (VecCan s id w { d := true, b := vS w, c := true, f1 := true } 3 (maskOf k w) [rangeD k w] (maskAt k w)) ∧ vecFn w ≤ 2 ∧ vSr w = false ∧ (f = .fp32 ∨ f = .bf16 ∨ f = .fp16) ∧ (vecFn w = 2 → n ≤ 1024) :=
  ⟨onCore core0, 0x1003, { w0 with d := 14, imm := 1024 }, (⟨by decide, ⟨by decide, by decide, by decide, by decide, by decide, by decide⟩, by decide,
      by decide, by decide, by decide⟩), by decide, by decide, by decide, by decide⟩

theorem test_hyps_OnlineSoftmax : ∃ (s : State) (id : CoreId), 
    (∃ (w : Fields) (h : Head), 
    let k := s.chip.core id
    let b := k.regN w.b
    let u : Used := { d := true, a := true, b := true, c := true, f1 := true, f2 := true }
    let reads := sourceA k w ++ [(b, 32)] ++ maskOf k w
    HeadIs k w h ∧ (fmt2 w).isScore = true ∧ b % 32 = 0 ∧ (VecCan s id w u 7 reads [rangeD k w, (b, 32)] (maskAt k w)) ∧ vecFn w = 0) ∧
    (∃ (w : Fields) (h : Head), 
    let k := s.chip.core id
    let b := k.regN w.b
    let u : Used := { d := true, a := true, b := true, c := true, f1 := true, f2 := true }
    let reads := sourceA k w ++ [(b, 32)] ++ maskOf k w
    HeadIs k w h ∧ (fmt2 w).isScore = true ∧ b % 32 = 0 ∧ VecCan s id w u 7 reads [rangeD k w] (maskAt k w) ∧ vecFn w = 2) ∧
    (∃ (w : Fields) (h : Head), 
    let k := s.chip.core id
    let b := k.regN w.b
    let u : Used := { d := true, a := true, b := true, c := true, f1 := true, f2 := true }
    let reads := sourceA k w ++ [(b, 32)] ++ maskOf k w
    let row := RowState.load k.scratch b
    HeadIs k w h ∧ (fmt2 w).isScore = true ∧ b % 32 = 0 ∧ VecCan s id w u 127 reads [rangeD k w] (maskAt k w) ∧ vecFn w % 8 = 3 ∧ row.nan = false ∧ row.m ≠ 0xFF800000) ∧
    (∃ (w : Fields) (h : Head), 
    let k := s.chip.core id
    let b := k.regN w.b
    let u : Used := { d := true, a := true, b := true, c := true, f1 := true, f2 := true }
    let reads := sourceA k w ++ [(b, 32)] ++ maskOf k w
    let row := RowState.load k.scratch b
    HeadIs k w h ∧ (fmt2 w).isScore = true ∧ b % 32 = 0 ∧ VecCan s id w u 127 reads [rangeD k w] (maskAt k w) ∧ vecFn w % 8 = 4 ∧ row.nan = false ∧ row.m ≠ 0xFF800000) :=
  ⟨onCore core0, 0x1003, ⟨word4, none, (.inl ⟨by decide, rfl⟩), by decide, by decide, (⟨by decide, ⟨by decide, by decide, by decide, by decide,
      by decide, by decide⟩, by decide, by decide, by decide, by decide⟩), by decide⟩, ⟨{ word4 with imm := 4 + 2 * 8192 }, none, (.inl ⟨by decide,
      rfl⟩), by decide, by decide, (⟨by decide, ⟨by decide, by decide, by decide, by decide, by decide, by decide⟩, by decide, by decide, by decide,
      by decide⟩), by decide⟩, ⟨{ word4 with imm := 4 + 3 * 8192 }, none, (.inl ⟨by decide, rfl⟩), by decide, by decide, (⟨by decide, ⟨by decide,
      by decide, by decide, by decide, by decide, by decide⟩, by decide, by decide, by decide, by decide⟩), by decide, by decide, by decide⟩,
      ⟨{ word4 with imm := 4 + 4 * 8192 }, none, (.inl ⟨by decide, rfl⟩), by decide, by decide, (⟨by decide, ⟨by decide, by decide, by decide,
      by decide, by decide, by decide⟩, by decide, by decide, by decide, by decide⟩), by decide, by decide, by decide⟩⟩

theorem test_hyps_SoftmaxOfNoScores : ∃ (s : State) (id : CoreId), 
    (∃ (w : Fields) (h : Head), 
    let k := s.chip.core id
    let b := k.regN w.b
    let u : Used := { d := true, a := true, b := true, c := true, f1 := true, f2 := true }
    HeadIs k w h ∧ (fmt2 w).isScore = true ∧ b % 32 = 0 ∧ (VecCan s id w u 127 (sourceA k w ++ [(b,
        32)] ++ maskOf k w) [rangeD k w] (maskAt k w)) ∧ vecFn w % 8 = 3) ∧
    (∃ (w : Fields) (h : Head), 
    let k := s.chip.core id
    let b := k.regN w.b
    let u : Used := { d := true, a := true, b := true, c := true, f1 := true, f2 := true }
    HeadIs k w h ∧ (fmt2 w).isScore = true ∧ b % 32 = 0 ∧ (VecCan s id w u 127 (sourceA k w ++ [(b,
        32)] ++ maskOf k w) [rangeD k w] (maskAt k w)) ∧ vecFn w % 8 = 4) :=
  ⟨onCore core0, 0x1003, ⟨{ word4 with imm := 4 + 3 * 8192 }, none, (.inl ⟨by decide, rfl⟩), by decide, by decide, (⟨by decide, ⟨by decide, by decide,
      by decide, by decide, by decide, by decide⟩, by decide, by decide, by decide, by decide⟩), by decide⟩, ⟨{ word4 with imm := 4 + 4 * 8192 },
      none, (.inl ⟨by decide, rfl⟩), by decide, by decide, (⟨by decide, ⟨by decide, by decide, by decide, by decide, by decide, by decide⟩, by decide,
      by decide, by decide, by decide⟩), by decide⟩⟩

theorem test_hyps_SoftmaxMerge : ∃ (s : State) (id : CoreId) (a b : BitVec 4), Ready s id ∧ 
    let k := s.chip.core id
    let x := RowState.load k.scratch (k.regN a)
    let y := RowState.load k.scratch (k.regN b)
    let rs := [(k.regN a, 32), (k.regN b, 32)]
    k.phase ≠ .transfer ∧ k.regN a + 32 ≤ 4096 ∧ k.regN b + 32 ≤ 4096 ∧ k.regN a % 32 = 0 ∧ k.regN b % 32 = 0 ∧ k.mustWait rs rs = false ∧ x.nan = false ∧ y.nan = false :=
  ⟨onCore core0, 0x1003, 2, 3, by decide, by decide, by decide, by decide, by decide, by decide, by decide, by decide, by decide⟩

/-- A norm slot in use. -/
def slotOf (tag : W16) : NormSlot := { sumsq := 0x123, nonfinite := 3, maxmag := 0x3F800000, tag := tag, bound := true }
def slots4 (x : NormSlot) : List NormSlot := [x, {}, {}, {}]

theorem test_hyps_NormSlots :
    (∃ (s : State) (id : CoreId) (slot : Fin 4), Ready s id ∧ 
    let k := s.chip.core id
    let old := nth {} k.norms slot.val
    k.phase ≠ .transfer ∧ k.slotBusy slot.val = false ∧ old.isZero = true) ∧
    (∃ (s : State) (id : CoreId) (slot : Fin 4), Ready s id ∧ 
    let k := s.chip.core id
    let old := nth {} k.norms slot.val
    k.phase ≠ .transfer ∧ k.slotBusy slot.val = false ∧ 
    (old.isZero = false ∧ old.bound = true) ∧
    (old.bound = true)) ∧
    (∃ (s : State) (id : CoreId) (slot : Fin 4), Ready s id ∧ 
    let k := s.chip.core id
    k.phase ≠ .transfer ∧ k.slotBusy slot.val = false ∧ ∃ (w : Fields) (h : Head), (VecCan s id w { a := true, c := true, f2 := true } 3 (sourceA k w ++ maskOf k w) [] (maskAt k w)) ∧ HeadIs k w h ∧ vecFn w = slot.val) :=
  ⟨⟨onCore core0, 0x1003, 0, by decide, by decide, by decide, by decide⟩, ⟨onCore { core0 with norms := slots4 (slotOf 4) }, 0x1003, 0, by decide,
      by decide, by decide, ⟨by decide, by decide⟩, by decide⟩, ⟨onCore core0, 0x1003, 3, by decide, by decide, by decide,
      { w0 with a := 2, imm := 4 + 3 * 8192 }, none, (⟨by decide, ⟨by decide, by decide, by decide, by decide, by decide, by decide⟩, by decide,
      by decide, by decide, by decide⟩), (.inl ⟨by decide, rfl⟩), by decide⟩⟩

theorem test_hyps_Sampling :
    (∃ (s : State) (id : CoreId) (w : Fields) (h : Head), 
    let k := s.chip.core id
    let n := k.count w
    let b := k.regN w.b
    let tau := f32 (k.scratch.readLe b 4)
    let reads := sourceA k w ++ [(b, 16)] ++ maskOf k w
    let u : Used := { d := true, a := true, b := true, c := true, f2 := true }
    HeadIs k w h ∧ (fmt2 w).isScore = true ∧ b % 16 = 0 ∧ (VecCan s id w u 0 reads [(b + 12, 4), (k.regN w.d,
        maskBytes n)] (k.regN w.d :: maskAt k w)) ∧ badTau tau = false) ∧
    (∃ (s : State) (id : CoreId) (w : Fields) (h : Head), 
    let k := s.chip.core id
    let b := k.regN w.b
    let cs := candidates (actives k w h)
    let tau := f32 (k.scratch.readLe b 4)
    let reads := sourceA k w ++ [(b, 16)] ++ maskOf k w
    let u : Used := { d := true, a := true, b := true, c := true, f2 := true }
    HeadIs k w h ∧ (fmt2 w).isScore = true ∧ b % 16 = 0 ∧ (VecCan s id w u 0 reads [(b + 12,
        4)] (maskAt k w)) ∧ (cs.2.1 = true ∨ cs.2.2.2 = true ∨ badTau tau = true)) ∧
    (∃ (s : State) (id : CoreId) (w : Fields) (h : Head), 
    let k := s.chip.core id
    let b := k.regN w.b
    let cs := candidates (actives k w h)
    let tau := f32 (k.scratch.readLe b 4)
    let reads := sourceA k w ++ [(b, 16)] ++ maskOf k w
    let u : Used := { d := true, a := true, b := true, c := true, f2 := true }
    HeadIs k w h ∧ (fmt2 w).isScore = true ∧ b % 16 = 0 ∧ (VecCan s id w u 0 reads [(b + 12,
        4)] (maskAt k w)) ∧ cs.2.1 = false ∧ cs.2.2.2 = false ∧ badTau tau = false ∧ tau.eqv .zero = true) ∧
    (∃ (s : State) (id : CoreId) (w : Fields) (h : Head), 
    let k := s.chip.core id
    let b := k.regN w.b
    let cs := candidates (actives k w h)
    let tau := f32 (k.scratch.readLe b 4)
    let reads := sourceA k w ++ [(b, 16)] ++ maskOf k w
    let u : Used := { d := true, a := true, b := true, c := true, f2 := true }
    HeadIs k w h ∧ (fmt2 w).isScore = true ∧ b % 16 = 0 ∧ (VecCan s id w u 0 reads [(b + 12,
        4)] (maskAt k w)) ∧ cs.2.1 = false ∧ cs.2.2.2 = false ∧ badTau tau = false ∧ tau.eqv .zero = false) :=
  ⟨⟨onCore core0, 0x1003, word4, none, (.inl ⟨by decide, rfl⟩), by decide, by decide, (⟨by decide, ⟨by decide, by decide, by decide, by decide,
      by decide, by decide⟩, by decide, by decide, by decide, by decide⟩), by decide⟩, ⟨onCore { core0 with scratch := [(2050, 0xC0), (2051, 0x7F)] },
      0x1003, word4, none, (.inl ⟨by decide, rfl⟩), by decide, by decide, (⟨by decide, ⟨by decide, by decide, by decide, by decide, by decide,
      by decide⟩, by decide, by decide, by decide, by decide⟩), by decide⟩, ⟨onCore core0, 0x1003, word4, none, (.inl ⟨by decide, rfl⟩), by decide,
      by decide, (⟨by decide, ⟨by decide, by decide, by decide, by decide, by decide, by decide⟩, by decide, by decide, by decide, by decide⟩),
      by decide, by decide, by decide, by decide⟩, ⟨onCore { core0 with scratch := [(2051, 0x3F)] }, 0x1003, word4, none, (.inl ⟨by decide, rfl⟩),
      by decide, by decide, (⟨by decide, ⟨by decide, by decide, by decide, by decide, by decide, by decide⟩, by decide, by decide, by decide,
      by decide⟩), by decide, by decide, by decide, by decide⟩⟩

theorem test_hyps_BlockScores : ∃ (s : State) (id : CoreId) (w : Fields), 
    let k := s.chip.core id
    let n := k.count w
    let f := fmt2 w
    let st := if bitAt (vecFn w) 0 then 16 else 8
    let a := k.regN w.a
    (VecCan s id w { d := true, a := true, c := true, f2 := true } 1 [(a, f.elemBytes (st * n) + (if f.isMx then n else 0)), (k.regN w.c,
        4 * n)] [(k.regN w.d, 8 * n)] []) ∧ vTq w = false ∧ n ≤ 512 :=
  ⟨onCore core0, 0x1003, { w0 with d := 4, a := 2, c := 3, imm := 4 }, (⟨by decide, ⟨by decide, by decide, by decide, by decide, by decide,
      by decide⟩, by decide, by decide, by decide, by decide⟩), by decide, by decide⟩

/-- Cells that stand at a cycle of the pass in front, in the step of a pass or waiting to swap. -/
def cellAt (k : Nat) (waits inB : Bool) (latches : List Latch) : Cell := { k := k, waits := waits, inB := inB, latches := latches }
def arrayAt (c : Cell) (ps : List Pass) : ArrayState := { ArrayState.init with cells := List.replicate 16 c, passes := ps }

/-- The record of a drain: the results go to offset 3,584 in FP32, and nothing is added. -/
def drainRecord : List Byte :=
  leBytes 4 0x3F800000 ++ leBytes 2 0xFFFF ++ leBytes 2 0xFFFF ++ [0, 0, 0, 0, 1, 0] ++ leBytes 2 3584 ++ leBytes 2 0xFFFF ++ List.replicate 46 0
def coreM (a : ArrayState) : Core := { core0 with scratch := Memory.write [] 64 drainRecord, arr := a }
def wordM : Fields := { w0 with a := 2, b := 3, imm := 4 }
/-- A pass of 4 values on array A at 1,024 that opens a column, and one that closes it with the record at 64. -/
def passOpen : Pass := core0.passOf 0 wordM
def passClose : Pass := { core0.passOf 0 { wordM with mod := 1, d := 10 } with drec := drainRecord }
def running1 (r : Option Restart) : State :=
  onCore (coreM { arrayAt (cellAt 1 false false [⟨false, {}, 0⟩]) [{ passOpen with started := true }] with
    restart := r, infoA := { fixed := true } })
def drainOf (r : Nat) (pipe : List DrainVal) (done : Nat) : Drain :=
  { setB := true, info := { live := true, fixed := true, anchor := 10 }, drec := drainRecord, index := 3, rows := [r, r, r, r], pipe := pipe, done := done }

theorem test_hyps_MatrixIssue : ∃ (s : State) (id : CoreId) (op : Fin 4), 
    (∃ (w : Fields), Ready s id ∧ 
    let k := s.chip.core id
    let p := k.passOf (BitVec.ofNat 3 op.val) w
    k.service = false ∧ k.passCauses p = [] ∧ k.arr.queued < 2 ∧ (∃ c ∈ k.arr.cells,
        c.pos = 0) ∧ p.closes = false ∧ (k.mustWait p.reads (if p.mb then [(p.copyOffset, 256)] else []) = false)) ∧
    (∃ (w : Fields), Ready s id ∧ 
    let k := s.chip.core id
    let p := k.passOf (BitVec.ofNat 3 op.val) w
    let record := k.scratch.read (k.regN w.d) 64
    k.service = false ∧ k.passCauses p = [] ∧ k.arr.queued < 2 ∧ (∃ c ∈ k.arr.cells,
        c.pos = 0) ∧ p.closes = true ∧ recordCauses record p.wide = [] ∧ (k.mustWait [(k.regN w.d,
        64)] [] = false) ∧ k.mustWait (p.readRanges record) (p.writeRanges record) = false) :=
  ⟨onCore (coreM (arrayAt (cellAt 0 false false []) [])), 0x1003, 0, ⟨wordM, by decide, by decide, by decide, by decide, by decide, by decide,
      by decide⟩, ⟨{ wordM with d := 10, mod := 1 }, by decide, by decide, by decide, by decide, by decide, by decide, by decide, by decide,
      by decide⟩⟩

theorem test_hyps_MatrixClose :
    (∃ (s : State) (id : CoreId), Ready s id ∧ 
    let k := s.chip.core id
    k.service = false ∧ k.phase ≠ .transfer ∧ k.arr.openTile = none) ∧
    (∃ (s : State) (id : CoreId) (d : BitVec 4), Ready s id ∧ 
    let k := s.chip.core id
    let record := k.scratch.read (k.regN d) 64
    k.service = false ∧ k.phase ≠ .transfer ∧ ∃ (tile : _), k.arr.openTile = some tile ∧ k.regN d + 64 ≤ 4096 ∧ k.arr.queued < 2 ∧ (∀ p ∈ k.arr.passes,
        p.isClose = false) ∧ (∀ c ∈ k.arr.cells, c.pos < k.arr.passes.length) ∧ (∃ c ∈ k.arr.cells,
        c.pos = 0) ∧ recordCauses record tile.wide = [] ∧ (k.mustWait [(k.regN d, 64)] [] = false) ∧ (k.mustWait ((k.regN d,
        64) :: drainReads record tile.wide) (drainWrites record) = false)) ∧
    (∃ (s : State) (id : CoreId), Ready s id ∧ 
    let k := s.chip.core id
    k.service = false ∧ k.phase ≠ .transfer ∧ k.arr.passes = [] ∧ k.arr.drains = []) ∧
    (∃ (s : State) (id : CoreId), Ready s id ∧ 
    let k := s.chip.core id
    k.service = false ∧ k.phase ≠ .transfer ∧ (k.arr.passes ≠ [] ∨ k.arr.drains ≠ [])) :=
  ⟨⟨onCore (coreM (arrayAt (cellAt 0 false false []) [])), 0x1003, by decide, by decide, by decide, by decide⟩,
      ⟨onCore (coreM { arrayAt (cellAt 0 false false []) [passOpen] with openTile := some ⟨false, false, false⟩ }), 0x1003, 10, by decide, by decide,
      by decide, _, rfl, by decide, by decide, by decide, by decide, by decide, by decide, by decide, by decide⟩,
      ⟨onCore (coreM (arrayAt (cellAt 0 false false []) [])), 0x1003, by decide, by decide, by decide, by decide, by decide⟩,
      ⟨onCore (coreM (arrayAt (cellAt 0 false false []) [passOpen])), 0x1003, by decide, by decide, by decide, by decide⟩⟩

theorem test_hyps_PassStart : ∃ (s : State) (id : CoreId) (i : Nat) (p : Pass), s.chip.coreRuns id = true ∧ 
    let k := s.chip.core id
    k.arr.nextPass = some i ∧ k.arr.passes[i]? = some p ∧ k.canStart i = true ∧ p.op ≠ 3 ∧ (∀ q ∈ k.arr.passes, q.mb = false) :=
  ⟨onCore (coreM (arrayAt (cellAt 0 false false []) [passOpen])), 0x1003, 0, passOpen, by decide, by decide, by decide, by decide, by decide,
      by decide⟩

theorem test_hyps_ProductCycle :
    (∃ (s : State) (id : CoreId) (p : Pass) (ps : List Pass) (j : Nat), s.chip.coreRuns id = true ∧ 
    let k := s.chip.core id
    InStep k p ps j ∧ (∀ n, n < 16 → (entered k p j n).2.2 = false) ∧ k.arr.restart = none) ∧
    (∃ (s : State) (id : CoreId) (p : Pass) (ps : List Pass) (j : Nat), s.chip.coreRuns id = true ∧ 
    let k := s.chip.core id
    InStep k p ps j ∧ (∀ n, n < 16 → (entered k p j n).2.2 = false) ∧ ∃ (q : _), k.preempt = .none ∧ (k.arr.restart = some ⟨q, .overflow, true⟩)) ∧
    (∃ (s : State) (id : CoreId) (p : Pass) (ps : List Pass) (j : Nat), s.chip.coreRuns id = true ∧ 
    let k := s.chip.core id
    InStep k p ps j ∧ (∀ n, n < 16 → (entered k p j n).2.2 = false) ∧ ∃ (q : _), k.preempt = .none ∧ (k.arr.restart = some ⟨q, .parity, true⟩)) :=
  ⟨⟨running1 none, 0x1003, { passOpen with started := true }, [], 1, by decide, (⟨by decide, by decide, by decide, by decide, by decide, by decide,
      by decide, .inr (by decide), by decide⟩), by decide, by decide⟩, ⟨running1 (some ⟨0, .overflow, true⟩), 0x1003,
      { passOpen with started := true }, [], 1, by decide, (⟨by decide, by decide, by decide, by decide, by decide, by decide, by decide,
      .inr (by decide), by decide⟩), by decide, 0, by decide, by decide⟩, ⟨running1 (some ⟨0, .parity, true⟩), 0x1003,
      { passOpen with started := true }, [], 1, by decide, (⟨by decide, by decide, by decide, by decide, by decide, by decide, by decide,
      .inr (by decide), by decide⟩), by decide, 0, by decide, by decide⟩⟩

theorem test_hyps_DeferredSwap : ∃ (s : State) (id : CoreId) (p : Pass), s.chip.coreRuns id = true ∧ 
    let k := s.chip.core id
    let a := k.arr
    let t := a.info p.setB
    k.restorePend = false ∧ a.restart = none ∧ a.passes = [p] ∧ p.closes = true ∧ p.isClose = false ∧ (∀ c ∈ a.cells,
        c.pos = 0 ∧ c.waits = true ∧ c.inB = p.setB) ∧ a.cells ≠ [] ∧ (∀ d ∈ a.drains, d.setB = p.setB ∨ ∀ r ∈ d.rows,
        4 ≤ r) ∧ t.bad = false ∧ t.fb = false :=
  ⟨onCore (coreM (arrayAt (cellAt 4 true true []) [{ passClose with setB := true, started := true }])), 0x1003, _, by decide, by decide, by decide,
      rfl, by decide, by decide, by decide, by decide, by decide, by decide, by decide⟩

theorem test_hyps_Drains :
    (∃ (s : State) (id : CoreId) (d : Drain) (rest : List Drain), s.chip.coreRuns id = true ∧ 
    let k := s.chip.core id
    k.restorePend = false ∧ k.arr.drains = d :: rest ∧ drToScratch d.drec = true ∧ ∃ (r : Fin 4), (d.rows = [r.val, r.val, r.val, r.val])) ∧
    (∃ (s : State) (id : CoreId) (d : Drain) (rest : List Drain), s.chip.coreRuns id = true ∧ 
    let k := s.chip.core id
    k.restorePend = false ∧ k.arr.drains = d :: rest ∧ drToScratch d.drec = true ∧ ∃ (v vs : _), d.pipe = v :: vs ∧ (drFmt d.drec).isMx = false ∧ d.done < 15 ∧ drNormOn d.drec = false ∧ 
    let n := outIndex d.info v.cell
    drValid d.drec n = true) :=
  ⟨⟨onCore (coreM { arrayAt (cellAt 0 false false []) [] with drains := [drainOf 0 [] 0] }), 0x1003, _, [], by decide, by decide, rfl, by decide, 0,
      by decide⟩, ⟨onCore (coreM { arrayAt (cellAt 0 false false []) [] with drains := [drainOf 4 [⟨11, { w := 0x123456789 }⟩] 11] }), 0x1003, _, [],
      by decide, by decide, rfl, by decide, _, _, rfl, by decide, by decide, by decide, by decide⟩⟩

/-! ### Global memory and translation -/

theorem core_cases {s : State} (k : Core) (h : s.chip.cores = [(0x1003, k)]) (i : CoreId) : s.chip.core i = k ∨ s.chip.core i = {} := by
  unfold Chip.core tblGet; rw [h]; unfold tblFind tblFind; split
  · exact .inl rfl
  · exact .inr rfl

theorem wakes_none {s : State} (hw : ∀ i, s.chip.wakesCore s.env i = false)
    (hx : ∀ cl, (s.chip.cluster cl).job = none ∧ (s.chip.cluster cl).streams = []) (cl : ClusterId) : s.chip.wakesCluster s.env cl = false := by
  unfold Chip.wakesCluster Chip.itemWaits
  rw [(hx cl).1, (hx cl).2, List.any_eq_false.mpr (fun i _ => by rw [hw i]; decide)]
  rfl

theorem all_written {s : State} (x : Cluster) (h : s.chip.clusters = [(0x40, x)]) (hx : x.wb = []) (cl : ClusterId) :
    (s.chip.cluster cl).wb = [] := by
  unfold Chip.cluster tblGet; rw [h]; unfold tblFind tblFind; split
  · exact hx
  · rfl

theorem all_idle {s : State} (k : Core) (h : s.chip.cores = [(0x1003, k)]) (hk : k.running = false) (i : CoreId) :
    (s.chip.core i).running = false := by
  unfold Chip.core tblGet; rw [h]; unfold tblFind tblFind; split
  · exact hk
  · rfl

theorem all_free {s : State} (k : Core) (h : s.chip.cores = [(0x1003, k)]) (hk : k.hold = .none) (i : CoreId) :
    (s.chip.core i).hold = .none := by
  unfold Chip.core tblGet; rw [h]; unfold tblFind tblFind; split
  · exact hk
  · rfl

theorem others_free {s : State} (k : Core) (h : s.chip.cores = [(0x1003, k)]) (i : CoreId) (hi : i ≠ 0x1003) :
    (s.chip.core i).hold = .none := by
  unfold Chip.core tblGet; rw [h]; unfold tblFind tblFind; split
  · next e => exact absurd (BitVec.eq_of_toNat_eq e.symm) hi
  · rfl

def handleOf (base limit rights cls : Nat) : BitVec 512 := BitVec.ofNat 512 (base + limit * 2 ^ 64 + rights * 2 ^ 128 + cls * 2 ^ 136)

/-- Tenant 1 with two quads, an application core and page tables at 0x200000 that map the page 0x5000 for all access and 0x7000 for none. -/
def tenant1 : Tenant :=
  { quads := [16, 17], root := 0x200000, ring := 0, ringSize := 0, quotas := [1, 1, 1], normFirst := 4, normCount := 4, class0 := false,
    parkLimit := 1000, notifKind := 0, notifId := 0, notifPort := 0, notifFn := 0, apps := [3], onApps := false, peerMac := 0, peerUdp := 0 }
/-- The cells of bytes that stand at an address. -/
def cells (p : Nat × List Byte) : Memory := (p.2.zipIdx.filter (fun b => b.1 != 0)).map (fun b => (p.1 + b.2, b.1))
def pagesLow : Memory :=
  [(0x200000, leBytes 8 0x201003), (0x201000, leBytes 8 0x202003), (0x202000, leBytes 8 0x203003), (0x203028, leBytes 8 0x40001D),
    (0x203038, leBytes 8 0x400001), (0x203040, leBytes 8 0x60001D)].flatMap cells
/-- The page tables and what stands between 0x400000 and 0x5FFFFF. -/
def memOf (l : List (Nat × List Byte)) : Memory := pagesLow ++ l.flatMap cells ++ [(0x600002, 0x01), (0x600003, 0x80), (0x600004, 0x01), (0x600005,
    0x80)]
def pages : Memory := memOf []
def coreG : Core :=
  { core0 with
    regs := regs0.set 2 0x5000
    tenant := some 1
    handles := ((List.replicate 16 0).set 2 (handleOf 0x5000 0x1000 7 1)).set 3 (handleOf 0x5000 0x1000 0 0) }
def chipG (k : Core) (x : Cluster) (w : Walker) : Chip :=
  { chipOf k with
    clusters := [(0x40, x)]
    tenants := [(1, tenant1)]
    mem := { bytes := pages, normEnable := true, normBase := 7 }
    xlt := { ownBase := 0x600, ownEnable := true, walkers := [(0, w)] } }
def stateG (k : Core) (x : Cluster) (w : Walker) : State := { chip := chipG k x w, time := { ht := 320000 }, now := 1000000000 }
def page5 : TlbEntry := { tenant := 1, va := 0x5000, log2 := 12, pa := 0x400000, r := true, w := true, at' := true }
def accessOf (kind : AccessKind) (st : AccessStage) (va pa : Nat) : Access :=
  { kind := kind, d := 5, va := BitVec.ofNat 48 va, pa := BitVec.ofNat 52 pa, data := 0x11223344, cmp := 7, stage := st, index := 9 }
def heldG (a : Access) : State := stateG { coreG with hold := .access a } {} {}
def walkOf (a : Access) : Walk :=
  { tenant := 1, page := a.va.extractLsb' 12 36, reqs := [.core 0x1003], write := a.kind == .store, atomic := false }
def walkingG (a : Access) : State := stateG { coreG with hold := .access a } {} { walks := [walkOf a] }
/-- An entry of the write buffer for the line at 0x400000. -/
def entryG : WbEntry := { line := 0x10000, bytes := [(0, 1), (63, 0xAB)], owners := [.core 0x1003] }
def requestOf (cls : BitVec 2) (since : Nat) : MemReq := { core := 0x1003, line := 0x10000, cls := cls, since := since }
def queueG (q : List MemReq) : State :=
  let s := heldG (accessOf .load .memory 0x5000 0x400000)
  { s with chip := { s.chip with mem := { s.chip.mem with ctls := [(3, { queue := q })] } } }

theorem test_hyps_GlobalAccess :
    (∃ (s : State) (id : CoreId) (a c : BitVec 4), 
    (∃ (imm : BitVec 24) (t0 : TenantId), Ready s id ∧ 
    let k := s.chip.core id
    let x := s.chip.cluster (clusterOf id)
    let h := k.handles.getD (imm.toNat / 65536 % 16) 0
    let o := (k.reg a).toNat + imm.toNat % 65536
    let va : BitVec 48 := BitVec.ofNat 48 (handleBase h + o)
    k.tenant = some t0 ∧ (handleBase h + o) % 4 = 0 ∧ x.tlbFind t0 va.toNat = none ∧ imm.toNat < 2 ^ 20 ∧ 
    (handleOk h o 4 0 = true) ∧
    (handleOk h o 4 1 = true)) ∧
    (∃ (imm : BitVec 24) (t0 : TenantId), Ready s id ∧ 
    let k := s.chip.core id
    let x := s.chip.cluster (clusterOf id)
    let h := k.handles.getD (imm.toNat / 65536 % 16) 0
    let o := (k.reg a).toNat + imm.toNat % 65536
    let va : BitVec 48 := BitVec.ofNat 48 (handleBase h + o)
    k.tenant = some t0 ∧ (handleBase h + o) % 4 = 0 ∧ x.tlbFind t0 va.toNat = none ∧ imm.toNat / 2 ^ 20 < 10 ∧ (c = 0 ∨ imm.toNat / 2 ^ 20 = 9) ∧ handleOk h o 4 2 = true)) ∧
    (∃ (s : State) (id : CoreId) (a : BitVec 4) (imm : BitVec 24) (t0 : TenantId), Ready s id ∧ 
    let k := s.chip.core id
    let x := s.chip.cluster (clusterOf id)
    let h := k.handles.getD (imm.toNat / 65536 % 16) 0
    let o := (k.reg a).toNat + imm.toNat % 65536
    let va : BitVec 48 := BitVec.ofNat 48 (handleBase h + o)
    k.tenant = some t0 ∧ (handleBase h + o) % 4 = 0 ∧ ∃ (e : _), imm.toNat < 2 ^ 20 ∧ handleOk h o 4 1 = true ∧ x.tlbFind t0 va.toNat = some e ∧ e.w = true ∧ 
    let pa := (BitVec.ofNat 52 (e.phys va.toNat)).toNat
    (x.tlbUse e).canWrite (pa / 64) = true) ∧
    (∃ (s : State) (id : CoreId) (a : BitVec 4) (imm : BitVec 24) (t0 : TenantId), Ready s id ∧ 
    let k := s.chip.core id
    let h := k.handles.getD (imm.toNat / 65536 % 16) 0
    let o := (k.reg a).toNat + imm.toNat % 65536
    k.tenant = some t0 ∧ (handleBase h + o) % 4 = 0 ∧ imm.toNat < 2 ^ 20 ∧ 
    (handleOk h o 4 0 = false) ∧
    (handleOk h o 4 1 = false)) :=
  ⟨⟨stateG coreG {} {}, 0x1003, 0, 0, ⟨0x20FFC, 1, by decide, by decide, by decide, by decide, by decide, by decide, by decide⟩,
      ⟨0x20FFC - 0x5000 + 0x5000, 1, by decide, by decide, by decide, by decide, by decide, by decide, by decide⟩⟩,
      ⟨stateG coreG { tlb := [page5] } {}, 0x1003, 0, 0x20FFC, 1, by decide, by decide, by decide, page5, by decide, by decide, rfl, by decide,
      by decide⟩, ⟨stateG coreG {} {}, 0x1003, 0, 0x30000, 1, by decide, by decide, by decide, by decide, by decide, by decide⟩⟩

theorem test_hyps_LoadReturn :
    (∃ (s : State) (id : CoreId) (a : Access), s.chip.coreRuns id = true ∧ NoReplies s ∧ 
    let k := s.chip.core id
    ∃ (v : _), Waits k a (.value v) ∧ a.poisoned = false ∧ a.kind = .load) ∧
    (∃ (s : State) (id : CoreId) (a : Access), s.chip.coreRuns id = true ∧ NoReplies s ∧ 
    let k := s.chip.core id
    ∃ (v op : _), Waits k a (.value v) ∧ a.poisoned = false ∧ a.kind = .amo op) ∧
    (∃ (s : State) (id : CoreId) (a : Access), s.chip.coreRuns id = true ∧ NoReplies s ∧ 
    let k := s.chip.core id
    ∃ (v : _), Waits k a (.value v) ∧ a.poisoned = true ∧ a.kind = .load ∧ a.index = k.pc) ∧
    (∃ (s : State) (id : CoreId) (a : Access), s.chip.coreRuns id = true ∧ NoReplies s ∧ 
    let k := s.chip.core id
    Waits k a .memory ∧ a.kind = .load ∧ a.pa.toNat % 4 = 0 ∧ (s.chip.cluster (clusterOf id)).wb = [] ∧ s.chip.mem.poisoned (a.pa.toNat / 64) = false) :=
  ⟨⟨heldG (accessOf .load (.value 0x77) 0x5000 0x400000), 0x1003, accessOf .load (.value 0x77) 0x5000 0x400000, by decide, (⟨rfl, rfl⟩), 0x77, (⟨rfl,
      rfl⟩), by decide, by decide⟩, ⟨heldG (accessOf (.amo 9) (.value 0x77) 0x5000 0x400000), 0x1003, accessOf (.amo 9) (.value 0x77) 0x5000 0x400000,
      by decide, (⟨rfl, rfl⟩), 0x77, 9, (⟨rfl, rfl⟩), by decide, by decide⟩,
      ⟨heldG { accessOf .load (.value 0x77) 0x5000 0x400000 with poisoned := true }, 0x1003,
      { accessOf .load (.value 0x77) 0x5000 0x400000 with poisoned := true }, by decide, (⟨rfl, rfl⟩), 0x77, (⟨rfl, rfl⟩), by decide, by decide,
      by decide⟩, ⟨heldG (accessOf .load .memory 0x5000 0x400000), 0x1003, accessOf .load .memory 0x5000 0x400000, by decide, (⟨rfl, rfl⟩), (⟨rfl,
      rfl⟩), by decide, by decide, by decide, by decide⟩⟩

theorem test_hyps_AtomicAtHome : ∃ (s : State) (id : CoreId) (a : Access) (op : BitVec 4), NoReplies s ∧ 
    let k := s.chip.core id
    let pa := a.pa.toNat
    Waits k a .home ∧ a.kind = .amo op ∧ op.toNat ≤ 9 ∧ pa % 4 = 0 ∧ (∀ i < 4,
        s.chip.mem.populated (pa + i) = true) ∧ s.chip.mem.poisoned (pa / 64) = false :=
  ⟨heldG (accessOf (.amo 9) .home 0x5000 0x400FFC), 0x1003, accessOf (.amo 9) .home 0x5000 0x400FFC, 9, (⟨rfl, rfl⟩), (⟨rfl, rfl⟩), by decide,
      by decide, by decide, by decide, by decide⟩

theorem test_hyps_WriteBuffer :
    (∃ (s : State) (cl : ClusterId) (line : BitVec 46) (pre post : List WbEntry) (e : WbEntry), 
    let x := s.chip.cluster cl
    x.wb = pre ++ e :: post ∧ e.line = line.toNat ∧ e.sent = false ∧ (∀ y ∈ pre, y.line = line.toNat → y.sent = true)) ∧
    (∃ (s : State) (cl : ClusterId) (line : BitVec 46) (pre post : List WbEntry) (e : WbEntry), 
    let x := s.chip.cluster cl
    x.wb = pre ++ e :: post ∧ e.line = line.toNat ∧ NoReplies s ∧ e.sent = true ∧ e.poison = false ∧ e.bytes.length ≠ 64 ∧ (∀ y ∈ pre,
        y.line = line.toNat → y.sent = false) ∧ (e.bytes.map Prod.fst).Nodup ∧ (∀ p ∈ e.bytes,
        p.1 < 64 ∧ s.chip.mem.populated (64 * line.toNat + p.1) = true) ∧ (∀ id, clusterOf id = cl → (s.chip.core id).hold = .none)) ∧
    (∃ (s : State) (cl : ClusterId) (line : BitVec 46) (pre post : List WbEntry) (e : WbEntry), 
    let x := s.chip.cluster cl
    x.wb = pre ++ e :: post ∧ e.line = line.toNat ∧ NoReplies s ∧ e.sent = true ∧ e.poison = false ∧ e.bytes.length ≠ 64 ∧ (∀ y ∈ pre,
        y.line = line.toNat → y.sent = false) ∧ (e.bytes.map Prod.fst).Nodup ∧ (∀ p ∈ e.bytes,
        p.1 < 64 ∧ s.chip.mem.populated (64 * line.toNat + p.1) = true) ∧ ∃ (id : _), clusterOf id = cl ∧ (s.chip.core id).hold = .fence ∧ (s.chip.core id).flushes = [] ∧ (∀ y ∈ pre ++ post,
        y.owners.contains (.core id) = false) ∧ (∀ i, i ≠ id → clusterOf i = cl → (s.chip.core i).hold = .none)) :=
  ⟨⟨stateG coreG { wb := [entryG] } {}, 0x40, 0x10000, [], [], entryG, by decide, by decide, by decide, by decide⟩,
      ⟨stateG coreG { wb := [{ entryG with sent := true }] } {}, 0x40, 0x10000, [], [], { entryG with sent := true }, by decide, by decide, (⟨rfl,
      rfl⟩), by decide, by decide, by decide, by decide, by decide, by decide, (fun i _ => all_free coreG rfl rfl i)⟩,
      ⟨stateG { coreG with hold := .fence } { wb := [{ entryG with sent := true }] } {}, 0x40, 0x10000, [], [], { entryG with sent := true },
      by decide, by decide, (⟨rfl, rfl⟩), by decide, by decide, by decide, by decide, by decide, by decide, 0x1003, by decide, by decide, by decide,
      by decide, (fun i h _ => others_free { coreG with hold := .fence } rfl i h)⟩⟩

theorem test_hyps_Fences :
    (∃ (s : State) (id : CoreId), Ready s id ∧ s.chip.coreOutstanding id = false) ∧
    (∃ (s : State) (id : CoreId), Ready s id ∧ s.chip.coreOutstanding id = true) ∧
    (∃ (s : State) (id : CoreId) (m : DrainMaster) (n : Tenant) (t0 : TenantId), 
    let k := s.chip.core id
    let masters := (n.quads.flatMap clustersOfQuad).map DrainMaster.cluster ++ n.apps.map DrainMaster.app
    k.tenant = some t0 ∧ s.chip.tenant t0 = some n ∧ m ∈ masters ∧ ∃ (arrived acked : _), k.hold = .fenceSc arrived acked ∧ s.chip.coreOutstanding id = false ∧ m ∉ arrived) ∧
    (∃ (s : State) (id : CoreId) (m : DrainMaster) (n : Tenant) (t0 : TenantId), 
    let k := s.chip.core id
    let masters := (n.quads.flatMap clustersOfQuad).map DrainMaster.cluster ++ n.apps.map DrainMaster.app
    k.tenant = some t0 ∧ s.chip.tenant t0 = some n ∧ m ∈ masters ∧ ∃ (arrived acked : _), k.hold = .fenceSc arrived acked ∧ m ∈ arrived ∧ m ∉ acked ∧ (∀ cl,
        m = .cluster cl → ∀ e ∈ (s.chip.cluster cl).wb, id ∉ e.marks) ∧ (∃ o ∈ masters, o ∉ acked ++ [m])) ∧
    (∃ (s : State) (id : CoreId) (m : DrainMaster) (n : Tenant) (t0 : TenantId), 
    let k := s.chip.core id
    let masters := (n.quads.flatMap clustersOfQuad).map DrainMaster.cluster ++ n.apps.map DrainMaster.app
    k.tenant = some t0 ∧ s.chip.tenant t0 = some n ∧ m ∈ masters ∧ ∃ (arrived acked : _), k.hold = .fenceSc arrived acked ∧ m ∈ arrived ∧ m ∉ acked ∧ (∀ cl,
        m = .cluster cl → ∀ e ∈ (s.chip.cluster cl).wb, id ∉ e.marks) ∧ (∀ o ∈ masters, o ∈ acked ++ [m])) :=
  ⟨⟨stateG coreG {} {}, 0x1003, by decide, by decide⟩, ⟨stateG coreG { wb := [entryG] } {}, 0x1003, by decide, by decide⟩,
      ⟨stateG { coreG with hold := .fenceSc [] [] } {} {}, 0x1003, .app 3, tenant1, 1, by decide, rfl, by decide, [], [], rfl, by decide, by decide⟩,
      ⟨stateG { coreG with hold := .fenceSc [.app 3] [] } {} {}, 0x1003, .app 3, tenant1, 1, by decide, rfl, by decide, [.app 3], [], rfl, by decide,
      by decide, (fun _ h => nomatch h), by decide⟩,
      ⟨stateG { coreG with hold := .fenceSc [.app 3] ((List.range 8).map (fun i => DrainMaster.cluster (BitVec.ofNat _ (64 + i)))) } {} {}, 0x1003,
      .app 3, tenant1, 1, by decide, rfl, by decide, [.app 3], ((List.range 8).map (fun i => DrainMaster.cluster (BitVec.ofNat _ (64 + i)))), rfl,
      by decide, by decide, (fun _ h => nomatch h), by decide⟩⟩

theorem test_hyps_Controllers :
    (∃ (s : State) (u : MemUnit) (pre post : List MemReq) (r : MemReq) (a : Access), 
    let q := tblGet {} s.chip.mem.ctls u.toNat
    let waited (y : MemReq) : Prop := y.cls ≠ 0 ∧ y.since + s.chip.mem.qosGuard.toNat * 6400 ≤ s.now
    let k := s.chip.core r.core
    q.queue = pre ++ r :: post ∧ r ∉ pre ∧ r ∉ post ∧ Waits k a .memory ∧ a.kind = .load ∧ a.pa.toNat % 4 = 0 ∧ a.pa.toNat / 64 = r.line ∧ (s.chip.cluster (clusterOf r.core)).wb = [] ∧ s.chip.mem.poisoned r.line = false ∧ (∀ y ∈ pre,
        ¬waited y) ∧ waited r) ∧
    (∃ (s : State) (u : MemUnit) (pre post : List MemReq) (r : MemReq) (a : Access), 
    let q := tblGet {} s.chip.mem.ctls u.toNat
    let waited (y : MemReq) : Prop := y.cls ≠ 0 ∧ y.since + s.chip.mem.qosGuard.toNat * 6400 ≤ s.now
    let k := s.chip.core r.core
    q.queue = pre ++ r :: post ∧ r ∉ pre ∧ r ∉ post ∧ Waits k a .memory ∧ a.kind = .load ∧ a.pa.toNat % 4 = 0 ∧ a.pa.toNat / 64 = r.line ∧ (s.chip.cluster (clusterOf r.core)).wb = [] ∧ s.chip.mem.poisoned r.line = false ∧ (∀ y ∈ q.queue,
        ¬waited y) ∧ (∀ y ∈ pre, y.cls ≠ 0) ∧ r.cls = 0 ∧ q.recent.countP (·) ≤ 64 * s.chip.mem.qosCap.toNat) :=
  ⟨⟨queueG [requestOf 2 (10 ^ 9 - 1), requestOf 1 0], 3, [requestOf 2 (10 ^ 9 - 1)], [], requestOf 1 0, accessOf .load .memory 0x5000 0x400000,
      by decide, by decide, by decide, (⟨rfl, rfl⟩), by decide, by decide, by decide, by decide, by decide, by decide, by decide⟩,
      ⟨queueG [requestOf 2 (10 ^ 9 - 1), requestOf 0 (10 ^ 9)], 3, [requestOf 2 (10 ^ 9 - 1)], [], requestOf 0 (10 ^ 9),
      accessOf .load .memory 0x5000 0x400000, by decide, by decide, by decide, (⟨rfl, rfl⟩), by decide, by decide, by decide, by decide, by decide,
      by decide, by decide, by decide, by decide⟩⟩

theorem test_hyps_PatrolScrub : ∃ (s : State) (line : BitVec 46), 64 * line.toNat < 1024000000000 ∧ line.toNat ∉ s.chip.mem.poison :=
  ⟨State.reset, 15999999999, by decide, by decide⟩

theorem test_hyps_Walks :
    (∃ (s : State) (id : CoreId) (a : Access) (t0 : TenantId) (n : Tenant), 
    let k := s.chip.core id
    let die := clusterDie (clusterOf id)
    let w := s.chip.walker die
    let page : BitVec 36 := a.va.extractLsb' 12 36
    k.tenant = some t0 ∧ s.chip.tenant t0 = some n ∧ Waits k a .translate ∧ (∀ y ∈ w.walks, y.tenant ≠ t0 ∨ y.page ≠ page) ∧ w.walks.length < 32) ∧
    (∃ (s : State) (id : CoreId) (a : Access) (t0 : TenantId) (n : Tenant), 
    let k := s.chip.core id
    let die := clusterDie (clusterOf id)
    let x := s.chip.cluster (clusterOf id)
    let w := s.chip.walker die
    let page : BitVec 36 := a.va.extractLsb' 12 36
    let amo := match a.kind with
      | .amo _ => true
      | _ => false
    let mine : Walk := { tenant := t0, page := page, reqs := [.core id], write := a.kind == .store, atomic := amo }
    k.tenant = some t0 ∧ s.chip.tenant t0 = some n ∧ Waits k a .walking ∧ w.walks = [mine] ∧ ∃ (e : _), s.chip.walk (s.chip.tableEntry die t0) t0 (page.toNat * 4096) = .ok e ∧ e.maps e.tenant a.va.toNat = true ∧ a.kind = .store ∧ e.w = true ∧ (x.tlbInstall e).canWrite ((BitVec.ofNat 52 (e.phys a.va.toNat)).toNat / 64) = true) ∧
    (∃ (s : State) (id : CoreId) (a : Access) (t0 : TenantId) (n : Tenant), 
    let k := s.chip.core id
    let die := clusterDie (clusterOf id)
    let w := s.chip.walker die
    let page : BitVec 36 := a.va.extractLsb' 12 36
    let amo := match a.kind with
      | .amo _ => true
      | _ => false
    let mine : Walk := { tenant := t0, page := page, reqs := [.core id], write := a.kind == .store, atomic := amo }
    k.tenant = some t0 ∧ s.chip.tenant t0 = some n ∧ Waits k a .walking ∧ w.walks = [mine] ∧ ∃ (o level ea e : _), s.chip.walk (s.chip.tableEntry die t0) t0 (page.toNat * 4096) = .fail o level ea e ∧ 1 ≤ o ∧ o ≤ 2) ∧
    (∃ (s : State) (id : CoreId) (a : Access) (t0 : TenantId) (n : Tenant), 
    let k := s.chip.core id
    let die := clusterDie (clusterOf id)
    let w := s.chip.walker die
    let page : BitVec 36 := a.va.extractLsb' 12 36
    let amo := match a.kind with
      | .amo _ => true
      | _ => false
    let mine : Walk := { tenant := t0, page := page, reqs := [.core id], write := a.kind == .store, atomic := amo }
    k.tenant = some t0 ∧ s.chip.tenant t0 = some n ∧ Waits k a .walking ∧ w.walks = [mine] ∧ ∃ (o level ea e : _), s.chip.walk (s.chip.tableEntry die t0) t0 (page.toNat * 4096) = .fail o level ea e ∧ 2 < o ∧ a.kind = .load) ∧
    (∃ (s : State) (id : CoreId) (a : Access) (t0 : TenantId) (n : Tenant), 
    let k := s.chip.core id
    k.tenant = some t0 ∧ s.chip.tenant t0 = some n ∧ Waits k a .faulted ∧ a.since + n.parkLimit ≤ s.time.ht.toNat / 64 ∧ a.index = k.pc) :=
  ⟨⟨heldG (accessOf .load .translate 0x5000 0), 0x1003, accessOf .load .translate 0x5000 0, 1, _, by decide, rfl, (⟨rfl, rfl⟩), by decide, by decide⟩,
      ⟨walkingG (accessOf .store .walking 0x5004 0), 0x1003, accessOf .store .walking 0x5004 0, 1, _, by decide, rfl, (⟨rfl, rfl⟩), by decide, _, rfl,
      by decide, by decide, by decide, by decide⟩, ⟨walkingG (accessOf .load .walking 0x9004 0), 0x1003, accessOf .load .walking 0x9004 0, 1, _,
      by decide, rfl, (⟨rfl, rfl⟩), by decide, _, _, _, _, rfl, by decide, by decide⟩, ⟨walkingG (accessOf .load .walking 0x8004 0), 0x1003,
      accessOf .load .walking 0x8004 0, 1, _, by decide, rfl, (⟨rfl, rfl⟩), by decide, _, _, _, _, rfl, by decide, by decide⟩,
      ⟨heldG { accessOf .load .faulted 0x5000 0 with since := 4000 }, 0x1003, { accessOf .load .faulted 0x5000 0 with since := 4000 }, 1, _,
      by decide, rfl, (⟨rfl, rfl⟩), by decide, by decide⟩⟩

/-! ### Transfers -/

/-- A descriptor of 16 by 2 elements of one byte: 32 bytes at offset 0 of a source, 64 bytes apart, to offset 1,024, its word at 2,048,
with a path and the fields from byte 112. -/
def descOf (path : Byte) (ext : List Nat) (tail : List Byte) : List Byte :=
  leBytes 6 0 ++ leBytes 6 1024 ++ [0, 2] ++ leBytes 2 0 ++ [path, 0] ++ leBytes 2 2048 ++ leBytes 4 16 ++ leBytes 4 2 ++ List.replicate 12 0 ++
    leBytes 4 64 ++ List.replicate 12 0 ++ leBytes 4 64 ++ List.replicate 32 0 ++ ext.flatMap (leBytes 4) ++ List.replicate 12 0 ++ tail ++
    List.replicate (16 - tail.length) 0
def plain0 : List Byte := descOf 0 [16, 2] []
def coreX (d : List Byte) (ph : CorePhase) : Core := { coreG with phase := ph, scratch := Memory.write [] 3968 d, regs := regs0.set 2 3968 }
def streamOf (d : List Byte) (kind : XferKind) (place : Place) (st : StreamState) (lines : Nat) (n : BitVec 16) : Stream :=
  { serial := n, core := 0x1003, tenant := 1, kind := kind, desc := d, src := handleOf 0x5000 0x1000 7 1, dst := handleOf 0x5000 0x1000 7 1,
    place := place, st := st, lines := lines, order := n.toNat, fenceSeq := 0 }
/-- A core in its transfer phase with the one stream `st`. -/
def oneStream (st : Stream) : State := stateG (coreX plain0 .transfer) { streams := [st], tlb := [page5] } {}
def allContexts : List Stream := (List.range 16).map (fun i => streamOf plain0 .plain (.hw (BitVec.ofNat 4 i)) .running 0 (BitVec.ofNat 16 (100 + i)))
def spilled (n : Nat) (s : State) : State := { s with chip := { s.chip with mem := { s.chip.mem with spillUse := BitVec.ofNat 21 n } } }

theorem others_compute {s : State} (k : Core) (h : s.chip.cores = [(0x1003, k)]) (i : CoreId) (hi : i ≠ 0x1003) :
    (s.chip.core i).phase = .compute := by
  unfold Chip.core tblGet; rw [h]; unfold tblFind tblFind; split
  · next e => exact absurd (BitVec.eq_of_toNat_eq e.symm) hi
  · rfl

theorem test_hyps_TransferPhases :
    (∃ (s : State) (id : CoreId), 
    let k := s.chip.core id
    Ready s id ∧ k.phase = .compute ∧ k.arr.passes = [] ∧ k.arr.drains = [] ∧ k.tq = []) ∧
    (∃ (s : State) (id : CoreId), 
    let k := s.chip.core id
    let cl := clusterOf id
    let x := s.chip.cluster cl
    ∃ (n : _), k.phase = .requested n ∧ k.preempt = .none ∧ k.halted = false ∧ k.arr.passes = [] ∧ k.arr.drains = [] ∧ k.tq = [] ∧ x.gated = false ∧ s.chip.coreRuns id = true ∧ (∀ st ∈ x.streams,
        st.core = id → st.wordDue = false ∧ st.markDue = false) ∧ (∀ i m,
        i ≠ id → clusterOf i = cl → (s.chip.core i).phase = .requested m → n < m ∨ n = m ∧ id < i) ∧ (((coresOf cl).countP (fun i => (s.chip.core i).inAdmission)) < s.chip.admission cl)) ∧
    (∃ (s : State) (id : CoreId), 
    let cl := clusterOf id
    (s.chip.admission cl ≤ ((coresOf cl).countP (fun i => (s.chip.core i).inAdmission)))) ∧
    (∃ (s : State) (id : CoreId), 
    let k := s.chip.core id
    Ready s id ∧ k.phase = .transfer ∧ (∀ st ∈ s.chip.coreStreams id, st.settled = true)) ∧
    (∃ (s : State) (id : CoreId), 
    let k := s.chip.core id
    Ready s id ∧ k.phase = .transfer ∧ (∃ st ∈ s.chip.coreStreams id, st.settled = false)) :=
  ⟨⟨stateG (coreX plain0 .compute) {} {}, 0x1003, by decide, by decide, by decide, by decide, by decide⟩, ⟨stateG (coreX plain0 (.requested 3)) {} {},
      0x1003, 3, by decide, by decide, by decide, by decide, by decide, by decide, by decide, by decide, by decide,
      (fun i m h _ e => by rw [others_compute (coreX plain0 (.requested 3)) rfl i h] at e; cases e), by decide⟩,
      ⟨{ stateG (coreX plain0 (.requested 3)) {} {} with chip := { chipG (coreX plain0 (.requested 3)) {} {} with cores := (List.range 8).map (fun i => (0x1000 + i, coreX plain0 .transfer)) } },
      0x1003, by decide⟩, ⟨oneStream (streamOf plain0 .plain (.hw 0) (.ended 1) 2 7), 0x1003, by decide, by decide, by decide⟩,
      ⟨oneStream (streamOf plain0 .plain (.hw 0) .running 0 7), 0x1003, by decide, by decide, by decide⟩⟩

theorem test_hyps_TransferOpening :
    (∃ (s : State) (id : CoreId) (a : BitVec 4) (i : Fin 5), Ready s id ∧ 
    let k := s.chip.core id
    let base := (k.reg a).toNat
    let desc := k.scratch.read base 128
    let word := fieldLe desc 18 2
    k.phase = .transfer ∧ base % 32 = 0 ∧ base + 128 ≤ 4096 ∧ word % 8 = 0 ∧ word + 8 ≤ 4096 ∧ (k.mustWait [(base, 128)] [(word,
        8)] = false) ∧ dRefused (kindOf i) desc = true) ∧
    (∃ (s : State) (id : CoreId) (a : BitVec 4) (i : Fin 5), Ready s id ∧ 
    let k := s.chip.core id
    let cl := clusterOf id
    let x := s.chip.cluster cl
    let base := (k.reg a).toNat
    let desc := k.scratch.read base 128
    let word := fieldLe desc 18 2
    k.phase = .transfer ∧ base % 32 = 0 ∧ base + 128 ≤ 4096 ∧ word % 8 = 0 ∧ word + 8 ≤ 4096 ∧ (k.mustWait [(base, 128)] [(word,
        8)] = false) ∧ dRefused (kindOf i) desc = false ∧ ∃ (n rest : _), x.freeContexts = n :: rest ∧ x.openStreams < 65535) ∧
    (∃ (s : State) (id : CoreId) (a : BitVec 4) (i : Fin 5), Ready s id ∧ 
    let k := s.chip.core id
    let cl := clusterOf id
    let x := s.chip.cluster cl
    let base := (k.reg a).toNat
    let desc := k.scratch.read base 128
    let word := fieldLe desc 18 2
    k.phase = .transfer ∧ base % 32 = 0 ∧ base + 128 ≤ 4096 ∧ word % 8 = 0 ∧ word + 8 ≤ 4096 ∧ (k.mustWait [(base, 128)] [(word,
        8)] = false) ∧ dRefused (kindOf i) desc = false ∧ x.freeContexts = [] ∧ x.openStreams < 65535 ∧ s.chip.mem.spillUse.toNat < s.chip.mem.spillEntries) ∧
    (∃ (s : State) (id : CoreId) (a : BitVec 4) (i : Fin 5), Ready s id ∧ 
    let k := s.chip.core id
    let cl := clusterOf id
    let x := s.chip.cluster cl
    let base := (k.reg a).toNat
    let desc := k.scratch.read base 128
    let word := fieldLe desc 18 2
    k.phase = .transfer ∧ base % 32 = 0 ∧ base + 128 ≤ 4096 ∧ word % 8 = 0 ∧ word + 8 ≤ 4096 ∧ (k.mustWait [(base, 128)] [(word,
        8)] = false) ∧ dRefused (kindOf i) desc = false ∧ (65535 ≤ x.openStreams ∨ (x.freeContexts = [] ∧ s.chip.mem.spillEntries ≤ s.chip.mem.spillUse.toNat))) :=
  ⟨⟨stateG (coreX (descOf 5 [16, 2] []) .transfer) {} {}, 0x1003, 2, 0, by decide, by decide, by decide, by decide, by decide, by decide, by decide,
      by decide⟩, ⟨stateG (coreX plain0 .transfer) {} {}, 0x1003, 2, 0, by decide, by decide, by decide, by decide, by decide, by decide, by decide,
      by decide, _, _, rfl, by decide⟩, ⟨stateG (coreX plain0 .transfer) { streams := allContexts } {}, 0x1003, 2, 0, by decide, by decide, by decide,
      by decide, by decide, by decide, by decide, by decide, by decide, by decide, by decide⟩,
      ⟨spilled 65536 (stateG (coreX plain0 .transfer) { streams := allContexts } {}), 0x1003, 2, 0, by decide, by decide, by decide, by decide,
      by decide, by decide, by decide, by decide, by decide⟩⟩

theorem test_hyps_LineDelivery :
    (∃ (s : State) (cl : ClusterId) (n : BitVec 16) (st : Stream), 
    let us := lineUnits st.kind st.desc st.lines
    let from' (u : WalkUnit) : List Reach := s.chip.reach cl st st.src u.src (dGroup st.desc).2 0
    s.chip.stream cl n = some st ∧ s.chip.canMove cl st = true ∧ st.kind = .plain ∧ dPath st.desc = 0 ∧ (∀ u ∈ us,
        u.outside = false → firstMiss (from' u) = none ∧ firstBad (from' u) = none ∧ ∀ p ∈ reached (from' u), s.chip.streamPoison cl st p = false)) ∧
    (∃ (s : State) (cl : ClusterId) (n : BitVec 16) (st : Stream), 
    let us := lineUnits st.kind st.desc st.lines
    let from' (u : WalkUnit) : List Reach := s.chip.reach cl st st.src u.src (dGroup st.desc).2 0
    s.chip.stream cl n = some st ∧ s.chip.canMove cl st = true ∧ st.kind = .plain ∧ dPath st.desc = 0 ∧ ∃ (u pre post va : _), us = pre ++ u :: post ∧ (∀ y ∈ pre,
        y.outside = true ∨ firstMiss (from' y) = none) ∧ u.outside = false ∧ firstMiss (from' u) = some va) :=
  ⟨⟨oneStream (streamOf plain0 .plain (.hw 0) .running 1 7), 0x40, 7, streamOf plain0 .plain (.hw 0) .running 1 7, rfl, by decide, by decide,
      by decide, by decide⟩, ⟨stateG (coreX plain0 .transfer) { streams := [streamOf plain0 .plain (.hw 0) .running 0 7] } {}, 0x40, 7,
      streamOf plain0 .plain (.hw 0) .running 0 7, rfl, by decide, by decide, by decide, _, [], _, _, rfl, by decide, by decide, rfl⟩⟩

theorem test_hyps_StreamEnds :
    (∃ (s : State) (cl : ClusterId) (n : BitVec 16) (st : Stream), 
    let k := s.chip.core st.core
    s.chip.stream cl n = some st ∧ st.sender = none ∧ st.place ≠ .spilled ∧ st.st = .running ∧ dLines st.desc ≤ st.lines ∧ (s.chip.cluster cl).outstanding (.stream cl st.serial) = false ∧ st.detached = false ∧ st.kind ≠ .multicast ∧ st.missed = false ∧ Transferring k) ∧
    (∃ (s : State) (cl : ClusterId) (n : BitVec 16) (st : Stream),
        s.chip.stream cl n = some st ∧ st.sender = none ∧ st.place ≠ .spilled ∧ st.st = .running ∧ dLines st.desc ≤ st.lines ∧ (s.chip.cluster cl).outstanding (.stream cl st.serial) = false ∧ st.detached = true ∧ handleOk st.dst (fieldLe st.desc 120 6) 8 1 = true) ∧
    (∃ (s : State) (cl : ClusterId) (n : BitVec 16) (st : Stream), 
    let k := s.chip.core st.core
    s.chip.stream cl n = some st ∧ st.sender = none ∧ st.place ≠ .spilled ∧ st.kind = .plain ∧ dPath st.desc = 4 ∧ st.st = .running ∧ Transferring k ∧ (let us := fieldLe st.desc 112 4; st.opened + 64000 * (if us = 0 then 10000 else us) ≤ s.now) ∧ s.chip.findSender cl st = none) ∧
    (∃ (s : State) (cl : ClusterId) (n : BitVec 16) (st : Stream),
        s.chip.stream cl n = some st ∧ st.sender = none ∧ st.place ≠ .spilled ∧ st.kind = .multicast ∧ st.st = .running ∧ st.lines < dLines st.desc ∧ (∃ c ∈ st.targets,
        c ∉ st.matched) ∧ st.opened + 640000000 ≤ s.now ∧ s.chip.seekers st = []) ∧
    (∃ (s : State) (cl : ClusterId) (n : BitVec 16) (st : Stream),
        s.chip.stream cl n = some st ∧ st.sender = none ∧ st.place ≠ .spilled ∧ ∃ (ten : _),
        s.chip.tenant st.tenant = some ten ∧ st.st = .parked ∧ st.since + ten.parkLimit ≤ s.time.ht.toNat / 64 ∧ st.detached = false ∧ dPath st.desc = 0) :=
  ⟨⟨oneStream (streamOf plain0 .plain (.hw 0) .running 2 7), 0x40, 7, streamOf plain0 .plain (.hw 0) .running 2 7, rfl, by decide, by decide,
      by decide, by decide, by decide, by decide, by decide, by decide, by decide⟩,
      ⟨oneStream { streamOf (descOf 2 [16, 2] ([0x14] ++ List.replicate 7 0 ++ leBytes 6 0x10)) .copy (.hw 0) .running 2 7 with detached := true },
      0x40, 7, { streamOf (descOf 2 [16, 2] ([0x14] ++ List.replicate 7 0 ++ leBytes 6 0x10)) .copy (.hw 0) .running 2 7 with detached := true }, rfl,
      by decide, by decide, by decide, by decide, by decide, by decide, by decide⟩,
      ⟨oneStream (streamOf (descOf 4 [0, 0] [1]) .plain (.hw 0) .running 0 7), 0x40, 7, streamOf (descOf 4 [0, 0] [1]) .plain (.hw 0) .running 0 7,
      rfl, by decide, by decide, by decide, by decide, by decide, by decide, by decide, by decide⟩,
      ⟨oneStream (streamOf (descOf 1 [16, 2] [6]) .multicast (.hw 0) .running 0 7), 0x40, 7,
      streamOf (descOf 1 [16, 2] [6]) .multicast (.hw 0) .running 0 7, rfl, by decide, by decide, by decide, by decide, by decide, (⟨0x1001,
      by decide, by decide⟩), by decide, by decide⟩, ⟨oneStream { streamOf plain0 .plain (.hw 0) .parked 0 7 with since := 4000 }, 0x40, 7,
      { streamOf plain0 .plain (.hw 0) .parked 0 7 with since := 4000 }, rfl, by decide, by decide, _, rfl, by decide, by decide, by decide,
      by decide⟩⟩

theorem test_hyps_StreamPlaces :
    (∃ (s : State) (cl : ClusterId) (n : BitVec 16) (st : Stream),
        s.chip.stream cl n = some st ∧ st.st = .parked ∧ st.place ≠ .spilled ∧ s.chip.mem.spillUse.toNat < s.chip.mem.spillEntries) ∧
    (∃ (s : State) (cl : ClusterId) (n : BitVec 16) (st w : Stream), 
    let x := s.chip.cluster cl
    s.chip.stream cl n = some st ∧ (x.streams.find? (fun y => y.place == .hw 15 && !(match y.st with | .ended _ => true | _ => false)) = some st) ∧ (st.st = .parked ∨ 4096 ≤ st.turn) ∧ s.chip.stream cl w.serial = some w ∧ ∃ (pre post : _), x.waiting = pre ++ w :: post ∧ (∀ y ∈ pre,
        y.order ≤ st.order) ∧ (st.order < w.order ∨ pre = [] ∧ (∀ y ∈ w :: post, y.order ≤ st.order))) ∧
    (∃ (s : State) (cl : ClusterId) (n : BitVec 16) (st w : Stream), 
    let x := s.chip.cluster cl
    s.chip.stream cl n = some st ∧ ∃ (i free rest : _), x.waiting = w :: rest ∧ s.chip.stream cl w.serial = some w ∧ x.freeContexts = i :: free ∧ i < 15) ∧
    (∃ (s : State) (cl : ClusterId) (n : BitVec 16) (st : Stream),
        s.chip.stream cl n = some st ∧ (s.chip.core st.core).preempt = .requested ∧ st.detached = false ∧ st.st = .running) :=
  ⟨⟨oneStream (streamOf plain0 .plain (.hw 0) .parked 0 7), 0x40, 7, streamOf plain0 .plain (.hw 0) .parked 0 7, rfl, by decide, by decide,
      by decide⟩,
      ⟨spilled 1 (stateG (coreX plain0 .transfer) { streams := [{ streamOf plain0 .plain (.hw 15) .running 0 7 with turn := 4096 }, streamOf plain0 .plain .spilled .running 0 9] } {}),
      0x40, 7, { streamOf plain0 .plain (.hw 15) .running 0 7 with turn := 4096 }, streamOf plain0 .plain .spilled .running 0 9, rfl, by decide,
      by decide, rfl, [], [], rfl, by decide, by decide⟩,
      ⟨spilled 1 (stateG (coreX plain0 .transfer) { streams := [streamOf plain0 .plain .spilled .running 0 9] } {}), 0x40, 9,
      streamOf plain0 .plain .spilled .running 0 9, streamOf plain0 .plain .spilled .running 0 9, rfl, 0, _, _, rfl, rfl, rfl, by decide⟩,
      ⟨stateG { coreX plain0 .transfer with preempt := .requested } { streams := [streamOf plain0 .plain (.hw 0) .running 0 7] } {}, 0x40, 7,
      streamOf plain0 .plain (.hw 0) .running 0 7, rfl, by decide, by decide, by decide⟩⟩

/-- Job 4 of tenant 1. -/
def job1 : Job := { tenant := 1, quads := [], ctx := 0, image := ⟨0, false, 0, [], 0, [], none, 0⟩ }
def ofJob (k : Core) : State :=
  let s := stateG { k with job := some 4 } {} {}
  { s with chip := { s.chip with jobs := [(4, job1)] } }
/-- A descriptor of `VDESC` that walks 96 bytes at an address, with its results at 3,840. -/
def vdesc (addr kind : Nat) : List Byte :=
  leBytes 8 addr ++ [BitVec.ofNat 8 kind, 3] ++ List.replicate 6 0 ++ leBytes 4 96 ++ leBytes 4 1 ++ leBytes 4 1 ++ leBytes 4 1 ++
    List.replicate 24 0 ++ leBytes 2 3840 ++ List.replicate 6 0
def servedG (d : List Byte) (running : Bool) (h : Hold) : State :=
  stateG { coreG with scratch := Memory.write [] 4032 d, service := true, running := running, hold := h } {} {}

theorem test_hyps_EndOfItem :
    (∃ (s : State) (id : CoreId) (j : JobId) (job : Job), CanIssue s id ∧ s.chip.cmd.waiting = [] ∧ 
    let k := s.chip.core id
    k.job = some j ∧ s.chip.job j = some job ∧ s.chip.coreStreams id = [] ∧ k.arr.passes = [] ∧ k.arr.drains = [] ∧ k.arr.openTile = none ∧ k.tq = []) ∧
    (∃ (s : State) (id : CoreId) (j : JobId) (job : Job), CanIssue s id ∧ s.chip.cmd.waiting = [] ∧ 
    let k := s.chip.core id
    k.job = some j ∧ s.chip.job j = some job ∧ s.chip.coreStreams id = [] ∧ k.arr.passes = [] ∧ k.arr.drains = [] ∧ (k.arr.openTile ≠ none ∨ k.tq ≠ [])) ∧
    (∃ (s : State) (id : CoreId) (j : JobId) (job : Job), CanIssue s id ∧ s.chip.cmd.waiting = [] ∧ 
    let k := s.chip.core id
    k.job = some j ∧ s.chip.job j = some job ∧ s.chip.coreStreams id = [] ∧ (k.arr.passes ≠ [] ∨ k.arr.drains ≠ [])) :=
  ⟨⟨ofJob coreG, 0x1003, 4, job1, by decide, by decide, by decide, rfl, by decide, by decide, by decide, by decide, by decide⟩,
      ⟨ofJob { coreG with arr := { ArrayState.init with openTile := some ⟨false, false, false⟩ } }, 0x1003, 4, job1, by decide, by decide, by decide,
      rfl, by decide, by decide, by decide, by decide⟩,
      ⟨ofJob { coreG with arr := { ArrayState.init with drains := [{ setB := false, info := {}, drec := [], index := 0 }] } }, 0x1003, 4, job1,
      by decide, by decide, by decide, rfl, by decide, by decide⟩⟩

theorem test_hyps_DescriptorWalks :
    (∃ (s : State) (id : CoreId), 
    let k := s.chip.core id
    Ready s id ∧ k.service = false) ∧
    (∃ (s : State) (id : CoreId) (a : BitVec 4), 
    let k := s.chip.core id
    let base := (k.reg a).toNat
    let desc := k.scratch.read base 64
    let res := fieldLe desc 56 2
    Ready s id ∧ k.service = true ∧ base + 64 ≤ 4096 ∧ res % 32 = 0 ∧ res + 32 ≤ 4096 ∧ fieldLe desc 9 1 / 16 = 0) ∧
    (∃ (s : State) (id : CoreId) (a : BitVec 4), 
    let k := s.chip.core id
    let base := (k.reg a).toNat
    let desc := k.scratch.read base 64
    s.chip.coreRuns id = true ∧ k.hold = .walk (BitVec.ofNat 12 base) ∧ base < 4096 ∧ 9 < fieldLe desc 8 1) ∧
    (∃ (s : State) (id : CoreId) (a : BitVec 4), 
    let k := s.chip.core id
    let base := (k.reg a).toNat
    let desc := k.scratch.read base 64
    let res := fieldLe desc 56 2
    s.chip.coreRuns id = true ∧ k.hold = .walk (BitVec.ofNat 12 base) ∧ base < 4096 ∧ ∃ (n : _), fieldLe desc 8 1 = 1 ∧ fieldLe desc 9 1 = Fmt.e4m3.code ∧ (∀ i,
        i < 6 → nth 0 desc (10 + i) = 0 ∧ nth 0 desc (58 + i) = 0) ∧ fieldLe desc 44 4 = 0 ∧ fieldLe desc 16 4 = n ∧ fieldLe desc 20 4 = 1 ∧ fieldLe desc 24 4 = 1 ∧ fieldLe desc 28 4 = 1 ∧ fieldLe desc 0 8 + n ≤ 4096 ∧ (res + 32 ≤ fieldLe desc 0 8 ∨ fieldLe desc 0 8 + n ≤ res)) :=
  ⟨⟨onCore core0, 0x1003, by decide, by decide⟩, ⟨onCore { core0 with service := true, scratch := Memory.write [] 4032 (vdesc 4000 1) }, 0x1003, 11,
      by decide, by decide, by decide, by decide, by decide, by decide⟩, ⟨servedG (vdesc 4000 10) false (.walk 4032), 0x1003, 11, by decide,
      by decide, by decide, by decide⟩, ⟨servedG (vdesc 4000 1) false (.walk 4032), 0x1003, 11, by decide, by decide, by decide, 96, by decide,
      by decide, by decide, by decide, by decide, by decide, by decide, by decide, by decide, by decide⟩⟩

theorem test_hyps_NormFlushUpdate :
    (∃ (s : State) (id : CoreId) (t0 : TenantId) (ten : Tenant) (f : NormSlot) (rest : List NormSlot), 
    let k := s.chip.core id
    let addr := s.chip.mem.normBase.toNat * 2 ^ 22 + 64 * f.tag.toNat
    k.flushes = f :: rest ∧ k.hold = .none ∧ k.tenant = some t0 ∧ s.chip.tenant t0 = some ten ∧ ten.normFirst.toNat ≤ f.tag.toNat ∧ f.tag.toNat < ten.normFirst.toNat + ten.normCount.toNat ∧ s.chip.mem.normEnable = true ∧ (∀ i < 64,
        s.chip.mem.populated (addr + i) = true)) ∧
    (∃ (s : State) (id : CoreId) (t0 : TenantId) (ten : Tenant) (f : NormSlot) (rest : List NormSlot), 
    let k := s.chip.core id
    k.flushes = f :: rest ∧ k.hold = .none ∧ k.tenant = some t0 ∧ s.chip.tenant t0 = some ten ∧ (f.tag.toNat < ten.normFirst.toNat ∨ ten.normFirst.toNat + ten.normCount.toNat ≤ f.tag.toNat)) :=
  ⟨⟨stateG { coreG with flushes := [slotOf 7] } {} {}, 0x1003, 1, _, _, _, rfl, by decide, by decide, rfl, by decide, by decide, by decide,
      by decide⟩, ⟨stateG { coreG with flushes := [slotOf 8] } {} {}, 0x1003, 1, _, _, _, rfl, by decide, by decide, rfl, by decide⟩⟩

/-! ### Hall time -/

/-- Local HT 5,000 ns with the register 15 at 5,000 and 14 at 0, time `t`, the registers `r` and the one barrier 6. -/
def timeOf (k : Core) (t : HallTime) (r : HtRegs) (b : Barrier) : State :=
  let s := stateG { k with regs := (k.regs.set 15 5000).set 14 5001 } {} {}
  { s with chip := { s.chip with barriers := [(6, b)] }, time := { t with ht := 320000 }, htRegs := r }
def heldT (h : Hold) (st : TimeState) (b : Barrier) : State := timeOf { coreG with hold := h } { st := st } {} b
def barrierAt (st : BarrierState) (instant : W64) : Barrier := { instant := instant, tenant := 1, claimed := true, st := st }
def pathOf (up : BitVec 3) (bound : Nat) : HtLink := { upState := up, valid := true, upBound := BitVec.ofNat 16 bound, delay := 100, uncert := 3 }
def twoUp : HtRegs := { cfg := { priEn := true, primary := 3, secEn := true, secondary := 5 } }
def timeFrom (st : TimeState) (src : BoundSource) (a b : Nat) : State :=
  timeOf coreG { st := st, src := src, links := [(3, pathOf 3 a), (5, pathOf 3 b)] } twoUp {}
def rootRegs : HtRegs := { cfg := { root := true }, pps := { inEn := true, inOffset := 0, outEn := true, outOffset := 5 } }
def rootTime (t : HallTime) (ht : BitVec 70) : State := { time := { t with ht := ht, links := [] }, htRegs := rootRegs }
def linked (l : HtLink) (st : TimeState) : State :=
  { chip := { fab := { ports := [(3, { link := 2 })] } }, time := { st := st, links := [(3, l)] }, htRegs := twoUp }
def flitT : TimeFlit :=
  { origin := 1000, arrival := 1500, bound := 33, state := 3, root := false, holdover := false, frame := 2, sync := true, delay := none,
    announce := some (4, 2), foreignOption := false }

theorem test_hyps_TimedWaits :
    (∃ (s : State) (id : CoreId), 
    (∃ (a b : BitVec 4), 
    let k := s.chip.core id
    let ns := s.time.ht.toNat / 64
    let value := k.reg b ++ k.reg a
    Ready s id ∧ value.toNat ≤ ns) ∧
    (∃ (a b : BitVec 4), 
    let k := s.chip.core id
    let ns := s.time.ht.toNat / 64
    let value := k.reg b ++ k.reg a
    Ready s id ∧ ns < value.toNat)) ∧
    (∃ (s : State) (id : CoreId), 
    let ns := s.time.ht.toNat / 64
    ∃ (t : _), Held s id (.waitht t) ∧ t.toNat ≤ ns) ∧
    (∃ (s : State) (id : CoreId), 
    let ns := s.time.ht.toNat / 64
    ∃ (t : _), (s.chip.core id).hold = .waitht t ∧ ns < t.toNat) ∧
    (∃ (s : State) (id : CoreId) (e : BitVec 12) (t0 : TenantId), 
    let k := s.chip.core id
    let ns := s.time.ht.toNat / 64
    let bar := s.chip.barrier e
    let mine : Prop := bar.claimed = true ∧ bar.tenant = t0
    let come : Prop := bar.st = .released ∨ bar.st = .armed ∧ bar.instant.toNat ≤ ns ∧ s.time.st ≠ .unset
    k.tenant = some t0 ∧ mine ∧ come ∧ Ready s id) ∧
    (∃ (s : State) (id : CoreId) (e : BitVec 12) (t0 : TenantId), 
    let k := s.chip.core id
    let ns := s.time.ht.toNat / 64
    let bar := s.chip.barrier e
    let mine : Prop := bar.claimed = true ∧ bar.tenant = t0
    let come : Prop := bar.st = .released ∨ bar.st = .armed ∧ bar.instant.toNat ≤ ns ∧ s.time.st ≠ .unset
    k.tenant = some t0 ∧ (¬(mine ∧ come)) ∧ Ready s id) ∧
    (∃ (s : State) (id : CoreId) (e : BitVec 12) (t0 : TenantId), 
    let k := s.chip.core id
    let ns := s.time.ht.toNat / 64
    let bar := s.chip.barrier e
    let mine : Prop := bar.claimed = true ∧ bar.tenant = t0
    let come : Prop := bar.st = .released ∨ bar.st = .armed ∧ bar.instant.toNat ≤ ns ∧ s.time.st ≠ .unset
    ∃ (freed : _), Held s id (.barw e freed) ∧ k.tenant = some t0 ∧ (freed = true ∨ mine ∧ come)) :=
  ⟨⟨timeOf coreG {} {} {}, 0x1003, ⟨15, 0, by decide, by decide⟩, ⟨14, 0, by decide, by decide⟩⟩, ⟨heldT (.waitht 5000) .out {}, 0x1003, 5000,
      by decide, by decide⟩, ⟨heldT (.waitht 5001) .out {}, 0x1003, 5001, by decide, by decide⟩, ⟨heldT .none .out (barrierAt .armed 5000), 0x1003, 6,
      1, by decide, by decide, by decide, by decide⟩, ⟨heldT .none .unset (barrierAt .armed 5000), 0x1003, 6, 1, by decide, by decide, by decide⟩,
      ⟨heldT (.barw 6 false) .out (barrierAt .armed 5000), 0x1003, 6, 1, false, by decide, by decide, by decide⟩⟩

theorem test_hyps_BarrierRelease :
    (∃ (s : State) (e : BitVec 12), 
    let b := s.chip.barrier e
    b.st = .armed ∧ b.instant.toNat ≤ s.time.ht.toNat / 64 ∧ s.time.st ≠ .unset) ∧
    (∃ (s : State) (e : BitVec 12), 
    let b := s.chip.barrier e
    b.st = .armed ∧ (s.time.ht.toNat / 64 < b.instant.toNat ∨ s.time.st = .unset)) :=
  ⟨⟨heldT .none .out (barrierAt .armed 5000), 6, by decide, by decide, by decide⟩, ⟨heldT .none .out (barrierAt .armed 5001), 6, by decide,
      by decide⟩⟩

theorem test_hyps_TimeStates :
    (∃ (s : State), s.time.src = .pps) ∧
    (∃ (s : State) (p : _), s.time.src = .link p) ∧
    (∃ (s : State) (e0 since : _), s.time.src = .holdover e0 since) ∧
    (∃ (s : State), 
    let e := s.time.e s.htRegs
    (s.time.st = .track ∨ s.time.st = .locked) ∧ ¬RootLocked s ∧ 384 < e + 64) ∧
    (∃ (s : State), 
    let e := s.time.e s.htRegs
    s.time.st = .locked ∧ ¬RootLocked s ∧ 128 < e + 64 ∧ e + 64 ≤ 384) ∧
    (∃ (s : State), 
    let e := s.time.e s.htRegs
    let ends : Prop := s.time.ht.toNat = 2 ^ 70 - 1
    (s.time.st = .track ∨ s.time.st = .out) ∧ (e + 64 < 128 ∨ RootLocked s) ∧ ¬ends) ∧
    (∃ (s : State), 
    let e := s.time.e s.htRegs
    s.time.st = .out ∧ 128 ≤ e + 64 ∧ ¬RootLocked s) ∧
    (∃ (s : State), 
    let ends : Prop := s.time.ht.toNat = 2 ^ 70 - 1
    ends) :=
  ⟨⟨rootTime { st := .locked, src := .pps } 0, by decide⟩, ⟨timeFrom .locked (.link 3) 64 64, _, rfl⟩, ⟨timeFrom .locked (.holdover 10 4000) 0 0, _,
      _, rfl⟩, ⟨timeFrom .track (.holdover 321 320000) 0 0, by decide, by decide, by decide⟩, ⟨timeFrom .locked (.holdover 320 320000) 0 0, by decide,
      by decide, by decide, by decide⟩, ⟨timeFrom .out (.holdover 63 320000) 0 0, by decide, by decide, by decide⟩,
      ⟨timeFrom .out (.holdover 64 320000) 0 0, by decide, by decide, by decide⟩, ⟨rootTime {} (2 ^ 70 - 1), by decide⟩⟩

theorem test_hyps_TimeTree :
    (∃ (s : State) (p q : PortId), 
    let r := s.htRegs.cfg
    let usable (x : PortId) : Prop := let l := s.time.link x
      (l.upState = 3 ∨ l.upRoot = true) ∧ l.valid = true ∧ l.upBound.toNat ≤ 64
    let upstream (x : PortId) : Prop := r.root = false ∧
      (r.priEn = true ∧ r.primary = x ∧ usable x ∨ ¬(r.priEn = true ∧ usable r.primary) ∧ r.secEn = true ∧ r.secondary = x ∧ usable x)
    s.time.src = .link p ∧ upstream q ∧ p ≠ q) ∧
    (∃ (s : State) (p : PortId), 
    let r := s.htRegs.cfg
    let usable (x : PortId) : Prop := let l := s.time.link x
      (l.upState = 3 ∨ l.upRoot = true) ∧ l.valid = true ∧ l.upBound.toNat ≤ 64
    let upstream (x : PortId) : Prop := r.root = false ∧
      (r.priEn = true ∧ r.primary = x ∧ usable x ∨ ¬(r.priEn = true ∧ usable r.primary) ∧ r.secEn = true ∧ r.secondary = x ∧ usable x)
    s.time.src = .link p ∧ upstream p) ∧
    (∃ (s : State) (p : PortId), 
    let r := s.htRegs.cfg
    let usable (x : PortId) : Prop := let l := s.time.link x
      (l.upState = 3 ∨ l.upRoot = true) ∧ l.valid = true ∧ l.upBound.toNat ≤ 64
    let none' : Prop := r.root = true ∨ ¬(r.priEn = true ∧ usable r.primary) ∧ ¬(r.secEn = true ∧ usable r.secondary)
    s.time.src = .link p ∧ none') ∧
    (∃ (s : State) (q : PortId), 
    let r := s.htRegs.cfg
    let usable (x : PortId) : Prop := let l := s.time.link x
      (l.upState = 3 ∨ l.upRoot = true) ∧ l.valid = true ∧ l.upBound.toNat ≤ 64
    let upstream (x : PortId) : Prop := r.root = false ∧
      (r.priEn = true ∧ r.primary = x ∧ usable x ∨ ¬(r.priEn = true ∧ usable r.primary) ∧ r.secEn = true ∧ r.secondary = x ∧ usable x)
    ∃ (e0 since : _), s.time.src = .holdover e0 since ∧ upstream q) :=
  ⟨⟨timeFrom .locked (.link 3) 65 64, 3, 5, by decide, by decide, by decide⟩, ⟨timeFrom .locked (.link 3) 64 64, 3, by decide, by decide⟩,
      ⟨timeFrom .locked (.link 3) 65 65, 3, by decide, by decide⟩, ⟨timeFrom .locked (.holdover 10 4000) 64 64, 3, _, _, rfl, by decide⟩⟩

theorem test_hyps_TimeFlits :
    (∃ (s : State) (p : PortId), (s.chip.port p).link = 2 ∧ s.time.st = .unset) ∧
    (∃ (s : State) (p : PortId), (s.chip.port p).link = 2 ∧ s.time.st ≠ .unset) ∧
    (∃ (s : State) (p : PortId) (f : TimeFlit), (s.chip.port p).link = 2 ∧ f.foreignOption = false) ∧
    (∃ (s : State) (p : PortId), 
    let l := s.time.link p
    (s.chip.port p).link = 2 ∧ l.partnerOut = true ∧ l.goodSince = true) ∧
    (∃ (s : State) (p : PortId), 
    let l := s.time.link p
    (s.chip.port p).link = 2 ∧ 16 ≤ l.missed ∧ l.valid = true) :=
  ⟨⟨linked {} .unset, 3, by decide, by decide⟩, ⟨linked {} .out, 3, by decide, by decide⟩, ⟨linked {} .unset, 3, flitT, by decide, by decide⟩,
      ⟨linked { pathOf 3 64 with partnerOut := true, goodSince := true, missed := 16 } .out, 3, by decide, by decide, by decide⟩,
      ⟨linked { pathOf 3 64 with missed := 16 } .out, 3, by decide, by decide, by decide⟩⟩

theorem test_hyps_PulsePerSecond :
    (∃ (s : State) (rising : Bool), 
    let r := s.htRegs
    let ht := s.time.ht.toNat
    let accepted : Prop := r.cfg.root = true ∧ r.pps.inEn = true ∧ rising = !r.pps.inFall ∧ s.chip.sys.refclk = true
    accepted ∧ ∃ (n : _), s.time.named = some n ∧ 
    let target := (n * 1000000000 + r.pps.inOffset.toNat) * 64
    target < 2 ^ 70 ∧ ht + 64000 < target ∧ (s.time.st = .unset ∨ s.time.st = .out)) ∧
    (∃ (s : State) (rising : Bool), 
    let r := s.htRegs
    let ht := s.time.ht.toNat
    let accepted : Prop := r.cfg.root = true ∧ r.pps.inEn = true ∧ rising = !r.pps.inFall ∧ s.chip.sys.refclk = true
    accepted ∧ s.time.named = none ∧ s.time.edges ≠ 0 ∧ 
    let d := ppsOffset ht r.pps.inOffset.toNat
    d.natAbs ≤ 6400) ∧
    (∃ (s : State) (rising : Bool), 
    let r := s.htRegs
    let ht := s.time.ht.toNat
    let accepted : Prop := r.cfg.root = true ∧ r.pps.inEn = true ∧ rising = !r.pps.inFall ∧ s.chip.sys.refclk = true
    accepted ∧ s.time.named = none ∧ s.time.edges ≠ 0 ∧ 
    let d := ppsOffset ht r.pps.inOffset.toNat
    6400 < d.natAbs) ∧
    (∃ (s : State) (rising : Bool), 
    let r := s.htRegs
    let accepted : Prop := r.cfg.root = true ∧ r.pps.inEn = true ∧ rising = !r.pps.inFall ∧ s.chip.sys.refclk = true
    ¬accepted) ∧
    (∃ (s : State), 
    let r := s.htRegs
    let ht := s.time.ht.toNat
    ∃ (e : _), r.cfg.root = true ∧ s.time.ppsLost = false ∧ s.time.lastEdge = some e ∧ e + 96000000000 ≤ ht) ∧
    (∃ (s : State), 
    let r := s.htRegs
    let ht := s.time.ht.toNat
    s.chip.sys.bootFail = false ∧ s.chip.sys.failQuiet = false ∧ r.pps.outEn = true ∧ (s.time.st = .track ∨ s.time.st = .locked) ∧ s.time.ppsOut = false ∧ (ht + 64000000000 - r.pps.outOffset.toNat * 64 % 64000000000) % 64000000000 < 640) ∧
    (∃ (s : State), 
    let ht := s.time.ht.toNat
    s.chip.sys.bootFail = false ∧ s.chip.sys.failQuiet = false ∧ s.time.ppsOut = true ∧ s.time.ppsRose + 64000000 ≤ ht) ∧
    (∃ (s : State), s.time.slewing = true ∧ s.time.corr = 0) :=
  ⟨⟨rootTime { named := some 9, edges := 4 } 0, true, by decide, _, rfl, by decide, by decide, by decide⟩, ⟨rootTime { edges := 4 } 6400, true,
      by decide, by decide, by decide, by decide⟩, ⟨rootTime { edges := 4 } 6401, true, by decide, by decide, by decide, by decide⟩, ⟨rootTime {} 0,
      false, by decide⟩, ⟨rootTime { lastEdge := some 0 } 96000000000, _, by decide, by decide, rfl, by decide⟩, ⟨rootTime { st := .locked } 959,
      by decide, by decide, by decide, by decide, by decide, by decide⟩, ⟨rootTime { ppsOut := true, ppsRose := 0 } 64000000, by decide, by decide,
      by decide, by decide⟩, ⟨rootTime { slewing := true } 0, by decide, by decide⟩⟩

theorem test_hyps_HallTimeNeverFalls : ∃ (s t : State), step s = .next t ∧ (∀ i rest, s.pending = i :: rest → (∀ a b,
    i ≠ .powerOnReset a b) ∧ i ≠ .powerLossReset ∧ (∀ c v, i ≠ .thermalTrip c v) ∧ (∀ v, i ≠ .smbusColdReset v) ∧ (∀ p, i ≠ .deviceResetCold p)) :=
  ⟨State.reset, State.reset.tick, rfl, ((fun _ _ h => nomatch h))⟩

/-! ### Items, the management unit and repair -/

def jobI : Job :=
  { job1 with quads := [16], image := ⟨0, false, 0, [], 8, [⟨[], 7, 64, 9⟩], none, 0⟩, launched := true, items := 300, started := [3], regs := regs0 }
def jobState (j : Job) (k : Core) (x : Cluster) : State :=
  let s := stateG k { x with job := some 4 } {}
  { s with chip := { s.chip with jobs := [(4, j)] } }
def idleG : Core := { coreG with running := false, tenant := none }
def sysState (f : Sys → Sys) : State := { chip := { sys := f {} }, now := 3200000005 }
def entryOf (kind st : Byte) (place : W32) : RepairEntry := ⟨kind, st, 64, place, 9⟩
def restorable : Core :=
  { coreG with
    restorePend := true
    halted := true
    restorePoint := some { index := 77, regs := regs0, lanes := List.replicate 16 5, norms := List.replicate 4 { tag := 3 } }
    arr := { ArrayState.init with infoA := { live := true, accThrough := true, copy := some 1024 } } }
theorem homeOf259 : jobI.home 259 = some 0x1003 := by decide

theorem test_hyps_Items :
    (∃ (s : State) (id home : CoreId) (item : BitVec 32) (h : JobId) (j : Job) (var : Variant), 
    let k := s.chip.core id
    let cl := clusterOf id
    let n := item.toNat
    (j.image.assign = none ∧ ∃ (c : _), j.clusters ≠ [] ∧ j.clusters[n / 64 % j.clusters.length]? = some c) ∧
    ((s.chip.cluster cl).job = some h ∧ s.chip.job h = some j ∧ j.home n = some home ∧ clusterOf home = cl ∧ (j.exact = true → home = id) ∧ j.launched = true ∧ j.chrysalis = none ∧ quadOf cl ∉ j.paused ∧ n < j.items ∧ n ∉ j.started ∧ k.running = false ∧ k.service = false ∧ k.outOfService = false ∧ (s.chip.cluster cl).withdrawn = false ∧ s.chip.coreRuns id = true ∧ j.image.variants[j.variant]? = some var)) ∧
    (∃ (s : State) (id : CoreId), 
    let k := s.chip.core id
    k.running = true) :=
  ⟨⟨jobState jobI idleG {}, 0x1003, 0x1003, 259, 4, jobI, _, ⟨by decide, _, by decide, rfl⟩, ⟨by decide, rfl, by decide, by decide, by decide,
      by decide, by decide, by decide, by decide, by decide, by decide, by decide, by decide, by decide, by decide, rfl⟩⟩, ⟨jobState jobI coreG {},
      0x1003, by decide⟩⟩

theorem test_hyps_Preemption :
    (∃ (s : State) (id : CoreId), 
    let k := s.chip.core id
    (s.chip.coll.heldPreempts = [(id, [])]) ∧ s.chip.coreRuns id = true ∧ k.running = true ∧ k.preempt = .none) ∧
    (∃ (s : State) (id : CoreId), 
    let k := s.chip.core id
    k.preempt = .requested ∧ s.chip.coreRuns id = true ∧ k.arr.restart = none ∧ k.arr.attemptRuns = true ∧ k.restorePend = false) ∧
    (∃ (s : State) (id : CoreId) (h : JobId) (j : Job), 
    let k := s.chip.core id
    k.job = some h ∧ s.chip.job h = some j ∧ k.preempt = .requested ∧ k.hold = .none ∧ k.tq = [] ∧ k.arr.passes = [] ∧ k.arr.drains = [] ∧ k.arr.restart = none ∧ k.restorePend = false ∧ k.phase = .compute) ∧
    (∃ (s : State) (id : CoreId) (h : JobId) (j : Job), 
    let k := s.chip.core id
    k.job = some h ∧ s.chip.job h = some j ∧ k.preempt = .saved ∧ s.chip.cmd.waiting = []) :=
  ⟨⟨{ jobState jobI coreG {} with chip := { (jobState jobI coreG {}).chip with coll := { heldPreempts := [(0x1003, [])] } } }, 0x1003, by decide,
      by decide, by decide, by decide⟩,
      ⟨jobState jobI { coreG with preempt := .requested, arr := { arrayAt (cellAt 2 false false [⟨false, {}, 1⟩]) [{ passOpen with started := true }] with nextB := false } } {},
      0x1003, by decide, by decide, by decide, by decide, by decide⟩, ⟨jobState jobI { coreG with job := some 4, preempt := .requested } {}, 0x1003,
      4, jobI, by decide, rfl, by decide, by decide, by decide, by decide, by decide, by decide, by decide, by decide⟩,
      ⟨jobState jobI { coreG with job := some 4, preempt := .saved } {}, 0x1003, 4, jobI, by decide, rfl, by decide, by decide⟩⟩

theorem test_hyps_CoreRepair :
    (∃ (s : State) (id : CoreId), 
    let k := s.chip.core id
    let cl := clusterOf id
    let x := s.chip.cluster cl
    k.halted = true ∧ k.excCause ≠ 0 ∧ k.restorePend = false ∧ k.preempt = .none ∧ k.outOfService = false ∧ k.arr.passes = [] ∧ k.arr.drains = [] ∧ s.chip.cmd.waiting = [] ∧ ∃ (p : _), x.freeSpare = some p) ∧
    (∃ (s : State) (id : CoreId), 
    let k := s.chip.core id
    let cl := clusterOf id
    let x := s.chip.cluster cl
    k.halted = true ∧ k.excCause ≠ 0 ∧ k.restorePend = false ∧ k.preempt = .none ∧ k.outOfService = false ∧ k.arr.passes = [] ∧ k.arr.drains = [] ∧ s.chip.cmd.waiting = [] ∧ x.freeSpare = none) ∧
    (∃ (s : State) (id : CoreId), 
    let k := s.chip.core id
    let cl := clusterOf id
    let x := s.chip.cluster cl
    k.outOfService = true ∧ x.withdrawn = false) ∧
    (∃ (s : State) (id : CoreId), 
    let k := s.chip.core id
    ∃ (off rp : _), s.chip.coreRuns id = true ∧ k.restorePend = true ∧ k.failed = false ∧ k.arr.infoB.accThrough = false ∧ k.arr.infoA.accThrough = true ∧ k.arr.infoA.copy = some off ∧ k.restorePoint = some rp) :=
  ⟨⟨jobState jobI { coreG with halted := true, excCause := 3 } {}, 0x1003, by decide, by decide, by decide, by decide, by decide, by decide,
      by decide, by decide, _, rfl⟩,
      ⟨jobState jobI { coreG with halted := true, excCause := 3 } { positions := [(3, 64), (4, 65)], failedPos := [3, 4] }, 0x1003, by decide,
      by decide, by decide, by decide, by decide, by decide, by decide, by decide, by decide⟩, ⟨jobState jobI { coreG with outOfService := true } {},
      0x1003, by decide, by decide⟩, ⟨jobState jobI restorable {}, 0x1003, _, _, by decide, by decide, by decide, by decide, by decide, rfl, rfl⟩⟩

theorem test_hyps_Spares :
    (∃ (s : State), 
    let sys := s.chip.sys
    sys.repairs.length < 16000 ∧ (∀ e ∈ sys.repairs, e.state ≠ 0)) ∧
    (∃ (s : State), 
    let sys := s.chip.sys
    sys.repairs.length < 16000 ∧ ∃ (stack : BitVec 4) (p : SparePc), tblFind s.chip.mem.spares stack.toNat = some p) ∧
    (∃ (s : State), 
    let sys := s.chip.sys
    sys.repairs.length < 16000 ∧ ∃ (i : BitVec 14) (e : RepairEntry) (id : CoreId), sys.repairs[i.toNat]? = some e ∧ e.state = 0 ∧ e.kind = 1 ∧ e.location = id.setWidth 32 ∧ s.chip.jobs = []) ∧
    (∃ (s : State), 
    let sys := s.chip.sys
    sys.repairs.length < 16000 ∧ 
    ((∀ e ∈ sys.repairs, e.kind ≠ 7)) ∧
    (∃ (cl : ClusterId), 
    (∃ (margin : Byte) (pair : BitVec 6), pair.toNat ≤ 32 ∧ sys.failQuiet = false ∧ 25 ≤ margin.toNat) ∧
    (∃ (margin : Byte) (pair : BitVec 6),
        pair.toNat ≤ 32 ∧ sys.failQuiet = false ∧ margin.toNat < 25 ∧ pair.toNat < 32 ∧ sys.repairs = [] ∧ (s.chip.cluster cl).positions = [] ∧ (s.chip.cluster cl).failedPos = []))) ∧
    (∃ (s : State), 
    let sys := s.chip.sys
    sys.repairs.length < 16000 ∧ ∃ (location : W32), s.chip.pairRuns = true ∧ (∀ e ∈ sys.repairs,
        e.kind = 3 → e.location = location → e.state = 1)) :=
  ⟨⟨sysState (fun x => x), by decide, by decide⟩, ⟨{ chip := { mem := { spares := [(15, ⟨3, false, false⟩)] } } }, by decide, 15, _, rfl⟩,
      ⟨sysState (fun x => { x with repairs := [entryOf 1 0 0x1003] }), by decide, 0, entryOf 1 0 0x1003, 0x1003, rfl, by decide, by decide, by decide,
      by decide⟩, ⟨sysState (fun x => x), by decide, by decide, ⟨0x40, ⟨25, 32, by decide, by decide, by decide⟩, ⟨24, 31, by decide, by decide,
      by decide, by decide, by decide, by decide, by decide⟩⟩⟩, ⟨sysState (fun x => { x with ended := 0xFF }), by decide, 7, by decide, by decide⟩⟩

theorem test_hyps_Managers :
    (∃ (s : State), 
    let sys := s.chip.sys
    sys.failQuiet = false ∧ sys.ended.getLsbD 1 = true ∧ sys.mpLost = false ∧ sys.spareOk = true) ∧
    (∃ (s : State), 
    let sys := s.chip.sys
    sys.failQuiet = false ∧ sys.ended.getLsbD 1 = true ∧ sys.mpLost = false ∧ sys.spareOk = false ∧ s.chip.cmd.queue = []) ∧
    (∃ (s : State), 
    let sys := s.chip.sys
    sys.failQuiet = false ∧ ∃ (t0 : _), sys.pairStarting = some t0 ∧ t0 + 3200000000 ≤ s.now ∧ sys.repairs.length < 16384 ∧ (∀ e ∈ sys.repairs,
        e.kind ≠ 8)) ∧
    (∃ (s : State), 
    let sys := s.chip.sys
    sys.failQuiet = false ∧ sys.standbyOk = true ∧ sys.repairs.length < 16384) ∧
    (∃ (s : State), 
    let sys := s.chip.sys
    sys.failQuiet = false ∧ sys.standbyOk = false) :=
  ⟨⟨sysState (fun x => { x with ended := 0xFF }), by decide, by decide, by decide, by decide⟩,
      ⟨sysState (fun x => { x with ended := 0xFF, spareOk := false }), by decide, by decide, by decide, by decide, by decide⟩,
      ⟨sysState (fun x => { x with pairStarting := some 5 }), by decide, _, rfl, by decide, by decide, by decide⟩,
      ⟨sysState (fun x => { x with ended := 0xFF }), by decide, by decide, by decide⟩, ⟨sysState (fun x => { x with standbyOk := false }), by decide,
      by decide⟩⟩

/-! ### The fabric -/

/-- In frame 10, locked to port 3. -/
def fabOf (x y : Port) (up : HtLink) : State :=
  { chip := { fab := { ports := [(3, x), (5, y)] } }, time := { ht := BitVec.ofNat 70 (frameStart 10 + 5), st := .locked, src := .link 3, links := [(3, up)] } }
def onPort (x : Port) : State := fabOf x { link := 2 } (pathOf 3 60)
def flitOf (kind : BitVec 4) (tag : Nat) (payload : List Byte) : Flit :=
  Flit.stamp { Flit.empty with kind := kind, tag := BitVec.ofNat 32 tag, payload := payload }
theorem lcrc_stamp (f : Flit) : f.stamp.lcrc = f.stamp.crc := by unfold Flit.crc Flit.head Flit.stamp Flit.crc Flit.head; rfl
def dataFlit : Flit := flitOf 1 5 (List.replicate 240 7)
def requestFlit : Flit := flitOf 4 0 (leBytes 8 (9 + 2 ^ 20 * 20) ++ List.replicate 232 0)
def repairFlit : Flit := flitOf 6 (9 + 2 ^ 20 * 20) (List.replicate 240 7)
def openFlit (hops dest : Nat) : Flit := flitOf 5 (dest + 2 ^ 20 * hops) (List.replicate 240 7)
def entryAt (slot : BitVec 12) (op : BitVec 4) (outPort : BitVec 6) (outSlot : BitVec 12) : SchedEntry :=
  { slot := slot, op := op, group := 2, context := 0, outSlot := outSlot, outPort := outPort, plog := 0, sealed := false, phase := 0 }
/-- Group 2 of tenant 1: ranks 0 and 1, an all-reduce of one segment that sends chunk 5 in context 0. -/
def segmentC : Segment :=
  { source := 0x5100, result := 0x5200, staging := 0x5300, deferral := 0x5400, elems := 4, tag := 0, norm := false, control := 0x5000 }
def opSend : CollOp :=
  { kind := 1, operator := 0, direct := false, srcFmt := 0, resFmt := 0, mean := false, sat := false, guarded := false, root := 0,
    contexts := [(0, 0)], segs := [segmentC], margin := 100, deadlines := 0, perm := [], step := 6, queue := [⟨5, 0, [dataFlit], 0⟩], next := 6 }
def groupC (op : CollOp) : Group :=
  { tenant := 1, rank := 0, members := [0, 1], arrival := false, drop := false, sumExp := 0, weight := 0, ledger := 0, ledgerSize := 0,
    limit := 0, op := some op }
def withGroup (g : Group) (s : State) : State := { s with chip := { s.chip with coll := { groups := [(2, g)] } } }

theorem test_hyps_LanesAndBanks :
    (∃ (s : State) (p : PortId), 
    let x := s.chip.port p
    x.link = 2 ∧ x.retired = 7 ∧ x.rxSwap = none) ∧
    (∃ (s : State) (p : PortId), 
    let x := s.chip.port p
    x.link = 2 ∧ x.retired ≠ 7) ∧
    (∃ (s : State) (p : PortId), 
    let x := s.chip.port p
    ∃ (l : _), x.rxSwap = some l ∧ l.sent = true ∧ l.frame + 2 ≤ frameNow s) ∧
    (∃ (s : State) (p : PortId), 
    let x := s.chip.port p
    ∃ (l : _), x.txSwap = some l ∧ l.frame + 2 ≤ frameNow s) ∧
    (∃ (s : State) (p : PortId), 
    let x := s.chip.port p
    ∃ (l rest : _), x.loads = l :: rest ∧ s.chip.cmd.waiting = []) ∧
    (∃ (s : State) (p : PortId), 
    let x := s.chip.port p
    ∃ (t0 : _), x.armed = some t0 ∧ 64 * t0.toNat ≤ frameStart (frameNow s)) ∧
    (∃ (s : State) (p : PortId), 
    let x := s.chip.port p
    ∃ (t0 : _), x.armed = some t0 ∧ frameStart (frameNow s) < 64 * t0.toNat) :=
  ⟨⟨onPort { link := 2 }, 3, by decide, by decide, by decide⟩, ⟨onPort { link := 2, retired := 2 }, 3, by decide, by decide⟩,
      ⟨onPort { link := 2, rxSwap := some ⟨1, 8, true⟩ }, 3, _, rfl, by decide, by decide⟩, ⟨onPort { link := 2, txSwap := some ⟨2, 8, false⟩ }, 3, _,
      rfl, by decide⟩, ⟨onPort { loads := [⟨true, [entryAt 20 1 0 0], []⟩] }, 3, _, _, rfl, by decide⟩,
      ⟨onPort { link := 2, armed := some (BitVec.ofNat 64 (frameStart 10 / 64)) }, 3, _, rfl, by decide⟩,
      ⟨onPort { link := 2, armed := some (BitVec.ofNat 64 (frameStart 10 / 64 + 1)) }, 3, _, rfl, by decide⟩⟩

theorem test_hyps_ScheduledSlots :
    (∃ (s : State) (p : PortId) (frame : FrameNo) (slot : SlotNo), InUse s p ∧ 16 ≤ slot.toNat ∧ slot.toNat < 3968 ∧ 
    let x := s.chip.port p
    let fr := frame.toNat
    let sl := slot.toNat
    (∀ y ∈ x.replay, ¬(y.frame = fr ∧ y.slot = sl)) ∧ (∀ y ∈ x.forwards, ¬(y.frame = fr ∧ y.slot = sl)) ∧ x.txEntry fr sl = none) ∧
    (∃ (s : State) (p : PortId) (frame : FrameNo) (slot : SlotNo) (f : Flit), InUse s p ∧ 16 ≤ slot.toNat ∧ slot.toNat < 3968 ∧ 
    let x := s.chip.port p
    let fr := frame.toNat
    let sl := slot.toNat
    (∀ y ∈ x.replay, ¬(y.frame = fr ∧ y.slot = sl)) ∧ (∀ y ∈ x.forwards,
        ¬(y.frame = fr ∧ y.slot = sl)) ∧ ∃ (e c' : _), x.txEntry fr sl = some e ∧ e.op = 2 ∧ ((s.chip.poll s.env e.group).nextFlit e = some (f,
        c'))) ∧
    (∃ (s : State) (p : PortId) (frame : FrameNo) (slot : SlotNo) (f : Flit), InUse s p ∧ 16 ≤ slot.toNat ∧ slot.toNat < 3968 ∧ 
    let x := s.chip.port p
    let fr := frame.toNat
    let sl := slot.toNat
    Whole f 1 ∧ x.rxEntry fr sl = none) ∧
    (∃ (s : State) (p : PortId) (frame : FrameNo) (slot : SlotNo) (f : Flit), InUse s p ∧ 16 ≤ slot.toNat ∧ slot.toNat < 3968 ∧ 
    let x := s.chip.port p
    let fr := frame.toNat
    let sl := slot.toNat
    ∃ (e : _), Whole f 1 ∧ x.rxEntry fr sl = some e ∧ e.op = 5 ∧ (s.chip.port e.outPort).absent = false) ∧
    (∃ (s : State) (p : PortId) (frame : FrameNo) (slot : SlotNo), InUse s p ∧ 16 ≤ slot.toNat ∧ slot.toNat < 3968 ∧ 
    let x := s.chip.port p
    let fr := frame.toNat
    let sl := slot.toNat
    x.rxEntry fr sl = none ∧ (∀ d ∈ x.damaged, ¬(d.frame = fr ∧ d.slot = sl))) ∧
    (∃ (s : State) (p : PortId) (frame : FrameNo) (slot : SlotNo), InUse s p ∧ 16 ≤ slot.toNat ∧ slot.toNat < 3968 ∧ 
    let x := s.chip.port p
    let fr := frame.toNat
    let sl := slot.toNat
    ∃ (h : _), x.forwards = [h] ∧ h.frame = fr ∧ h.slot = sl ∧ x.txEntry fr sl = none) :=
  ⟨⟨onPort { link := 2 }, 3, 10, 16, by decide, by decide, by decide, by decide, by decide, by decide⟩,
      ⟨withGroup (groupC opSend) (onPort { link := 2, bank0 := { tx := [entryAt 16 2 0 0], rx := [], ready := true } }), 3, 10, 16, _, by decide,
      by decide, by decide, by decide, by decide, _, _, rfl, by decide, rfl⟩, ⟨onPort { link := 2 }, 3, 10, 16, dataFlit, by decide, by decide,
      by decide, (⟨lcrc_stamp _, rfl, by decide⟩), by decide⟩,
      ⟨withGroup (groupC opSend) (onPort { link := 2, bank0 := { tx := [], rx := [entryAt 16 5 5 30], ready := true } }), 3, 10, 16, dataFlit,
      by decide, by decide, by decide, _, (⟨lcrc_stamp _, rfl, by decide⟩), rfl, by decide, by decide⟩, ⟨onPort { link := 2 }, 3, 10, 16, by decide,
      by decide, by decide, by decide, by decide⟩, ⟨onPort { link := 2, forwards := [⟨10, 3967, some dataFlit⟩] }, 3, 10, 3967, by decide, by decide,
      by decide, _, rfl, by decide, by decide, by decide⟩⟩

theorem test_hyps_RepairPath :
    (∃ (s : State) (p : PortId), 
    let x := s.chip.port p
    x.link = 2 ∧ ∃ (d : _), x.rxSwap = none ∧ x.damaged = [d] ∧ d.requested = false) ∧
    (∃ (s : State) (p : PortId) (f : Flit), 
    let x := s.chip.port p
    let entry (a b : Nat) : List Byte := leBytes 8 (a % 2 ^ 20 + 2 ^ 20 * b)
    x.link = 2 ∧ ∃ (y : _), Whole f 4 ∧ f.payload = entry y.frame y.slot ++ List.replicate 232 0 ∧ 16 ≤ y.slot ∧ y.slot < 3968 ∧ x.replay = [y] ∧ y.flit.kind = 1 ∧ x.repairs = []) ∧
    (∃ (s : State) (p : PortId) (slot : SlotNo) (f : Flit), 
    let x := s.chip.port p
    let sl := slot.toNat
    x.link = 2 ∧ ∃ (rest : _), x.repairs = f :: rest ∧ 3968 ≤ sl) ∧
    (∃ (s : State) (p : PortId) (slot : SlotNo), 
    let x := s.chip.port p
    let sl := slot.toNat
    x.link = 2 ∧ x.repairs = [] ∧ 3968 ≤ sl) ∧
    (∃ (s : State) (p : PortId) (f : Flit), 
    let x := s.chip.port p
    x.link = 2 ∧ ∃ (d : _), Whole f 6 ∧ x.damaged = [d] ∧ f.tag = BitVec.ofNat 32 (d.frame % 2 ^ 20 + 2 ^ 20 * d.slot) ∧ d.slot < 4096 ∧ x.rxEntry d.frame d.slot = none) ∧
    (∃ (s : State) (p : PortId) (frame : FrameNo) (slot : SlotNo), 
    let x := s.chip.port p
    let fr := frame.toNat
    let sl := slot.toNat
    x.link = 2 ∧ ∃ (d : _), x.damaged = [d] ∧ d.frame = fr ∧ d.slot = sl ∧ x.rxEntry fr sl = none ∧ fr + 8 < frameNow s) ∧
    (∃ (s : State) (p : PortId) (frame : FrameNo) (slot : SlotNo), 
    let x := s.chip.port p
    let fr := frame.toNat
    let sl := slot.toNat
    x.link = 2 ∧ ∃ (d : _), x.damaged = [d] ∧ d.frame = fr ∧ d.slot = sl ∧ x.rxEntry fr sl = none ∧ frameNow s ≤ fr + 8) :=
  ⟨⟨onPort { link := 2, damaged := [⟨9, 20, false⟩] }, 3, by decide, _, by decide, rfl, by decide⟩,
      ⟨onPort { link := 2, replay := [⟨9, 20, dataFlit⟩] }, 3, requestFlit, by decide, ⟨9, 20, dataFlit⟩, (⟨lcrc_stamp _, rfl, by decide⟩), by decide,
      by decide, by decide, rfl, by decide, by decide⟩, ⟨onPort { link := 2, repairs := [repairFlit] }, 3, 3968, repairFlit, by decide, _, rfl,
      by decide⟩, ⟨onPort { link := 2 }, 3, 4095, by decide, by decide, by decide⟩, ⟨onPort { link := 2, damaged := [⟨9, 20, false⟩] }, 3, repairFlit,
      by decide, ⟨9, 20, false⟩, (⟨lcrc_stamp _, rfl, by decide⟩), rfl, by decide, by decide, by decide⟩,
      ⟨onPort { link := 2, damaged := [⟨1, 3967, true⟩] }, 3, 1, 3967, by decide, ⟨1, 3967, true⟩, rfl, by decide, by decide, by decide, by decide⟩,
      ⟨onPort { link := 2, damaged := [⟨2, 16, true⟩] }, 3, 2, 16, by decide, ⟨2, 16, true⟩, rfl, by decide, by decide, by decide, by decide⟩⟩

theorem test_hyps_AbsentAndOpen :
    (∃ (s : State) (p : PortId), 
    let x := s.chip.port p
    x.missed = 3 ∧ x.absent = false ∧ (x.bankAt x.swapFrame).rx = [] ∧ s.chip.cmd.waiting = []) ∧
    (∃ (s : State) (p : PortId), 
    let x := s.chip.port p
    x.absent = true ∧ x.missed = 0 ∧ ((s.time.link p).upState = 2 ∨ (s.time.link p).upState = 3)) ∧
    (∃ (s : State) (p : PortId) (f : Flit), 
    let x := s.chip.port p
    let hops := f.tag.toNat / 2 ^ 20 % 256
    let dest := f.tag.toNat % 2 ^ 20
    x.link = 2 ∧ Whole f 5 ∧ f.tag.toNat / 2 ^ 28 % 2 = 0 ∧ dest ≠ s.chip.cmd.chip.toNat ∧ hops = 0) ∧
    (∃ (s : State) (p q : PortId) (f : Flit), 
    let x := s.chip.port p
    let hops := f.tag.toNat / 2 ^ 20 % 256
    let dest := f.tag.toNat % 2 ^ 20
    let route := (s.chip.mem.bytes.get (s.chip.fab.routes + dest)).toNat
    x.link = 2 ∧ Whole f 5 ∧ f.tag.toNat / 2 ^ 28 % 2 = 0 ∧ dest ≠ s.chip.cmd.chip.toNat ∧ hops ≠ 0 ∧ route = 128 + q.toNat ∧ (s.chip.port q).absent = false) ∧
    (∃ (s : State) (p : PortId) (slot : SlotNo), 
    let x := s.chip.port p
    x.link = 2 ∧ 2 ≤ slot.toNat ∧ slot.toNat ≤ 15 ∧ x.waiting = []) ∧
    (∃ (s : State) (p : PortId) (slot : SlotNo), 
    let x := s.chip.port p
    x.link = 2 ∧ 2 ≤ slot.toNat ∧ slot.toNat ≤ 15 ∧ ∃ (m pre post : _), x.waiting = pre ++ m :: post ∧ m.sender = none ∧ s.chip.cmd.waiting = [] ∧ (∀ y ∈ pre,
        m.cls.rank < y.cls.rank) ∧ (∀ y ∈ post, m.cls.rank ≤ y.cls.rank) ∧ m ∉ pre) :=
  ⟨⟨onPort { link := 2, missed := 3 }, 3, by decide, by decide, by decide, by decide⟩, ⟨onPort { absent := true }, 3, by decide, by decide,
      by decide⟩, ⟨onPort { link := 2 }, 3, openFlit 0 77, by decide, (⟨lcrc_stamp _, rfl, by decide⟩), by decide, by decide, by decide⟩,
      ⟨{ onPort { link := 2 } with chip := { (onPort { link := 2 }).chip with mem := { bytes := [(0x40004D, 133)] }, fab := { ports := [(3, { link := 2 }), (5, { link := 2 })], routes := 0x400000 } } },
      3, 5, openFlit 1 77, by decide, (⟨lcrc_stamp _, rfl, by decide⟩), by decide, by decide, by decide, by decide, by decide⟩, ⟨onPort { link := 2 },
      3, 15, by decide, by decide, by decide, by decide⟩, ⟨onPort { link := 2, waiting := [{ cls := .manager, flit := openFlit 4 77, since := 5 }] },
      3, 2, by decide, by decide, by decide, _, [], [], rfl, by decide, by decide, by decide, by decide, by decide⟩⟩

/-! ### Collectives -/

/-- An open step 6 with its deadline at 5,100. -/
def openRun : OpenStep := { step := 6, deadline := 5100, segs := [{}], minCount := none }
def opOf (r : OpenStep) (d : Tbl Deferred) : CollOp := { opSend with cur := some r, deferred := d, queue := [] }
/-- Group 2 alone, at an instant, with the 8 bytes at 0x5000. -/
def collState (g : Group) (ns ready : Nat) : State :=
  let s := stateG coreG {} {}
  { s with
    chip := { s.chip with coll := { groups := [(2, g)] }, mem := { s.chip.mem with bytes := s.chip.mem.bytes.writeLe 0x400000 8 ready } }
    time := { ht := BitVec.ofNat 70 (64 * ns), st := .locked, src := .pps } }
def unitsOf (res : Bool) : List ChunkUnit := (recvUnits (groupC opSend) (opOf openRun []) false 0).filter (fun u => u.res == res)
def gathered : OpenStep := { openRun with passedH := true, got := unitsOf false ++ unitsOf true }
def exactC (op : CollOp) : Group := { groupC op with exact := true, limit := 3 }
def lateD (drop : Bool) : Tbl Deferred := [(0, { step := 5, drop := drop })]
def channelState (ack : Bool) : State :=
  let s := collState (groupC { opSend with queue := [] }) 5000 0
  { s with chip := { s.chip with coll := { s.chip.coll with channels := [(2, { inbox := [(5, ack)], unacked := [⟨5, 0, [dataFlit], 0⟩] })] } } }

theorem test_hyps_SealedChannels :
    (∃ (s : State) (g : GroupId) (chunk : BitVec 32) (ch : Channel) (grp : Group) (op : CollOp) (o : OutChunk),
        tblFind s.chip.coll.channels g.toNat = some ch ∧ s.chip.group g = some grp ∧ grp.op = some op ∧ (ch.inbox = [(chunk,
        false)]) ∧ ch.unacked = [o] ∧ o.number = chunk) ∧
    (∃ (s : State) (g : GroupId) (chunk : BitVec 32) (ch : Channel) (grp : Group) (op : CollOp) (o : OutChunk),
        tblFind s.chip.coll.channels g.toNat = some ch ∧ s.chip.group g = some grp ∧ grp.op = some op ∧ (ch.inbox = [(chunk,
        true)]) ∧ ch.unacked = [o] ∧ o.number = chunk) :=
  ⟨⟨channelState false, 2, 5, _, _, _, _, rfl, rfl, rfl, by decide, rfl, by decide⟩, ⟨channelState true, 2, 5, _, _, _, _, rfl, rfl, rfl, by decide,
      rfl, by decide⟩⟩

theorem test_hyps_StepInstants :
    (∃ (s : State) (g : GroupId) (grp : Group) (op : CollOp) (run : OpenStep), Open s g grp op run ∧ run.ended = false ∧ 
    let ns := s.time.ht.toNat / 64
    ∃ (seg r : _), grp.exact = false ∧ op.kind ≤ 2 ∧ op.direct = false ∧ op.segs = [seg] ∧ run.segs = [r] ∧ r.settled = false ∧ r.taken = false ∧ r.late = false ∧ r.vals = none ∧ run.held = [] ∧ op.deferred = [] ∧ Quiet s grp op run ∧ run.passedH = false ∧ run.deadline - op.margin ≤ ns) ∧
    (∃ (s : State) (g : GroupId) (grp : Group) (op : CollOp) (run : OpenStep), Open s g grp op run ∧ run.ended = false ∧ 
    let ns := s.time.ht.toNat / 64
    grp.exact = false ∧ op.kind ≠ 7 ∧ Quiet s grp op run ∧ run.passedH = true ∧ AllGot s g grp op run false ∧ run.deadline ≤ ns ∧ run.passedD = false) ∧
    (∃ (s : State) (g : GroupId) (grp : Group) (op : CollOp) (run : OpenStep), Open s g grp op run ∧ run.ended = false ∧ 
    let ns := s.time.ht.toNat / 64
    grp.exact = false ∧ op.kind ≠ 7 ∧ Quiet s grp op run ∧ run.passedH = true ∧ run.passedD = true ∧ AllGot s g grp op run true ∧ run.deadline + op.margin ≤ ns ∧ run.passedX = false) ∧
    (∃ (s : State) (g : GroupId) (grp : Group) (op : CollOp) (run : OpenStep), Open s g grp op run ∧ run.ended = false ∧ 
    let ns := s.time.ht.toNat / 64
    ∃ (seg r : _), grp.exact = true ∧ op.kind ≠ 7 ∧ op.segs = [seg] ∧ run.segs = [r] ∧ r.done = false ∧ (run.deadline + 1000 * (if grp.limit = 0 then 1000000 else grp.limit) ≤ ns)) ∧
    (∃ (s : State) (g : GroupId) (grp : Group) (op : CollOp) (run : OpenStep), Open s g grp op run ∧ run.ended = false ∧ (∀ r ∈ run.segs,
        r.done = true) ∧ s.chip.coll.heldPreempts = []) :=
  ⟨⟨collState (groupC (opOf openRun [])) 5000 0, 2, _, _, _, (⟨rfl, rfl, rfl⟩), by decide, _, _, by decide, by decide, by decide, rfl, rfl, by decide,
      by decide, by decide, by decide, by decide, by decide, (⟨by decide, by decide,
      by intro i h h'; match i with | 0 => exact .inr (.inr (by decide +revert)) | n + 1 => exact absurd h (by simp [opOf, opSend])⟩), by decide,
      by decide⟩, ⟨collState (groupC (opOf gathered [])) 5100 0, 2, _, _, _, (⟨rfl, rfl, rfl⟩), by decide, by decide, by decide, (⟨by decide,
      by decide, by intro i h h'; match i with | 0 => exact .inr (.inr (by decide +revert)) | n + 1 => exact absurd h (by simp [opOf, opSend])⟩),
      by decide, by decide, by decide, by decide⟩, ⟨collState (groupC (opOf { gathered with passedD := true } [])) 5200 0, 2, _, _, _, (⟨rfl, rfl,
      rfl⟩), by decide, by decide, by decide, (⟨by decide, by decide,
      by intro i h h'; match i with | 0 => exact .inr (.inr (by decide +revert)) | n + 1 => exact absurd h (by simp [opOf, opSend])⟩), by decide,
      by decide, by decide, by decide, by decide⟩, ⟨collState (exactC (opOf openRun [])) (5100 + 3000) 0, 2, _, _, _, (⟨rfl, rfl, rfl⟩), by decide, _,
      _, by decide, by decide, rfl, rfl, by decide, by decide⟩, ⟨collState (groupC (opOf { gathered with segs := [{ done := true }] } [])) 5200 0, 2,
      _, _, _, (⟨rfl, rfl, rfl⟩), by decide, by decide, by decide⟩⟩

/-- Tenant 1 with the norm records from 4 on, `n` of them, and a non-finite value counted in record 4. -/
def tagged (n : Nat) (s : State) : State :=
  { s with chip := { s.chip with
    tenants := [(1, { tenant1 with normCount := BitVec.ofNat _ n })]
    mem := { s.chip.mem with bytes := s.chip.mem.bytes.writeLe (7 * 2 ^ 22 + 64 * 4 + 16) 8 1 } } }

theorem test_hyps_LateContributions :
    (∃ (s : State) (g : GroupId) (seg : BitVec 12) (grp : Group) (op : CollOp) (d : Deferred), 
    let sg := op.seg seg.toNat
    s.chip.group g = some grp ∧ grp.op = some op ∧ tblFind op.deferred seg.toNat = some d ∧ d.vals = none ∧ s.chip.vreadLe grp.tenant sg.control 4 = d.step.toNat % 2 ^ 32 ∧ d.drop = true) ∧
    (∃ (s : State) (g : GroupId) (seg : BitVec 12) (grp : Group) (op : CollOp) (d : Deferred), 
    let sg := op.seg seg.toNat
    s.chip.group g = some grp ∧ grp.op = some op ∧ tblFind op.deferred seg.toNat = some d ∧ d.vals = none ∧ s.chip.vreadLe grp.tenant sg.control 4 = d.step.toNat % 2 ^ 32 ∧ 
    let taken := s.chip.vwrite grp.tenant (sg.control + 4) (leBytes 4 d.step.toNat)
    d.drop = false ∧ op.direct = false ∧ (taken.localNonFinite g grp).1 = false) :=
  ⟨⟨collState (groupC (opOf openRun (lateD true))) 5000 5, 2, 0, _, _, _, rfl, rfl, rfl, by decide, by decide, by decide⟩,
      ⟨tagged 0 (collState (groupC (opOf openRun (lateD false))) 5000 5), 2, 0, _, _, _, rfl, rfl, rfl, by decide, by decide, by decide, by decide,
      by decide⟩⟩

/-- Which tags belong to a group's local gradients is free (log 24): where tag 4 is one of group 2's, the chip finds the non-finite value. -/
theorem test_hyps_LateContributionsWithheld (h : Config.localGradTag 2 4 = true) :
    ∃ (s : State) (grp : Group) (op : CollOp) (d : Deferred), s.chip.group 2 = some grp ∧ grp.op = some op ∧
      tblFind op.deferred (0 : BitVec 12).toNat = some d ∧ d.vals = none ∧
      let sg := op.seg (0 : BitVec 12).toNat
      s.chip.vreadLe grp.tenant sg.control 4 = d.step.toNat % 2 ^ 32 ∧
      let taken := s.chip.vwrite grp.tenant (sg.control + 4) (leBytes 4 d.step.toNat)
      d.drop = false ∧ op.operator ≤ 1 ∧ (taken.localNonFinite 2 grp).1 = true := by
  refine ⟨tagged 1 (collState (groupC (opOf openRun (lateD false))) 5000 5), _, _, _, rfl, rfl, rfl, by decide, by decide, by decide, by decide, ?_⟩
  have e : ([4] : List Nat).filter (Config.localGradTag 2) = [4] := by rw [List.filter_cons_of_pos h]; rfl
  show ((let g := Chip.guardSums _ (([4] : List Nat).filter (Config.localGradTag 2)); (g.nonfinite != 0 || g.sat)) = true)
  rw [e]; decide +kernel

/-! ### The eyespot, registers and application cores -/

def stampOf (src : Byte) (t : Nat) : Stamp := { time := t, source := src, e := 5, state := 3, data := 9 }
def eyeOf (u : Eye) (p : EyePin) : State :=
  { chip := { eye := { units := [{}, u], pins := [{}, p, {}, {}] } }, time := { ht := 320000 } }
def ringOf (on : Bool) : State :=
  { chip := { cmd := { rings := [(17, { enabled := on, clog := 4, cbase := 8, tail := 3, head := 1, rtail := 2, rhead := 5 })] } } }

theorem test_hyps_Eyespot :
    (∃ (s : State) (d : DieId) (u : Eye) (st : Stamp) (rest : List Stamp),
        s.chip.eye.units[d.toNat]? = some u ∧ u.queue = st :: rest ∧ u.buf.length < 65536 ∧ u.mode ≠ 2 ∧ (u.trigEn = false ∨ u.tsrc ≠ st.source.toNat) ∧ u.freeze = BitVec.allOnes 64) ∧
    (∃ (s : State) (d : DieId) (u : Eye) (st : Stamp) (rest : List Stamp),
        s.chip.eye.units[d.toNat]? = some u ∧ u.queue = st :: rest ∧ u.buf.length < 65536 ∧ u.mode ≠ 2 ∧ u.trigEn = true ∧ u.fired = false ∧ u.tsrc = st.source.toNat ∧ u.tsrc ≤ 67 ∧ u.frozen = false ∧ u.freeze = BitVec.allOnes 64 ∧ u.buf = [] ∧ st.time / 64 + u.post * 256 + 64 < 2 ^ 64) ∧
    (∃ (s : State) (d : DieId) (u : Eye), 
    let now := s.time.ht.toNat
    s.chip.eye.units[d.toNat]? = some u ∧ u.freeze ≠ BitVec.allOnes 64 ∧ u.frozen = false ∧ 64 * u.freeze.toNat < now) ∧
    (∃ (s : State) (d : DieId) (u : Eye) (pin : BitVec 2) (rising : Bool) (p : EyePin),
        s.chip.eye.units[d.toNat]? = some u ∧ s.chip.eye.pins[pin.toNat]? = some p ∧ p.enable.getLsbD 0 = true ∧ (p.polarity = (if rising then 0 else 1)) ∧ u.ctl.getLsbD 0 = true ∧ u.frozen = false ∧ u.stopped = false ∧ u.queue = [] ∧ u.gap = false ∧ p.last = none) ∧
    (∃ (s : State) (d : DieId) (u : Eye) (pin : BitVec 2) (rising : Bool) (p : EyePin), 
    let now := s.time.ht.toNat
    s.chip.eye.units[d.toNat]? = some u ∧ s.chip.eye.pins[pin.toNat]? = some p ∧ p.enable.getLsbD 0 = true ∧ (p.polarity = (if rising then 0 else 1)) ∧ u.ctl.getLsbD 0 = true ∧ u.frozen = false ∧ u.stopped = false ∧ u.queue = [] ∧ u.gap = false ∧ ∃ (t0 : _), p.last = some t0 ∧ now < t0 + 128) :=
  ⟨⟨eyeOf { ctl := 1, queue := [stampOf 67 1000, stampOf 4 2000] } {}, 1, _, _, _, rfl, rfl, by decide, by decide, by decide, by decide⟩,
      ⟨eyeOf { ctl := BitVec.ofNat 64 (65 + 67 * 128), queue := [stampOf 67 1000, stampOf 4 2000] } {}, 1, _, _, _, rfl, rfl, by decide, by decide,
      by decide, by decide, by decide, by decide, by decide, by decide, by decide, by decide⟩, ⟨eyeOf { ctl := 1, freeze := 4999 } {}, 1, _, rfl,
      by decide, by decide, by decide⟩, ⟨eyeOf { ctl := 1 } { enable := 1 }, 1, _, 1, true, _, rfl, rfl, by decide, by decide, by decide, by decide,
      by decide, by decide, by decide, by decide⟩, ⟨eyeOf { ctl := 1 } { enable := 1, polarity := 1, last := some (320000 - 127) }, 1, _, 1, false, _,
      rfl, rfl, by decide, by decide, by decide, by decide, by decide, by decide, by decide, _, rfl, by decide⟩⟩

theorem test_hyps_RingRegisters :
    (∃ (s : State) (m : Master) (n : RingId), OwnerRights s m ∧ n.toNat < 4112 ∧ 
    let r := s.chip.ring n
    r.enabled = false) ∧
    (∃ (s : State) (m : Master) (n : RingId), OwnerRights s m ∧ n.toNat < 4112 ∧ 
    let r := s.chip.ring n
    r.enabled = true) ∧
    (∃ (s : State) (m : Master) (n : RingId) (v : BitVec 64), OwnerRights s m ∧ n.toNat < 4112 ∧ 
    let r := s.chip.ring n
    ∃ (base : BitVec 44) (log : BitVec 4) (hi : BitVec 12), v = hi ++ base ++ 0#3 ++ log ++ 1#1 ∧ 4 ≤ log.toNat ∧ log.toNat ≤ 12 ∧ r.enabled = false) ∧
    (∃ (s : State) (m : Master) (n : RingId), OwnerRights s m ∧ n.toNat < 4112 ∧ 
    let r := s.chip.ring n
    r.unsent = [] ∧ s.chip.cmd.queue = []) :=
  ⟨⟨ringOf false, .manager, 17, rfl, by decide, by decide⟩, ⟨ringOf true, .manager, 17, rfl, by decide, by decide⟩, ⟨ringOf false, .manager, 17,
      0xFFF0000000000019, rfl, by decide, 0, 12, 0xFFF, by decide, by decide, by decide, by decide⟩, ⟨ringOf true, .manager, 17, rfl, by decide,
      by decide, by decide⟩⟩

theorem test_hyps_Registers :
    (∃ (s : State) (m : Master), 
    (∃ (v : BitVec 64), OwnerRights s m ∧ ∃ (c : HtCfg) (gap : BitVec 17),
        v = c.hold ++ c.rootBound ++ c.domain ++ c.secondary ++ c.primary ++ gap ++ BitVec.ofBool c.secEn ++ BitVec.ofBool c.priEn ++ BitVec.ofBool c.root ∧ 127 < c.domain.toNat) ∧
    (∃ (v : BitVec 64), OwnerRights s m ∧ ∃ (c : HtCfg) (gap : BitVec 17),
        v = c.hold ++ c.rootBound ++ c.domain ++ c.secondary ++ c.primary ++ gap ++ BitVec.ofBool c.secEn ++ BitVec.ofBool c.priEn ++ BitVec.ofBool c.root ∧ 
    let now := s.htRegs.cfg
    let same : Prop := c.root = now.root ∧ c.primary = now.primary ∧ c.secondary = now.secondary ∧ c.priEn = now.priEn ∧ c.secEn = now.secEn
    c.domain.toNat ≤ 127 ∧ same) ∧
    (∃ (v : BitVec 64), OwnerRights s m ∧ ∃ (c : HtCfg) (gap : BitVec 17),
        v = c.hold ++ c.rootBound ++ c.domain ++ c.secondary ++ c.primary ++ gap ++ BitVec.ofBool c.secEn ++ BitVec.ofBool c.priEn ++ BitVec.ofBool c.root ∧ 
    let now := s.htRegs.cfg
    let same : Prop := c.root = now.root ∧ c.primary = now.primary ∧ c.secondary = now.secondary ∧ c.priEn = now.priEn ∧ c.secEn = now.secEn
    c.domain.toNat ≤ 127 ∧ ¬same)) ∧
    (∃ (s : State) (m : Master) (v : BitVec 64), OwnerRights s m ∧ ∃ (d : DieId) (u : Eye),
        s.chip.eye.units[d.toNat]? = some u ∧ u.ctl.getLsbD 0 = true ∧ u.frozen = false ∧ u.stopped = false ∧ u.queue = [] ∧ u.gap = false ∧ u.src.getLsbD (48 + v.toNat / 2 ^ 32 % 16) = true) ∧
    (∃ (s : State) (m : Master), OwnerRights s m ∧ s.chip.power.okOf (!s.chip.power.active) = false) :=
  ⟨⟨State.reset, .manager, ⟨_, rfl, { domain := 128 }, 0, rfl, by decide⟩, ⟨(_), rfl, { rootBound := 0 }, 0, rfl, by decide, by decide⟩, ⟨((_)), rfl,
      { rootBound := 0, root := true }, 0, rfl, by decide, by decide⟩⟩, ⟨eyeOf { ctl := 1, src := BitVec.allOnes 64 } {}, .manager, 0xF00000000, rfl,
      1, _, rfl, by decide, by decide, by decide, by decide, by decide, by decide⟩, ⟨{ chip := { power := { aOk := true } } }, .manager, rfl,
      by decide⟩⟩

theorem test_hyps_ApplicationCores :
    (∃ (s : State) (a : AppId), 
    (∃ (addr : BitVec 52) (log2 : BitVec 2), 
    let p := addr.toNat
    let n := 2 ^ log2.toNat
    PlainAccess s a p n ∧ p % n = 0) ∧
    (∃ (addr : BitVec 52) (wide : Bool), 
    let p := addr.toNat
    let w := if wide then 8 else 4
    PlainAccess s a p w ∧ p % w = 0)) ∧
    (∃ (s : State) (a : AppId) (addr : BitVec 52) (t0 : TenantId), Chip.appTenant s.chip a = some t0 ∧ addr = 0x8000000800000) :=
  ⟨⟨State.reset, 3, ⟨0xFF8, 3, by decide, by decide⟩, ⟨0xFFC, false, by decide, by decide⟩⟩,
      ⟨{ chip := { tenants := [(1, { tenant1 with apps := [3] })] } }, 3, 0x8000000800000, _, rfl, by decide⟩⟩

/-! ### Power, start and reset -/

def powerState (p : Power) : State := { chip := { power := p }, now := 1000000000 }
def sectorState (x : Sector) : State := powerState { sectors := [(1, x)], limitEn := true, limit := 1000 }
def sysAt (ended : BitVec 8) : State := { chip := { sys := { ended := ended }, power := { aOk := true } } }

theorem test_hyps_SupplyInputs :
    (∃ (s : State), 
    let p := s.chip.power
    (p.aOk = true) ∧
    (p.bOk = true)) ∧
    (∃ (s : State), 
    let p := s.chip.power
    p.active = false ∧ p.bOk = true ∧ (p.aOk = false ∨ p.pref = true)) ∧
    (∃ (s : State), 
    let p := s.chip.power
    p.active = true ∧ p.aOk = true ∧ (p.bOk = false ∨ p.pref = false)) ∧
    (∃ (s : State), 
    let p := s.chip.power
    p.active = false ∧ p.aOk = true ∧ (p.pref = false ∨ p.bOk = false)) :=
  ⟨⟨powerState { aOk := true, bOk := true }, by decide, by decide⟩, ⟨powerState { bOk := true }, by decide, by decide, by decide⟩,
      ⟨powerState { aOk := true, active := true }, by decide, by decide, by decide⟩, ⟨powerState { aOk := true, bOk := true }, by decide, by decide,
      by decide⟩⟩

theorem test_hyps_FullResets :
    (∃ (s : State) (t0 : _), s.chip.power.noneSince = some t0 ∧ t0 + 1280000 ≤ s.now) ∧
    (∃ (s : State) (t0 : _), s.chip.power.noneSince = some t0 ∧ s.now < t0 + 1280000) ∧
    (∃ (s : State), 
    (∃ (tj : Byte), s.chip.sys.tripped = true ∧ tj.toNat < 95) ∧
    (∃ (tj : Byte), s.chip.sys.tripped = true ∧ 95 ≤ tj.toNat)) ∧
    (∃ (s : State), 
    (s.chip.sys.tripped = false) ∧
    (∃ (tj : Byte), tj ≠ 0xC5)) :=
  ⟨⟨powerState { noneSince := some (1000000000 - 1280000) }, _, rfl, by decide⟩, ⟨powerState { noneSince := some (1000000000 - 1279999) }, _, rfl,
      by decide⟩, ⟨{ chip := { sys := { tripped := true } } }, ⟨94, by decide, by decide⟩, ⟨95, by decide, by decide⟩⟩, ⟨State.reset, by decide,
      ⟨0xC4, by decide⟩⟩⟩

theorem test_hyps_ThermalTrip :
    (∃ (tj : Byte), 125 ≤ tj.toNat) ∧
    (∃ (tj : Byte), tj.toNat < 125) :=
  ⟨⟨125, by decide⟩, ⟨124, by decide⟩⟩

theorem test_hyps_Throttling :
    (∃ (s : State) (n : SectorId), 
    let x := s.chip.sector n
    x.exact = false) ∧
    (∃ (s : State) (n : SectorId), 
    let x := s.chip.sector n
    x.exact = true) ∧
    (∃ (s : State) (n : SectorId), 
    let x := s.chip.sector n
    let job : Prop := x.exact = false
    job ∧ x.droop ≠ 0 ∧ x.droopAt + 6400 ≤ s.now) ∧
    (∃ (s : State) (n : SectorId), 
    let x := s.chip.sector n
    let job : Prop := x.exact = false
    job ∧ x.thermalAt + 640000 ≤ s.now) ∧
    (∃ (s : State) (n : SectorId), 
    let x := s.chip.sector n
    let p := s.chip.power
    let job : Prop := x.exact = false
    job ∧ (p.sectors = [(n.toNat, x)]) ∧ p.powerAt + 64000 ≤ s.now ∧ x.st = .running ∧ p.limitEn = true) :=
  ⟨⟨sectorState { st := .running }, 1, by decide⟩, ⟨sectorState { exact := true }, 1, by decide⟩,
      ⟨sectorState { st := .running, droop := 16, droopAt := 1000000000 - 6400 }, 1, by decide, by decide, by decide⟩,
      ⟨sectorState { st := .running, thermalAt := 1000000000 - 640000 }, 1, by decide, by decide⟩, ⟨sectorState { st := .running }, 1, by decide,
      by decide, by decide, by decide, by decide⟩⟩

theorem idle_cluster : ClusterIdle (stateG idleG {} {}) 0x40 := by
  refine ⟨fun i _ => ?_, rfl, wakes_none (fun i => ?_) (fun cl => ?_) 0x40⟩
  · rcases core_cases (s := stateG idleG {} {}) idleG rfl i with e | e <;> (rw [e]; rfl)
  · rcases core_cases (s := stateG idleG {} {}) idleG rfl i with e | e <;> (unfold Chip.wakesCore; rw [e]; rfl)
  · unfold Chip.cluster tblGet stateG chipG tblFind tblFind; split <;> exact ⟨rfl, rfl⟩

theorem sector_sleeps (x : Sector) : ¬(clustersOfSector 1).any ((sectorState x).chip.wakesCluster (sectorState x).env) = true := by
  rw [List.any_eq_false.mpr (fun cl _ => by rw [wakes_none (fun _ => rfl) (fun _ => ⟨rfl, rfl⟩) cl]; decide)]; decide

theorem test_hyps_GatingAndSleep :
    (∃ (s : State) (cl : ClusterId), 
    let x := s.chip.cluster cl
    x.gated = false ∧ ClusterIdle s cl) ∧
    (∃ (s : State) (cl : ClusterId), s.chip.wakesCluster s.env cl = true) ∧
    (∃ (s : State) (cl : ClusterId), 
    let x := s.chip.cluster cl
    x.gated = true ∧ (s.chip.sector (clusterSector cl)).st = .running ∧ s.chip.wakesCluster s.env cl = true) ∧
    (∃ (s : State) (n : SectorId), 
    let y := s.chip.sector n
    let wanted : Prop := (clustersOfSector n).any (s.chip.wakesCluster s.env) = true
    ∃ (t0 : _), y.gatedSince = some t0 ∧ y.st = .running ∧ t0 + 64000 * s.chip.power.sleepDelay.toNat ≤ s.now ∧ ¬wanted) ∧
    (∃ (s : State) (n : SectorId), 
    let y := s.chip.sector n
    let wanted : Prop := (clustersOfSector n).any (s.chip.wakesCluster s.env) = true
    y.st = .asleep ∧ wanted) ∧
    (∃ (s : State) (n : SectorId), 
    let y := s.chip.sector n
    y.st = .waking ∧ y.exact = false) :=
  ⟨⟨stateG idleG {} {}, 0x40, by decide, idle_cluster⟩, ⟨stateG coreG {} {}, 0x40, by decide⟩, ⟨stateG coreG { gated := true } {}, 0x40, by decide,
      by decide, by decide⟩, ⟨sectorState { st := .running, gatedSince := some 0 }, 1, _, rfl, by decide, by decide, (sector_sleeps _)⟩,
      ⟨{ stateG coreG {} {} with chip := { chipG coreG {} {} with power := { sectors := [(1, { st := .asleep })] } } }, 1, by decide, by decide⟩,
      ⟨sectorState { st := .waking }, 1, by decide, by decide⟩⟩

theorem test_hyps_StartUp :
    (∃ (s : State), 
    let c := s.chip
    let y := c.sys
    y.ended = 0 ∧ y.bootFail = false ∧ y.tripped = false ∧ y.failQuiet = false ∧ ∃ (n : _), 0 < n ∧ n < 8) ∧
    (∃ (s : State), 
    let c := s.chip
    let y := c.sys
    y.tripped = true) ∧
    (∃ (s : State), 
    let c := s.chip
    let y := c.sys
    y.ended = 0xFE ∧ y.bootFail = false) ∧
    (∃ (s : State), 
    let c := s.chip
    let y := c.sys
    y.ended = 0xFF ∧ y.bootFail = false) ∧
    (∃ (s : State), 
    let c := s.chip
    let y := c.sys
    let open' (n : Nat) : Prop := y.stageOpen n = true
    open' 0 ∧ c.power.aOk = true) ∧
    (∃ (s : State), 
    let c := s.chip
    let y := c.sys
    let open' (n : Nat) : Prop := y.stageOpen n = true
    open' 1) ∧
    (∃ (s : State), 
    let c := s.chip
    let y := c.sys
    let open' (n : Nat) : Prop := y.stageOpen n = true
    open' 2) ∧
    (∃ (s : State), 
    let c := s.chip
    let y := c.sys
    let open' (n : Nat) : Prop := y.stageOpen n = true
    open' 3) ∧
    (∃ (s : State), 
    let c := s.chip
    let y := c.sys
    let open' (n : Nat) : Prop := y.stageOpen n = true
    open' 4) ∧
    (∃ (s : State), 
    let c := s.chip
    let y := c.sys
    let open' (n : Nat) : Prop := y.stageOpen n = true
    open' 5) ∧
    (∃ (s : State), 
    let c := s.chip
    let y := c.sys
    let open' (n : Nat) : Prop := y.stageOpen n = true
    open' 6) ∧
    (∃ (s : State), 
    let c := s.chip
    let y := c.sys
    let open' (n : Nat) : Prop := y.stageOpen n = true
    open' 7) ∧
    (∃ (s : State), 
    let c := s.chip
    let y := c.sys
    y.stageOpen 3 = false) :=
  ⟨⟨{ chip := {} }, by decide, by decide, by decide, by decide, 7, by decide, by decide⟩, ⟨{ chip := { sys := { tripped := true } } }, by decide⟩,
      ⟨sysAt 0xFE, by decide, by decide⟩, ⟨sysAt 0xFF, by decide, by decide⟩, ⟨sysAt 0, by decide, by decide⟩, ⟨sysAt 1, by decide⟩, ⟨sysAt 3,
      by decide⟩, ⟨sysAt 7, by decide⟩, ⟨sysAt 0xF, by decide⟩, ⟨sysAt 0x1F, by decide⟩, ⟨sysAt 0x3F, by decide⟩, ⟨sysAt 0x7F, by decide⟩, ⟨sysAt 0,
      by decide⟩⟩

theorem test_hyps_Pins :
    (∃ (s : State), 
    let y := s.chip.sys
    y.ready = true) ∧
    (∃ (s : State), 
    let y := s.chip.sys
    y.ready = false) :=
  ⟨⟨sysAt 0xFF, by decide⟩, ⟨sysAt 0, by decide⟩⟩

/-! ### Moults, mode changes, digests and chrysalises -/

/-- A weight of two by four blocks with one live block and two candidates, at 0x5000, with its records. -/
def moultMem : Memory :=
  memOf [(0x400004, leBytes 2 1), (0x400008, leBytes 4 2 ++ leBytes 4 4 ++ leBytes 4 1), (0x400028, leBytes 8 0x5080),
    (0x400080, leBytes 4 (1 + 5 * 2 ^ 20)), (0x400108, leBytes 4 2), (0x400128, leBytes 8 0x5300), (0x400300, leBytes 8 2),
    (0x400308, leBytes 8 (1 + 3 * 2 ^ 32)), (0x400400, leBytes 8 0x3F800000 ++ leBytes 8 0x40000000)]
/-- A plan entry for it; bit 3 of its flags is a sieve. -/
def planEntry (flags : Byte) : List Byte :=
  leBytes 8 0x5000 ++ leBytes 8 0x5100 ++ leBytes 8 0x5600 ++ leBytes 8 0x5A00 ++ leBytes 8 0x400 ++ List.replicate 32 0 ++ leBytes 8 0x5400 ++
    leBytes 2 30000 ++ leBytes 2 0 ++ [1, 128, flags, 0] ++ leBytes 4 0x3C000000 ++ leBytes 4 4 ++ leBytes 2 7 ++ List.replicate 30 0
def planOf (flags : Byte) : Plan := { addr := 0, space := none, group := 2, sumExp := 0, word := 0x5F00, layers := [planEntry flags] }
def moultOf : Moult := { start := 4000, deadline := 5000, commit := 6000 }
def layer0 : LayerRun := { index := 0 }
/-- Job 4 with a plan and a moult, sequencer 0 in a phase with its layer `r`, at an instant. -/
def moultState (ns : Nat) (p : Plan) (m : Moult) (q : Sequencer) : State :=
  let s := stateG idleG {} {}
  { s with
    chip := { s.chip with
      jobs := [(4, { jobI with plan := some p, moult := some m })]
      seqs := q :: List.replicate 7 {}
      mem := { s.chip.mem with bytes := moultMem } }
    time := { ht := BitVec.ofNat 70 (64 * ns), st := .locked, src := .pps } }
def inPhase (n : Nat) (r : LayerRun) : Sequencer := { job := 4, running := true, phase := BitVec.ofNat 4 n, layers := [r] }
def jobMoult (p : Plan) (m : Moult) : Job := { jobI with plan := some p, moult := some m }
/-- What other chips add: one contribution of a count of 1, with the chip's own check words. -/
def peerOf (words : List W64) (count : Nat) : PeerLanes :=
  { scores := List.replicate 2 { x := 5, pos := false, neg := false, nan := false, count := BitVec.ofNat 32 count }, keys := [], checkMin := words, checkMax := words }
def ownWords : List W64 := (moultState 4000 (planOf 8) moultOf {}).chip.checkWords 1 0 ((moultState 4000 (planOf 8) moultOf {}).chip.tensorAt 1 0x5000) []

theorem test_hyps_MoultStart :
    (∃ (s : State) (h : JobId) (j : Job) (m : Moult) (p : Plan), Moulting s h j m p ∧ s.time.ht.toNat / 64 < m.start.toNat) ∧
    (∃ (s : State) (d : DieId) (h : JobId) (j : Job) (m : Moult) (p : Plan), Moulting s h j m p ∧ m.begun.contains d.toNat = true) ∧
    (∃ (s : State) (d : DieId) (h : JobId) (j : Job) (m : Moult) (p : Plan) (q : Sequencer), Moulting s h j m p ∧ 
    let ls := s.chip.dieLayers j.tenant p d.toNat
    m.start.toNat ≤ s.time.ht.toNat / 64 ∧ ls ≠ [] ∧ m.vote = none ∧ m.begun.contains d.toNat = false ∧ s.chip.seqs[d.toNat]? = some q ∧ q.running = false ∧ s.chip.updating h d.toNat = false ∧ s.chip.moultAhead d.toNat h.toNat m.start.toNat = false) :=
  ⟨⟨moultState 3999 (planOf 8) moultOf {}, 4, jobMoult (planOf 8) moultOf, moultOf, planOf 8, (⟨rfl, rfl, rfl⟩), by decide +kernel⟩,
      ⟨moultState 5000 (planOf 8) { moultOf with begun := [0] } {}, 0, 4, jobMoult (planOf 8) { moultOf with begun := [0] },
      { moultOf with begun := [0] }, planOf 8, (⟨rfl, rfl, rfl⟩), by decide +kernel⟩, ⟨moultState 4000 (planOf 8) moultOf {}, 0, 4,
      jobMoult (planOf 8) moultOf, moultOf, planOf 8, _, (⟨rfl, rfl, rfl⟩), by decide +kernel, by decide +kernel, by decide +kernel,
      by decide +kernel, rfl, by decide +kernel, by decide +kernel, by decide +kernel⟩⟩

theorem test_hyps_MoultPhases :
    (∃ (s : State) (d : DieId) (x : DieRun), d.toNat < s.chip.seqs.length ∧ s.chip.dieRun d 1 = some x) ∧
    (∃ (s : State) (d : DieId) (x : DieRun), d.toNat < s.chip.seqs.length ∧ s.chip.dieRun d 2 = some x ∧ x.entry.sieved = false) ∧
    (∃ (s : State) (d : DieId) (x : DieRun), d.toNat < s.chip.seqs.length ∧ 
    let t0 := x.job.tenant
    let cands := s.chip.candidates t0 x.entry x.par x.tensor.kb
    s.chip.dieRun d 4 = some x ∧ cands.Nodup) ∧
    (∃ (s : State) (d : DieId) (x : DieRun), d.toNat < s.chip.seqs.length ∧ s.chip.dieRun d 5 = some x) ∧
    (∃ (s : State) (d : DieId) (x : DieRun), d.toNat < s.chip.seqs.length ∧ s.chip.dieRun d 6 = some x) ∧
    (∃ (s : State) (d : DieId) (x : DieRun), d.toNat < s.chip.seqs.length ∧ s.chip.dieRun d 8 = some x) :=
  ⟨⟨moultState 4000 (planOf 8) moultOf (inPhase 1 layer0), 0, _, by decide +kernel, rfl⟩, ⟨moultState 4000 (planOf 0) moultOf (inPhase 2 layer0), 0,
      _, by decide +kernel, rfl, by decide +kernel⟩, ⟨moultState 4000 (planOf 8) moultOf (inPhase 4 layer0), 0, _, by decide +kernel, rfl,
      by decide +kernel⟩, ⟨moultState 4000 (planOf 8) moultOf (inPhase 5 layer0), 0, _, by decide +kernel, rfl⟩,
      ⟨moultState 4000 (planOf 8) moultOf (inPhase 6 layer0), 0, _, by decide +kernel, rfl⟩, ⟨moultState 4000 (planOf 8) moultOf (inPhase 8 layer0),
      0, _, by decide +kernel, rfl⟩⟩

theorem test_hyps_MoultReduction :
    (∃ (s : State) (h : JobId) (j : Job) (m : Moult) (p : Plan), 
    (∃ (peers : List PeerLanes) (runs : List LayerRun), Moulting s h j m p ∧ 
    let rs := runs.zipIdx.map (fun x => s.chip.reduceLayer j p m peers x.2 x.1)
    m.reduced = false ∧ s.chip.planRuns h p = runs.map some ∧ runs.length = p.layers.length ∧ (∀ r ∈ runs, r.status = 0) ∧ (∀ q ∈ s.chip.seqs,
        q.running = true → q.job = h → q.phase = 3) ∧ (∀ r ∈ rs, r.agree = true ∧ r.count ≠ 0)) ∧
    (∃ (peers : List PeerLanes) (runs : List LayerRun), Moulting s h j m p ∧ 
    let rs := runs.zipIdx.map (fun x => s.chip.reduceLayer j p m peers x.2 x.1)
    m.reduced = false ∧ s.chip.planRuns h p = runs.map some ∧ runs.length = p.layers.length ∧ (∀ r ∈ runs, r.status = 0) ∧ (∀ q ∈ s.chip.seqs,
        q.running = true → q.job = h → q.phase = 3) ∧ ∃ (r rest : _), rs = r :: rest ∧ r.agree = false ∧ Unanswered s)) ∧
    (∃ (s : State) (h : JobId) (j : Job) (m : Moult) (p : Plan) (peers : List PeerLanes) (runs : List LayerRun), Moulting s h j m p ∧ 
    let rs := runs.zipIdx.map (fun x => s.chip.reduceLayer j p m peers x.2 x.1)
    m.reduced = false ∧ s.chip.planRuns h p = runs.map some ∧ runs.length = p.layers.length ∧ (∀ r ∈ runs, r.status = 0) ∧ (∀ q ∈ s.chip.seqs,
        q.running = true → q.job = h → q.phase = 3) ∧ ∃ (r rest : _), rs = r :: rest ∧ r.agree = true ∧ r.count = 0 ∧ (p.layer 0).sieved = true ∧ Unanswered s) :=
  ⟨⟨moultState 4000 (planOf 8) moultOf (inPhase 3 { layer0 with sieve := [⟨0x3F800000, 5⟩, ⟨0x40000000, 0⟩] }), 4, jobMoult (planOf 8) moultOf,
      moultOf, planOf 8, ⟨[peerOf ownWords 1], [{ layer0 with sieve := [⟨0x3F800000, 5⟩, ⟨0x40000000, 0⟩] }], (⟨rfl, rfl, rfl⟩), by decide +kernel,
      by decide +kernel, by decide +kernel, by decide +kernel, by decide +kernel, by decide +kernel⟩, ⟨[peerOf [0, 0, 0, 1] 1],
      [{ layer0 with sieve := [⟨0x3F800000, 5⟩, ⟨0x40000000, 0⟩] }], (⟨rfl, rfl, rfl⟩), by decide +kernel, by decide +kernel, by decide +kernel,
      by decide +kernel, by decide +kernel, _, _, rfl, by decide +kernel, rfl⟩⟩,
      ⟨moultState 4000 (planOf 8) { moultOf with withheld := true } (inPhase 3 { layer0 with sieve := [⟨0x3F800000, 5⟩, ⟨0x40000000, 0⟩] }), 4,
      jobMoult (planOf 8) { moultOf with withheld := true }, { moultOf with withheld := true }, planOf 8, [peerOf ownWords 0],
      [{ layer0 with sieve := [⟨0x3F800000, 5⟩, ⟨0x40000000, 0⟩] }], (⟨rfl, rfl, rfl⟩), by decide +kernel, by decide +kernel, by decide +kernel,
      by decide +kernel, by decide +kernel, _, _, rfl, by decide +kernel, by decide +kernel, by decide +kernel, rfl⟩⟩

theorem test_hyps_MoultVotes :
    (∃ (s : State) (h : JobId) (j : Job) (m : Moult) (p : Plan), Moulting s h j m p ∧ 
    let ns := s.time.ht.toNat / 64
    m.vote = none ∧ ns ≤ m.deadline.toNat ∧ s.chip.moultDone h p = true ∧ s.chip.moultFaults h p = []) ∧
    (∃ (s : State) (h : JobId) (j : Job) (m : Moult) (p : Plan), Moulting s h j m p ∧ 
    let ns := s.time.ht.toNat / 64
    m.vote = none ∧ ns = m.deadline.toNat ∧ s.chip.moultDone h p = false) ∧
    (∃ (s : State) (h : JobId) (j : Job) (m : Moult) (p : Plan), Moulting s h j m p ∧ 
    let ns := s.time.ht.toNat / 64
    m.vote = none ∧ ns < m.deadline.toNat ∧ s.chip.moultDone h p = false ∧ s.chip.moultFaults h p = []) ∧
    (∃ (s : State) (h : JobId) (j : Job) (m : Moult) (p : Plan), 
    (∃ (peers : BitVec 64), Moulting s h j m p ∧ 
    let ns := s.time.ht.toNat / 64
    m.result = none ∧ ns < m.commit.toNat ∧ m.vote = some true ∧ peers ≠ 0) ∧
    (∃ (peers : BitVec 64), Moulting s h j m p ∧ 
    let ns := s.time.ht.toNat / 64
    m.result = none ∧ ns < m.commit.toNat ∧ m.vote = some true ∧ peers = 0 ∧ s.chip.moultFaults h p = [] ∧ Unanswered s)) ∧
    (∃ (s : State) (h : JobId) (j : Job) (m : Moult) (p : Plan), Moulting s h j m p ∧ 
    let ns := s.time.ht.toNat / 64
    m.result = some true ∧ m.commit.toNat ≤ ns ∧ Unanswered s) ∧
    (∃ (s : State) (h : JobId) (j : Job) (m : Moult) (p : Plan), Moulting s h j m p ∧ 
    let ns := s.time.ht.toNat / 64
    m.result = some true ∧ ns < m.commit.toNat) ∧
    (∃ (s : State) (h : JobId) (j : Job) (m : Moult) (p : Plan), Moulting s h j m p ∧ 
    let ns := s.time.ht.toNat / 64
    m.result = none ∧ m.commit.toNat ≤ ns ∧ Unanswered s) :=
  ⟨⟨moultState 5000 (planOf 8) moultOf (inPhase 9 { layer0 with done := true }), 4, jobMoult (planOf 8) moultOf, moultOf, planOf 8, (⟨rfl, rfl, rfl⟩),
      by decide +kernel, by decide +kernel, by decide +kernel, by decide +kernel⟩, ⟨moultState 5000 (planOf 8) moultOf (inPhase 8 layer0), 4,
      jobMoult (planOf 8) moultOf, moultOf, planOf 8, (⟨rfl, rfl, rfl⟩), by decide +kernel, by decide +kernel, by decide +kernel⟩,
      ⟨moultState 4999 (planOf 8) moultOf (inPhase 8 layer0), 4, jobMoult (planOf 8) moultOf, moultOf, planOf 8, (⟨rfl, rfl, rfl⟩), by decide +kernel,
      by decide +kernel, by decide +kernel, by decide +kernel⟩,
      ⟨moultState 5999 (planOf 8) { moultOf with vote := some true } (inPhase 9 { layer0 with done := true }), 4,
      jobMoult (planOf 8) { moultOf with vote := some true }, { moultOf with vote := some true }, planOf 8, ⟨1, (⟨rfl, rfl, rfl⟩), by decide +kernel,
      by decide +kernel, by decide +kernel, by decide +kernel⟩, ⟨0, (⟨rfl, rfl, rfl⟩), by decide +kernel, by decide +kernel, by decide +kernel,
      by decide +kernel, by decide +kernel, rfl⟩⟩,
      ⟨moultState 6000 (planOf 8) { moultOf with vote := some true, result := some true } (inPhase 9 { layer0 with done := true }), 4,
      jobMoult (planOf 8) { moultOf with vote := some true, result := some true }, { moultOf with vote := some true, result := some true }, planOf 8,
      (⟨rfl, rfl, rfl⟩), by decide +kernel, by decide +kernel, rfl⟩,
      ⟨moultState 5999 (planOf 8) { moultOf with vote := some true, result := some true } (inPhase 9 { layer0 with done := true }), 4,
      jobMoult (planOf 8) { moultOf with vote := some true, result := some true }, { moultOf with vote := some true, result := some true }, planOf 8,
      (⟨rfl, rfl, rfl⟩), by decide +kernel, by decide +kernel⟩,
      ⟨moultState 6000 (planOf 8) { moultOf with vote := some true } (inPhase 9 { layer0 with done := true }), 4,
      jobMoult (planOf 8) { moultOf with vote := some true }, { moultOf with vote := some true }, planOf 8, (⟨rfl, rfl, rfl⟩), by decide +kernel,
      by decide +kernel, rfl⟩⟩

def changeOf : ModeChange := { exact := true, f := 16, group := 2, deadline := 5000, commit := 6000, armed := true }
def changeState (ns : Nat) (m : ModeChange) (g : Group) : State :=
  let s := collState g ns 0
  { s with chip := { s.chip with jobs := [(4, { jobI with mode := some m })] } }
def digestState (j : Job) (x : Cluster) (running : Bool) (q : List Pkt) : State :=
  let s := stateG { coreG with running := running, job := some 4 } x {}
  { s with chip := { s.chip with jobs := [(4, j)], cmd := { s.chip.cmd with waiting := q } } }
def digestJob : Job := { jobI with digestBase := 0x5000, digestRecords := 8, seed := 77, step := 5, instar := 3 }
def shipPkt (area : Nat) : Pkt :=
  { ring := 5, index := 0, bytes := leBytes 8 0x0701 ++ List.replicate 32 0 ++ leBytes 8 area ++ List.replicate 100 0, cls := .q1, since := 0 }

theorem test_hyps_ModeChanges :
    (∃ (s : State) (g : GroupId) (h : JobId) (j : Job) (m : ModeChange), Changing s g h j m ∧ 
    let ns := s.time.ht.toNat / 64
    m.vote = none ∧ m.deadline.toNat ≤ ns) ∧
    (∃ (s : State) (g : GroupId) (h : JobId) (j : Job) (m : ModeChange), Changing s g h j m ∧ 
    let ns := s.time.ht.toNat / 64
    ns < m.deadline.toNat) ∧
    (∃ (s : State) (g : GroupId) (h : JobId) (j : Job) (m : ModeChange) (peers : BitVec 64), Changing s g h j m ∧ 
    let ns := s.time.ht.toNat / 64
    m.result = none ∧ ns < m.commit.toNat ∧ m.vote = some true ∧ peers ≠ 0) ∧
    (∃ (s : State) (g : GroupId) (h : JobId) (j : Job) (m : ModeChange) (peers : BitVec 64), Changing s g h j m ∧ 
    let ns := s.time.ht.toNat / 64
    m.result = none ∧ ns < m.commit.toNat ∧ m.vote ≠ none ∧ (m.vote = some false ∨ peers = 0) ∧ Unanswered s) ∧
    (∃ (s : State) (g : GroupId) (h : JobId) (j : Job) (m : ModeChange), Changing s g h j m ∧ 
    let ns := s.time.ht.toNat / 64
    ∃ (x : _), m.result = some true ∧ m.commit.toNat ≤ ns ∧ Unanswered s ∧ s.chip.group g = some x ∧ x.op = none) ∧
    (∃ (s : State) (g : GroupId) (h : JobId) (j : Job) (m : ModeChange), Changing s g h j m ∧ 
    let ns := s.time.ht.toNat / 64
    ∃ (x op run : _), m.result = some true ∧ m.commit.toNat ≤ ns ∧ Unanswered s ∧ s.chip.group g = some x ∧ x.op = some op ∧ op.cur = some run) ∧
    (∃ (s : State) (g : GroupId) (h : JobId) (j : Job) (m : ModeChange), Changing s g h j m ∧ 
    let ns := s.time.ht.toNat / 64
    m.result = none ∧ m.commit.toNat ≤ ns ∧ Unanswered s) ∧
    (∃ (s : State) (g : GroupId) (h : JobId) (j : Job) (m : ModeChange), Changing s g h j m ∧ 
    let ns := s.time.ht.toNat / 64
    ns < m.commit.toNat) :=
  ⟨⟨changeState 5000 changeOf { groupC opSend with op := none }, 2, 4, { jobI with mode := some changeOf }, changeOf, (⟨rfl, rfl, rfl⟩), by decide,
      by decide⟩, ⟨changeState 4999 changeOf { groupC opSend with op := none }, 2, 4, { jobI with mode := some changeOf }, changeOf, (⟨rfl, rfl,
      rfl⟩), by decide⟩, ⟨changeState 5999 { changeOf with vote := some true } { groupC opSend with op := none }, 2, 4,
      { jobI with mode := some { changeOf with vote := some true } }, { changeOf with vote := some true }, 1, (⟨rfl, rfl, rfl⟩), by decide, by decide,
      by decide, by decide⟩, ⟨changeState 5999 { changeOf with vote := some false } { groupC opSend with op := none }, 2, 4,
      { jobI with mode := some { changeOf with vote := some false } }, { changeOf with vote := some false }, 0, (⟨rfl, rfl, rfl⟩), by decide,
      by decide, by decide, by decide, rfl⟩,
      ⟨changeState 6000 { changeOf with vote := some true, result := some true } { groupC opSend with op := none }, 2, 4,
      { jobI with mode := some { changeOf with vote := some true, result := some true } }, { changeOf with vote := some true, result := some true },
      (⟨rfl, rfl, rfl⟩), { groupC opSend with op := none }, by decide, by decide, rfl, rfl, by decide⟩,
      ⟨changeState 6000 { changeOf with vote := some true, result := some true } (groupC (opOf openRun [])), 2, 4,
      { jobI with mode := some { changeOf with vote := some true, result := some true } }, { changeOf with vote := some true, result := some true },
      (⟨rfl, rfl, rfl⟩), groupC (opOf openRun []), _, _, by decide, by decide, rfl, rfl, rfl, rfl⟩,
      ⟨changeState 6000 { changeOf with vote := some true } { groupC opSend with op := none }, 2, 4,
      { jobI with mode := some { changeOf with vote := some true } }, { changeOf with vote := some true }, (⟨rfl, rfl, rfl⟩), by decide, by decide,
      rfl⟩, ⟨changeState 5999 changeOf { groupC opSend with op := none }, 2, 4, { jobI with mode := some changeOf }, changeOf, (⟨rfl, rfl, rfl⟩),
      by decide⟩⟩

theorem test_hyps_DigestsAndChrysalises :
    (∃ (s : State) (h : JobId) (j : Job), s.chip.job h = some j ∧ j.digestRecords = 0) ∧
    (∃ (s : State) (h : JobId) (j : Job), s.chip.job h = some j ∧ ∃ (cl : _), cl ∈ j.clusters ∧ (s.chip.cluster cl).wb ≠ []) ∧
    (∃ (s : State) (h : JobId) (j : Job), s.chip.job h = some j ∧ 
    (j.digestRecords ≠ 0 ∧ (∀ cl ∈ j.clusters, (s.chip.cluster cl).wb = []) ∧ j.step ≠ BitVec.allOnes 48) ∧
    (j.chrysalis = none)) ∧
    (∃ (s : State) (h : JobId) (j : Job), s.chip.job h = some j ∧ ∃ (x : _), j.chrysalis = some x ∧ (∀ id ∈ j.coresIn none,
        (s.chip.core id).running = false) ∧ Unanswered s) ∧
    (∃ (s : State) (h : JobId) (j : Job), s.chip.job h = some j ∧ ∃ (x id : _),
        j.chrysalis = some x ∧ id ∈ j.coresIn none ∧ (s.chip.core id).running = true ∧ (s.chip.core id).job = some h) ∧
    (∃ (s : State) (h : JobId) (j : Job), s.chip.job h = some j ∧ Unanswered s) ∧
    (∃ (s : State) (h : JobId) (j : Job) (area : BitVec 48), s.chip.job h = some j ∧ ∃ (k : _),
        s.chip.cmd.waiting = [k] ∧ k.op = 0x0701 ∧ k.n 40 8 = area.toNat) :=
  ⟨⟨digestState { digestJob with digestRecords := 0 } {} false [], 4, { digestJob with digestRecords := 0 }, rfl, by decide⟩,
      ⟨digestState digestJob { wb := [entryG] } false [], 4, digestJob, rfl, 0x40, by decide, by decide⟩, ⟨digestState digestJob {} false [], 4,
      digestJob, rfl, ⟨by decide, (fun cl _ => all_written {} rfl rfl cl), by decide⟩, by decide⟩,
      ⟨digestState { digestJob with chrysalis := some ⟨0x5000, false, 3, true⟩ } {} false [], 4,
      { digestJob with chrysalis := some ⟨0x5000, false, 3, true⟩ }, rfl, _, rfl,
      (fun i _ => all_idle { coreG with running := false, job := some 4 } rfl rfl i), rfl⟩,
      ⟨digestState { digestJob with chrysalis := some ⟨0x5000, false, 3, true⟩ } {} true [], 4,
      { digestJob with chrysalis := some ⟨0x5000, false, 3, true⟩ }, rfl, _, 0x1003, rfl, (List.mem_flatMap.mpr ⟨0x40, List.mem_flatMap.mpr ⟨16,
      by decide, by decide⟩, by decide⟩), by decide, by decide⟩, ⟨digestState digestJob {} false [], 4, digestJob, rfl, rfl⟩,
      ⟨digestState digestJob {} false [shipPkt 0x5000], 4, digestJob, 0x5000, rfl, _, rfl, by decide, by decide⟩⟩

/-! ### Packets -/

/-- Fields of little-endian bytes put into a list: offset, length, value. -/
def putFields (l : List Byte) (fs : List (Nat × Nat × Nat)) : List Byte :=
  fs.foldl (fun l f => l.take f.1 ++ leBytes f.2.1 f.2.2 ++ l.drop (f.1 + f.2.1)) l
def packetBytes (op : Nat) (fs : List (Nat × Nat × Nat)) : List Byte :=
  putFields (List.replicate 256 0) ([(0, 2, op), (2, 2, 0x4321), (5, 1, 1), (6, 2, 1)] ++ fs)
/-- A packet of tenant 1 that stands at index 9 of ring 5, or of a tenant's ring. -/
def pkt (op : Nat) (fs : List (Nat × Nat × Nat)) : Pkt := { ring := 5, index := 9, bytes := packetBytes op fs, cls := .q1, since := 1000000000 }
def onRing (n : RingId) (k : Pkt) : Pkt := { k with ring := n }
/-- A started chip with its packets waiting in front, job 4 and tenant 1, whose one core is `k`. -/
def queueState (q : List Pkt) (k : Core) (x : Cluster) (f : Chip → Chip) : State :=
  let s := stateG k x {}
  { s with
    chip := f { s.chip with jobs := [(4, jobI)], sys := { ended := 0xFF }, cmd := { s.chip.cmd with queue := q, chip := 3 } }
    time := { ht := 320000, st := .locked } }
def cmdState (k : Pkt) (f : Chip → Chip) : State := queueState [k] idleG {} f
def memAt (l : List (Nat × List Byte)) (c : Chip) : Chip := { c with mem := { c.mem with bytes := memOf l } }
def ref9 : PktRef := ⟨5, 9⟩
def ringR : Ring := { enabled := true, clog := 4, cbase := 0x10000, tail := 3, head := 1, rlog := 4, rbase := 0x20000, rtail := 2, rhead := 5 }
def slotState (n : RingId) (r : Ring) (bs : List Byte) : State :=
  queueState [] idleG {} (fun c => { c with
    mem := { c.mem with bytes := c.mem.bytes.write 0x800100 bs }
    cmd := { c.cmd with rings := [(n.toNat, r)], queue := [] } })
def poisoned (s : State) : State := { s with chip := { s.chip with mem := { s.chip.mem with poison := [0x20004] } } }

theorem slot_readable (n : RingId) (bs : List Byte) (hn : n.toNat < 4112) (h : bs.length = 256) : Readable (slotState n ringR bs) n bs := by
  have r : (slotState n ringR bs).chip.ring n = ringR := by simp [slotState, queueState, Chip.ring, tblGet, tblFind]
  have y : (slotState n ringR bs).chip.sys = { ended := 0xFF } := rfl
  have p : (slotState n ringR bs).chip.mem.poison = [] := rfl
  have v : (slotState n ringR bs).chip.mem.bytes.read 0x800100 bs.length = bs := Memory.read_write_self bs _ _
  rw [h] at v
  show _ ∧ _
  rw [r]
  refine ⟨hn, by decide, by decide, by decide, ?_, ?_, ?_, ?_, rfl, rfl, v⟩
  · unfold Chip.mayRead; rw [y]; decide
  · unfold Chip.mayRead; rw [y]; decide
  · unfold Chip.pairRuns; rw [y]; decide
  · unfold MemState.poisonIn; rw [p]; rfl

/-- A slot with a header and no payload. -/
def slotBytes (op : Nat) (fs : List (Nat × Nat × Nat)) : List Byte :=
  putFields (List.replicate 32 0) ([(0, 2, op), (2, 2, 0x4321), (5, 1, 1), (6, 2, 1)] ++ fs) ++ List.replicate 224 0
theorem rest_zero (bs : List Byte) (h : bs.length = 32) : ∀ i, 32 ≤ i → i < 256 → (bs ++ List.replicate 224 0).getD i 0 = 0 := by
  intro i a b
  rw [List.getD_eq_getElem?_getD, List.getElem?_append_right (by omega), List.getElem?_replicate]
  split <;> rfl
theorem zeros (bs : List Byte) (a b : Nat) (h : ∀ i < b, a ≤ i → bs.getD i 0 = 0) : ∀ i, a ≤ i → i < b → bs.getD i 0 = 0 := fun i l u => h i u l

theorem test_hyps_PacketRead :
    (∃ (s : State) (n : RingId), 
    let r := s.chip.ring n
    (r.enabled = false ∨ r.head = r.tail ∨ 2 ^ r.rlog.toNat ≤ (r.rhead - r.rtail).toNat)) ∧
    (∃ (s : State) (n : RingId) (bs : List Byte), Readable s n bs ∧ GoodHeader bs ∧ (∀ i,
        32 ≤ i → i < 256 → bs.getD i 0 = 0) ∧ fieldLe bs 4 1 = 0 ∧ s.chip.sys.ready = true ∧ s.chip.cmd.queue = [] ∧ (n.toNat < 16 ∨ fieldLe bs 6 2 = n.toNat - 16) ∧ fieldLe bs 0 2 = 0x0000) ∧
    (∃ (s : State) (n : RingId) (bs : List Byte), Readable s n bs ∧ GoodHeader bs ∧ (∀ i,
        32 ≤ i → i < 256 → bs.getD i 0 = 0) ∧ fieldLe bs 4 1 = 0 ∧ s.chip.sys.ready = true ∧ s.chip.cmd.queue = [] ∧ (n.toNat < 16 ∨ fieldLe bs 6 2 = n.toNat - 16) ∧ fieldLe bs 0 2 = 0x0203) ∧
    (∃ (s : State) (n : RingId) (bs : List Byte), Readable s n bs ∧ GoodHeader bs ∧ (∀ i,
        32 ≤ i → i < 256 → bs.getD i 0 = 0) ∧ fieldLe bs 4 1 = 0 ∧ s.chip.sys.ready = true ∧ s.chip.cmd.queue = [] ∧ (n.toNat < 16 ∨ fieldLe bs 6 2 = n.toNat - 16) ∧ fieldLe bs 0 2 = 0x0006 ∧ n.toNat < 16) ∧
    (∃ (s : State) (n : RingId) (bs : List Byte), Readable s n bs ∧ GoodHeader bs ∧ (∀ i,
        32 ≤ i → i < 256 → bs.getD i 0 = 0) ∧ fieldLe bs 4 1 = 0 ∧ s.chip.sys.ready = true ∧ s.chip.cmd.queue = [] ∧ (n.toNat < 16 ∨ fieldLe bs 6 2 = n.toNat - 16) ∧ fieldLe bs 0 2 = 0x0100 ∧ 16 ≤ n.toNat) ∧
    (∃ (s : State) (n : RingId) (bs : List Byte), Readable s n bs ∧ GoodHeader bs ∧ (∀ i,
        32 ≤ i → i < 256 → bs.getD i 0 = 0) ∧ fieldLe bs 4 1 = 0 ∧ s.chip.sys.ready = true ∧ s.chip.cmd.queue = [] ∧ (n.toNat < 16 ∨ fieldLe bs 6 2 = n.toNat - 16) ∧ (fieldLe bs 0 2 / 256 = 0x0C ∨ 0x10 ≤ fieldLe bs 0 2 / 256)) ∧
    (∃ (s : State) (n : RingId) (bs : List Byte), Readable s n bs ∧ fieldLe bs 5 1 ≠ 1) ∧
    (∃ (s : State) (n : RingId), 
    let r := s.chip.ring n
    n.toNat < 4112 ∧ r.enabled = true ∧ r.head ≠ r.tail ∧ (r.rhead - r.rtail).toNat < 2 ^ r.rlog.toNat ∧ s.chip.mayRead .c = true ∧ s.chip.pairRuns = true ∧ s.chip.mem.poisonIn (128 * r.cbase.toNat + 256 * (r.head.toNat % 2 ^ r.clog.toNat)) 256 = true) :=
  ⟨⟨slotState 5 { ringR with rhead := 18 } [], 5, by decide +kernel⟩, ⟨slotState 5 ringR (slotBytes 0x0000 []), 5, slotBytes 0x0000 [],
      (slot_readable _ _ (by decide) (by decide +kernel)), (⟨by decide +kernel, by decide +kernel, by decide +kernel, zeros _ _ _ (by decide +kernel),
      by decide +kernel⟩), (rest_zero _ (by decide)), by decide +kernel, by decide +kernel, by decide +kernel, by decide +kernel, by decide +kernel⟩,
      ⟨slotState 17 ringR (slotBytes 0x0203 []), 17, slotBytes 0x0203 [], (slot_readable _ _ (by decide) (by decide +kernel)), (⟨by decide +kernel,
      by decide +kernel, by decide +kernel, zeros _ _ _ (by decide +kernel), by decide +kernel⟩), (rest_zero _ (by decide)), by decide +kernel,
      by decide +kernel, by decide +kernel, by decide +kernel, by decide +kernel⟩, ⟨slotState 15 ringR (slotBytes 0x0006 []), 15, slotBytes 0x0006 [],
      (slot_readable _ _ (by decide) (by decide +kernel)), (⟨by decide +kernel, by decide +kernel, by decide +kernel, zeros _ _ _ (by decide +kernel),
      by decide +kernel⟩), (rest_zero _ (by decide)), by decide +kernel, by decide +kernel, by decide +kernel, by decide +kernel, by decide +kernel,
      by decide +kernel⟩, ⟨slotState 17 ringR (slotBytes 0x0100 []), 17, slotBytes 0x0100 [], (slot_readable _ _ (by decide) (by decide +kernel)),
      (⟨by decide +kernel, by decide +kernel, by decide +kernel, zeros _ _ _ (by decide +kernel), by decide +kernel⟩), (rest_zero _ (by decide)),
      by decide +kernel, by decide +kernel, by decide +kernel, by decide +kernel, by decide +kernel, by decide +kernel⟩,
      ⟨slotState 5 ringR (slotBytes 0x1000 []), 5, slotBytes 0x1000 [], (slot_readable _ _ (by decide) (by decide +kernel)), (⟨by decide +kernel,
      by decide +kernel, by decide +kernel, zeros _ _ _ (by decide +kernel), by decide +kernel⟩), (rest_zero _ (by decide)), by decide +kernel,
      by decide +kernel, by decide +kernel, by decide +kernel, by decide +kernel⟩, ⟨slotState 5 ringR (slotBytes 0x0000 [(5, 1, 2)]), 5,
      slotBytes 0x0000 [(5, 1, 2)], (slot_readable _ _ (by decide) (by decide +kernel)), by decide +kernel⟩, ⟨poisoned (slotState 5 ringR []), 5,
      by decide +kernel, by decide +kernel, by decide +kernel, by decide +kernel, by decide +kernel, by decide +kernel, by decide +kernel⟩⟩

theorem test_hyps_PacketQueues :
    (∃ (s : State) (p : PktRef) (y : Pkt), 
    let q := s.chip.cmd.queue
    (∀ x ∈ q, x.blocked = false ∧ x.aged = false) ∧ (∀ x ∈ q, x.ring = p.ring → x.index = p.index → x.cls = .q1) ∧ y ∈ q ∧ y.cls = .q0) ∧
    (∃ (s : State) (p : PktRef) (y : Pkt), 
    let q := s.chip.cmd.queue
    (∀ x ∈ q, x.blocked = false ∧ x.cls = .q1) ∧ (∀ x ∈ q, x.ring = p.ring → x.index = p.index → x.aged = false) ∧ y ∈ q ∧ y.aged = true) ∧
    (∃ (s : State) (k : Pkt), 
    let q := s.chip.cmd.queue
    q = [k] ∧ k.blocked = true) ∧
    (∃ (s : State) (p : PktRef) (k : Pkt), 
    let q := s.chip.cmd.queue
    q = [k] ∧ k.ring = p.ring ∧ k.index = p.index ∧ k.cls ≠ .c ∧ k.blocked = false) ∧
    (∃ (s : State) (mac : BitVec 48) (udp : W16), s.chip.pairRuns = true ∧ (s.chip.cmd.peers.contains (mac, udp) = false) ∧ s.chip.tenants = []) ∧
    (∃ (s : State) (mac : BitVec 48) (udp : W16) (bs : List Byte), 
    let r := s.chip.ring 0
    s.chip.pairRuns = true ∧ (s.chip.cmd.peers.contains (mac,
        udp) = true) ∧ bs.length = 256 ∧ r.enabled = true ∧ (r.tail - r.head).toNat < 2 ^ r.clog.toNat) :=
  ⟨⟨queueState [pkt 0x201 [], { pkt 0 [] with index := 10, cls := .q0 }] idleG {} id, ref9, { pkt 0 [] with index := 10, cls := .q0 },
      by decide +kernel, by decide +kernel, by decide +kernel, by decide +kernel⟩,
      ⟨queueState [pkt 0x201 [], { pkt 0x201 [] with index := 10, aged := true }] idleG {} id, ref9, { pkt 0x201 [] with index := 10, aged := true },
      by decide +kernel, by decide +kernel, by decide +kernel, by decide +kernel⟩, ⟨queueState [{ pkt 0 [] with blocked := true }] idleG {} id, _,
      rfl, by decide +kernel⟩, ⟨queueState [pkt 0 []] idleG {} id, ref9, _, rfl, by decide +kernel, by decide +kernel, by decide +kernel,
      by decide +kernel⟩, ⟨{ slotState 0 ringR [] with chip := { (slotState 0 ringR []).chip with tenants := [] } }, 7, 8, by decide +kernel,
      by decide +kernel, by decide +kernel⟩,
      ⟨{ slotState 0 ringR [] with chip := { (slotState 0 ringR []).chip with cmd := { (slotState 0 ringR []).chip.cmd with peers := [(7, 8)] } } },
      7, 8, packetBytes 0 [], by decide +kernel, by decide +kernel, by decide +kernel, by decide +kernel, by decide +kernel⟩⟩

theorem test_hyps_Replies :
    (∃ (s : State) (p : PktRef) (k : Pkt) (c : Chip), Taken s p 0x0000 anySub k c ∧ c.cmd.queue = [] ∧ k.n 8 8 = 0 ∧ 
    let r := s.chip.ring k.ring
    let a := 128 * r.rbase.toNat + 128 * (r.rhead.toNat % 2 ^ r.rlog.toNat)
    k.peer = none ∧ r.unsent = [] ∧ (r.rhead - r.rtail).toNat < 2 ^ r.rlog.toNat ∧ a + 128 ≤ tier1End) ∧
    (∃ (s : State) (p : PktRef) (k : Pkt) (c : Chip), Taken s p 0x0000 anySub k c ∧ c.cmd.queue = [] ∧ k.n 8 8 = 0 ∧ 
    let r := s.chip.ring k.ring
    k.peer = none ∧ r.unsent = [] ∧ 2 ^ r.rlog.toNat ≤ (r.rhead - r.rtail).toNat) ∧
    (∃ (s : State) (p : PktRef) (k : Pkt) (c : Chip), Taken s p 0x0000 anySub k c ∧ c.cmd.queue = [] ∧ k.n 8 8 = 0 ∧ ∃ (x : _), k.peer = some x) :=
  ⟨⟨cmdState (pkt 0 []) (fun c => { c with cmd := { c.cmd with rings := [(5, ringR)] } }), ref9, pkt 0 [], _, rfl, by decide +kernel,
      by decide +kernel, by decide +kernel, by decide +kernel, by decide +kernel, by decide +kernel⟩,
      ⟨cmdState (pkt 0 []) (fun c => { c with cmd := { c.cmd with rings := [(5, { ringR with rhead := 18 })] } }), ref9, pkt 0 [], _, rfl,
      by decide +kernel, by decide +kernel, by decide +kernel, by decide +kernel, by decide +kernel⟩,
      ⟨cmdState { pkt 0 [] with peer := some (7, 8) } (fun c => { c with cmd := { c.cmd with rings := [(5, ringR)] } }), ref9,
      { pkt 0 [] with peer := some (7, 8) }, _, rfl, by decide +kernel, by decide +kernel, _, rfl⟩⟩

theorem test_hyps_DeviceCommands :
    (∃ (s : State) (p : PktRef) (k : Pkt) (c : Chip), Taken s p 0x0000 anySub k c) ∧
    (∃ (s : State) (p : PktRef) (k : Pkt) (c : Chip), Taken s p 0x0001 anySub k c) ∧
    (∃ (s : State) (p : PktRef) (k : Pkt) (c : Chip), Taken s p 0x0002 anySub k c ∧ k.bytes.length = 256) ∧
    (∃ (s : State) (p : PktRef) (k : Pkt) (c : Chip), Taken s p 0x0003 anySub k c ∧ c.cmd.queue = [] ∧ c.cmd.waiting = []) ∧
    (∃ (s : State) (p : PktRef) (k x : Pkt) (c : Chip),
        Taken s p 0x0003 anySub k c ∧ c.cmd.queue = [x] ∧ c.cmd.waiting = [] ∧ x.ring = k.ring ∧ x.tag = k.n 32 2 ∧ x.index ≠ k.index) ∧
    (∃ (s : State) (p : PktRef) (k x : Pkt) (c : Chip),
        Taken s p 0x0003 anySub k c ∧ c.cmd.queue = [] ∧ c.cmd.waiting = [x] ∧ x.ring = k.ring ∧ x.tag = k.n 32 2 ∧ x.index ≠ k.index) ∧
    (∃ (s : State) (p : PktRef) (k : Pkt) (c : Chip),
        Taken s p 0x0004 anySub k c ∧ s.chip.coll.groups = [] ∧ k.n 32 4 < 2 ^ 20 ∧ k.n 56 8 = 0 ∧ k.n 64 4 = 0) ∧
    (∃ (s : State) (p : PktRef) (k : Pkt) (c : Chip), Taken s p 0x0004 anySub k c ∧ 2 ^ 20 ≤ k.n 32 4) ∧
    (∃ (s : State) (p : PktRef) (k : Pkt) (c : Chip), Taken s p 0x0006 anySub k c) ∧
    (∃ (s : State) (p : PktRef) (k : Pkt) (c : Chip), Taken s p 0x0900 anySub k c) ∧
    (∃ (s : State) (p : PktRef) (k : Pkt) (c : Chip), Taken s p 0x0901 anySub k c ∧ (k.n 32 2 < 500 ∨ 3400 < k.n 32 2)) ∧
    (∃ (s : State) (p : PktRef) (k : Pkt) (c : Chip),
        Taken s p 0x0901 anySub k c ∧ 500 ≤ k.n 32 2 ∧ k.n 32 2 ≤ 3400 ∧ k.n 34 1 = 0 ∧ k.n 36 4 = 0 ∧ k.n 40 32 = 0) :=
  ⟨⟨cmdState (pkt 0 []) id, ref9, pkt 0 [], _, rfl⟩, ⟨cmdState (pkt 1 []) id, ref9, pkt 1 [], _, rfl⟩, ⟨cmdState (pkt 2 [(32, 8, 0x1122)]) id, ref9,
      pkt 2 [(32, 8, 0x1122)], _, rfl, by decide +kernel⟩, ⟨cmdState (pkt 3 [(32, 2, 0x4321)]) id, ref9, pkt 3 [(32, 2, 0x4321)], _, rfl,
      by decide +kernel, by decide +kernel⟩, ⟨queueState [{ pkt 3 [(32, 2, 0x4321)] with cls := .q0 }, { pkt 0x201 [] with index := 10 }] idleG {} id,
      ref9, { pkt 3 [(32, 2, 0x4321)] with cls := .q0 }, { pkt 0x201 [] with index := 10 }, _, rfl, rfl, by decide +kernel, by decide +kernel,
      by decide +kernel, by decide +kernel⟩,
      ⟨cmdState { pkt 3 [(32, 2, 0x4321)] with cls := .q0 } (fun c => { c with cmd := { c.cmd with waiting := [{ pkt 0x201 [] with index := 10 }] } }),
      ref9, { pkt 3 [(32, 2, 0x4321)] with cls := .q0 }, { pkt 0x201 [] with index := 10 }, _, rfl, by decide +kernel, rfl, by decide +kernel,
      by decide +kernel, by decide +kernel⟩, ⟨cmdState (pkt 4 [(32, 4, 0xFFFFF), (40, 2, 1234)]) id, ref9, pkt 4 [(32, 4, 0xFFFFF), (40, 2, 1234)], _,
      rfl, by decide +kernel, by decide +kernel, by decide +kernel, by decide +kernel⟩, ⟨cmdState (pkt 4 [(32, 4, 0x100000)]) id, ref9, pkt 4 [(32, 4,
      0x100000)], _, rfl, by decide +kernel⟩, ⟨cmdState (pkt 6 []) id, ref9, pkt 6 [], _, rfl⟩, ⟨cmdState (pkt 0x900 []) id, ref9, pkt 0x900 [], _,
      rfl⟩, ⟨cmdState (pkt 0x901 [(32, 2, 499)]) id, ref9, pkt 0x901 [(32, 2, 499)], _, rfl, by decide +kernel⟩, ⟨cmdState (pkt 0x901 [(32, 2,
      3400)]) id, ref9, pkt 0x901 [(32, 2, 3400)], _, rfl, by decide +kernel, by decide +kernel, by decide +kernel, by decide +kernel,
      by decide +kernel⟩⟩

theorem test_hyps_DeviceResets :
    (∃ (s : State) (p : PktRef) (k : Pkt) (c : Chip), 
    let c1 := c.reply s.env k { status := 0 }
    (Taken s p 0x0005 (fun k => k.n 32 1 == 0) k c) ∧ c1.sys.tripped = false) ∧
    (∃ (s : State) (p : PktRef) (k : Pkt) (c : Chip), (Taken s p 0x0005 (fun k => k.n 32 1 == 1) k c)) ∧
    (∃ (s : State) (p : PktRef) (k : Pkt) (c : Chip), (Taken s p 0x0005 (fun k => k.n 32 1 == 2) k c)) :=
  ⟨⟨cmdState (pkt 5 [(32, 1, 0)]) id, ref9, pkt 5 [(32, 1, 0)], _, rfl, by decide +kernel⟩, ⟨cmdState (pkt 5 [(32, 1, 1)]) id, ref9, pkt 5 [(32, 1,
      1)], _, rfl⟩, ⟨cmdState (pkt 5 [(32, 1, 2)]) id, ref9, pkt 5 [(32, 1, 2)], _, rfl⟩⟩

theorem test_hyps_EyespotAndDebug :
    (∃ (s : State) (p : PktRef) (k : Pkt) (c : Chip), Taken s p 0x0B00 anySub k c ∧ k.n 32 8 = 0 ∧ k.n 56 8 < 2 ^ 52) ∧
    (∃ (s : State) (p : PktRef) (k : Pkt) (c : Chip), Taken s p 0x0B00 anySub k c ∧ 256 ≤ k.n 32 8) ∧
    (∃ (s : State) (p : PktRef) (k : Pkt) (c : Chip) (u0 : Eye),
        Taken s p 0x0B00 anySub k c ∧ s.chip.eye.units = [u0] ∧ k.n 32 8 = 1 ∧ k.n 40 8 = 0 ∧ k.n 56 8 < 2 ^ 52) ∧
    (∃ (s : State) (p : PktRef) (k : Pkt) (c : Chip), Taken s p 0x0B01 anySub k c ∧ k.n 32 1 ≤ 7) ∧
    (∃ (s : State) (p : PktRef) (k : Pkt) (c : Chip), Taken s p 0x0B01 anySub k c ∧ 8 ≤ k.n 32 1) ∧
    (∃ (s : State) (p : PktRef) (k : Pkt) (c : Chip), 
    let u := s.chip.eyeUnit (BitVec.ofNat 3 (k.n 32 1))
    Taken s p 0x0B02 anySub k c ∧ k.n 32 1 ≤ 7 ∧ s.chip.eye.units.length = 8 ∧ u.frozen = false ∧ u.freeze = BitVec.allOnes 64) ∧
    (∃ (s : State) (p : PktRef) (k : Pkt) (c : Chip), 
    let id : CoreId := BitVec.ofNat 20 (k.n 32 4)
    let x := s.chip.core id
    Taken s p 0x0F01 (subAt 36 0) k c ∧ k.n 32 4 < 2 ^ 20 ∧ x.running = false) ∧
    (∃ (s : State) (p : PktRef) (k : Pkt) (c : Chip), 
    let id : CoreId := BitVec.ofNat 20 (k.n 32 4)
    let x := s.chip.core id
    Taken s p 0x0F01 (subAt 36 0) k c ∧ k.n 32 4 < 2 ^ 20 ∧ x.running = true) ∧
    (∃ (s : State) (p : PktRef) (k : Pkt) (c : Chip), 
    let id : CoreId := BitVec.ofNat 20 (k.n 32 4)
    let x := s.chip.core id
    Taken s p 0x0F01 (subAt 36 1) k c ∧ k.n 32 4 < 2 ^ 20 ∧ x.hold = .none) ∧
    (∃ (s : State) (p : PktRef) (k : Pkt) (c : Chip), 
    let id : CoreId := BitVec.ofNat 20 (k.n 32 4)
    let x := s.chip.core id
    Taken s p 0x0F02 anySub k c ∧ k.n 32 4 < 2 ^ 20 ∧ x.service = true ∧ 0 < k.n 38 2 ∧ k.n 36 2 + k.n 38 2 ≤ 4096) ∧
    (∃ (s : State) (p : PktRef) (k : Pkt) (c : Chip), 
    let id : CoreId := BitVec.ofNat 20 (k.n 32 4)
    let x := s.chip.core id
    Taken s p 0x0F02 anySub k c ∧ x.service = false) ∧
    (∃ (s : State) (p : PktRef) (k : Pkt) (c : Chip), Taken s p 0x0F00 anySub k c ∧ 1 < k.n 40 1) ∧
    (∃ (s : State) (p : PktRef) (k : Pkt) (c : Chip), Taken s p 0x0F00 anySub k c ∧ k.n 40 1 = 0 ∧ k.n 32 8 = 0) ∧
    (∃ (s : State) (p : PktRef) (k : Pkt) (c : Chip), Taken s p 0x0F00 anySub k c ∧ k.n 40 1 = 1 ∧ k.n 32 8 = 0x600008) :=
  ⟨⟨cmdState (pkt 0xB00 [(32, 8, 0)]) id, ref9, pkt 0xB00 [(32, 8, 0)], _, rfl, by decide +kernel, by decide +kernel⟩, ⟨cmdState (pkt 0xB00 [(32, 8,
      256)]) id, ref9, pkt 0xB00 [(32, 8, 256)], _, rfl, by decide +kernel⟩, ⟨cmdState (pkt 0xB00 [(32, 8, 1), (48, 8, 0x1234), (56, 8,
      0x400000), (64, 4, 3)]) (fun c => { c with eye := { units := [{}], pins := [] } }), ref9, pkt 0xB00 [(32, 8, 1), (48, 8, 0x1234), (56, 8,
      0x400000), (64, 4, 3)], _, _, rfl, rfl, by decide +kernel, by decide +kernel, by decide +kernel⟩, ⟨cmdState (pkt 0xB01 [(32, 1,
      7)]) (fun c => { c with eye := { units := {} :: List.replicate 7 {}, pins := [] } }), ref9, pkt 0xB01 [(32, 1, 7)], _, rfl, by decide +kernel⟩,
      ⟨cmdState (pkt 0xB01 [(32, 1, 8)]) id, ref9, pkt 0xB01 [(32, 1, 8)], _, rfl, by decide +kernel⟩, ⟨cmdState (pkt 0xB02 [(32, 1,
      0)]) (fun c => { c with eye := { units := {} :: List.replicate 7 {}, pins := [] } }), ref9, pkt 0xB02 [(32, 1, 0)], _, rfl, by decide +kernel,
      by decide +kernel, by decide +kernel, by decide +kernel⟩, ⟨cmdState (pkt 0xF01 [(32, 4, 0x1003)]) id, ref9, pkt 0xF01 [(32, 4, 0x1003)], _, rfl,
      by decide +kernel, by decide +kernel⟩, ⟨queueState [pkt 0xF01 [(32, 4, 0x1003)]] coreG {} id, ref9, pkt 0xF01 [(32, 4, 0x1003)], _, rfl,
      by decide +kernel, by decide +kernel⟩, ⟨cmdState (pkt 0xF01 [(32, 4, 0x1003), (36, 1, 1)]) id, ref9, pkt 0xF01 [(32, 4, 0x1003), (36, 1, 1)], _,
      rfl, by decide +kernel, by decide +kernel⟩, ⟨queueState [pkt 0xF02 [(32, 4, 0x1003), (36, 2, 0), (38, 2,
      4096)]] { idleG with service := true } {} id, ref9, pkt 0xF02 [(32, 4, 0x1003), (36, 2, 0), (38, 2, 4096)], _, rfl, by decide +kernel,
      by decide +kernel, by decide +kernel, by decide +kernel⟩, ⟨cmdState (pkt 0xF02 [(32, 4, 0x1003)]) id, ref9, pkt 0xF02 [(32, 4, 0x1003)], _, rfl,
      by decide +kernel⟩, ⟨cmdState (pkt 0xF00 [(40, 1, 2)]) id, ref9, pkt 0xF00 [(40, 1, 2)], _, rfl, by decide +kernel⟩,
      ⟨cmdState (pkt 0xF00 []) id, ref9, pkt 0xF00 [], _, rfl, by decide +kernel, by decide +kernel⟩, ⟨cmdState (pkt 0xF00 [(32, 8, 0x600008), (40, 1,
      1)]) id, ref9, pkt 0xF00 [(32, 8, 0x600008), (40, 1, 1)], _, rfl, by decide +kernel, by decide +kernel⟩⟩

/-! ### Packets of tenants, programs and hall time -/

/-- A record of `tenant.bind` for tenant 7 with quads 40 and 41. -/
def bindRecord (fs : List (Nat × Nat × Nat)) : List Byte :=
  putFields (List.replicate 128 0) ([(0, 2, 7), (2, 2, 2), (4, 4, 5000), (8, 8, 0x410000), (16, 8, 0x800000), (24, 8, 0x801000), (32, 4, 64),
    (48, 2, 100), (50, 2, 4), (52, 1, 1), (56, 8, 1), (64, 8, 0x30), (88, 8, 0x804000), (96, 8, 0x806000), (104, 1, 0x54)] ++ fs)
def bindChip (fs : List (Nat × Nat × Nat)) (ts : Tbl Tenant) (c : Chip) : Chip :=
  { memAt [(0x410000, [40, 0, 41, 0]), (0x420000, bindRecord fs)] c with tenants := ts }
def oneTenant : Tbl Tenant := [(1, { tenant1 with quotas := [1, 0, 0] })]
def others (n : Nat) : Tbl Tenant := (List.range n).map (fun i => (i + 100, { tenant1 with quads := [], apps := [] }))
def idleGroup : Group := { groupC opSend with op := none }
def grouped (g : Group) (c : Chip) : Chip := { c with coll := { c.coll with groups := [(2, g)] } }
/-- A program image of one variant and two buckets, 10 and 20, in its first dimension, with the digest `d`. -/
def imageBody : List Byte :=
  putFields (List.replicate 512 0) [(0, 4, 0x4B494E53), (4, 2, 1), (6, 1, 1), (7, 1, 1), (8, 2, 8), (10, 2, 2), (16, 1, 2), (20, 1, 3), (24, 1, 4),
    (32, 4, 10), (36, 4, 20), (260, 4, 288), (264, 2, 1), (272, 1, 1), (276, 4, 296), (280, 2, 2), (282, 2, 1), (296, 8, 0x77)]
def imageBytes : List Byte := putFields imageBody [(160, 16, programDigest (imageBody.take 312))]
def imageChip (quads : List Byte) (bs : List Byte) (c : Chip) : Chip := { memAt [(0x410000, quads), (0x420000, bs)] c with jobs := [] }
theorem pair_of {α β : Type} (o : Option (α × β)) (d : α × β) (h : o.isSome = true) : o = some ((o.getD d).1, (o.getD d).2) := by
  cases o with
  | some a => rfl
  | none => cases h

theorem ok_of {α : Type} (e : Except Nat α) (d : α) (h : e.toOption.isSome = true) : e = .ok (e.toOption.getD d) := by
  cases e with
  | ok a => rfl
  | error n => cases h
def loadPkt : Pkt := pkt 0x200 [(32, 8, 0x420000), (40, 8, 0x410000), (48, 2, 2), (56, 8, 0x8000)]
def jobL : Job := { bucketJob with quads := [16], image := ⟨0, false, 0, [⟨[10, 20], true, 3, 4⟩], 8, [⟨[0, 0, 0, 0], 7, 64, 9⟩, ⟨[1, 0, 0, 0], 7, 64, 9⟩], none, 0⟩ }
def withJobs (j : Job) (c : Chip) : Chip := { c with jobs := [(4, j)] }
def launchPkt (size : Nat) : Pkt := pkt 0x201 [(32, 2, 4), (40, 8, 99), (48, 6, 7), (56, 4, size), (72, 4, 3)]
def barrierChip (b : Barrier) (cores : Tbl Core) (c : Chip) : Chip := { c with barriers := [(3, b)], cores := cores }
def owned : Barrier := { claimed := true, tenant := 1, generation := 5 }

theorem test_hyps_TenantBind :
    (∃ (s : State) (p : PktRef) (k : Pkt) (c : Chip), Taken s p 0x0100 anySub k c ∧ 4096 ≤ s.chip.tenants.length) ∧
    (∃ (s : State) (p : PktRef) (k : Pkt) (c : Chip), Taken s p 0x0100 anySub k c ∧ 
    let b := c.readBinding (k.n 32 8)
    let few := s.chip.tenants.length < 4096
    few ∧ c.bindDenied b = true) ∧
    (∃ (s : State) (p : PktRef) (k : Pkt) (c : Chip), Taken s p 0x0100 anySub k c ∧ 
    let b := c.readBinding (k.n 32 8)
    let few := s.chip.tenants.length < 4096
    few ∧ c.bindDenied b = false ∧ c.bindBad b = true) ∧
    (∃ (s : State) (p : PktRef) (k : Pkt) (c : Chip), Taken s p 0x0100 anySub k c ∧ 
    let b := c.readBinding (k.n 32 8)
    let few := s.chip.tenants.length < 4096
    few ∧ c.bindDenied b = false ∧ c.bindBad b = false ∧ c.bindShort b = true) ∧
    (∃ (s : State) (p : PktRef) (k : Pkt) (c : Chip), Taken s p 0x0100 anySub k c ∧ 
    let b := c.readBinding (k.n 32 8)
    let few := s.chip.tenants.length < 4096
    few ∧ c.bindDenied b = false ∧ c.bindBad b = false ∧ c.bindShort b = false) :=
  ⟨⟨cmdState (pkt 0x100 [(32, 8, 0x420000)]) (bindChip [] (others 4096)), ref9, pkt 0x100 [(32, 8, 0x420000)], _, rfl, by decide +kernel⟩,
      ⟨cmdState (pkt 0x100 [(32, 8, 0x420000)]) (bindChip [] [(1, { tenant1 with quads := [40] })]), ref9, pkt 0x100 [(32, 8, 0x420000)], _, rfl,
      by decide +kernel, by decide +kernel⟩, ⟨cmdState (pkt 0x100 [(32, 8, 0x420000)]) (bindChip [(0, 2, 1)] oneTenant), ref9, pkt 0x100 [(32, 8,
      0x420000)], _, rfl, by decide +kernel, by decide +kernel, by decide +kernel⟩, ⟨cmdState (pkt 0x100 [(32, 8, 0x420000)]) (bindChip [(36, 4,
      0xFFFFFFFF)] oneTenant), ref9, pkt 0x100 [(32, 8, 0x420000)], _, rfl, by decide +kernel, by decide +kernel, by decide +kernel,
      by decide +kernel⟩, ⟨cmdState (pkt 0x100 [(32, 8, 0x420000)]) (bindChip [] oneTenant), ref9, pkt 0x100 [(32, 8, 0x420000)], _, rfl,
      by decide +kernel, by decide +kernel, by decide +kernel, by decide +kernel⟩⟩

theorem test_hyps_Tenants :
    (∃ (s : State) (p : PktRef) (k : Pkt) (c : Chip), 
    let id := k.n 32 2
    let t : TenantId := BitVec.ofNat 12 id
    Taken s p 0x0101 anySub k c ∧ (4095 < id ∨ s.chip.tenant t = none)) ∧
    (∃ (s : State) (p : PktRef) (k : Pkt) (c : Chip) (n : Tenant), 
    let id := k.n 32 2
    let t : TenantId := BitVec.ofNat 12 id
    Taken s p 0x0101 anySub k c ∧ id ≤ 4095 ∧ s.chip.tenant t = some n ∧ c.tenantBusy t n = true) ∧
    (∃ (s : State) (p : PktRef) (k : Pkt) (c : Chip) (n : Tenant), 
    let id := k.n 32 2
    let t : TenantId := BitVec.ofNat 12 id
    Taken s p 0x0101 anySub k c ∧ id ≤ 4095 ∧ s.chip.tenant t = some n ∧ c.tenantBusy t n = false) ∧
    (∃ (s : State) (p : PktRef) (k : Pkt) (c : Chip), 
    let id := k.n 32 2
    let g : GroupId := BitVec.ofNat 12 id
    ∃ (x : _), Taken s p 0x0102 anySub k c ∧ id ≤ 4095 ∧ s.chip.group g = some x ∧ x.tenant = k.tenant ∧ x.guard = none ∧ k.n 34 1 ≤ 1 ∧ 0 < k.n 36 4 ∧ k.n 36 4 ≤ 0x7F800000 ∧ k.n 40 8 % 32 = 0 ∧ k.n 40 8 < 2 ^ 48) ∧
    (∃ (s : State) (p : PktRef) (k : Pkt) (c : Chip), Taken s p 0x0102 anySub k c ∧ k.n 36 4 = 0) ∧
    (∃ (s : State) (p : PktRef) (k : Pkt) (c : Chip) (n : Tenant), 
    let id := k.n 32 2
    let t : TenantId := BitVec.ofNat 12 id
    Taken s p 0x0103 anySub k c ∧ id ≤ 4095 ∧ s.chip.tenant t = some n ∧ n.used.length = 3) ∧
    (∃ (s : State) (p : PktRef) (k : Pkt) (c : Chip), 
    let id := k.n 32 2
    let t : TenantId := BitVec.ofNat 12 id
    Taken s p 0x0103 anySub k c ∧ (4095 < id ∨ s.chip.tenant t = none)) :=
  ⟨⟨cmdState (pkt 0x101 [(32, 2, 4096)]) id, ref9, pkt 0x101 [(32, 2, 4096)], _, rfl, by decide +kernel⟩, ⟨queueState [pkt 0x101 [(32, 2,
      1)]] { coreG with running := true } {} id, ref9, pkt 0x101 [(32, 2, 1)], _, _, rfl, by decide +kernel, rfl, by decide +kernel⟩,
      ⟨cmdState (pkt 0x101 [(32, 2, 1)]) (fun c => { c with jobs := [] }), ref9, pkt 0x101 [(32, 2, 1)], _, _, rfl, by decide +kernel, rfl,
      by decide +kernel⟩, ⟨cmdState (pkt 0x102 [(32, 2, 2), (34, 1, 1), (36, 4, 0x7F800000), (40, 8, 0x5000)]) (grouped idleGroup), ref9,
      pkt 0x102 [(32, 2, 2), (34, 1, 1), (36, 4, 0x7F800000), (40, 8, 0x5000)], _, _, rfl, by decide +kernel, rfl, by decide +kernel,
      by decide +kernel, by decide +kernel, by decide +kernel, by decide +kernel, by decide +kernel, by decide +kernel⟩, ⟨cmdState (pkt 0x102 [(32, 2,
      2)]) id, ref9, pkt 0x102 [(32, 2, 2)], _, rfl, by decide +kernel⟩, ⟨cmdState (pkt 0x103 [(32, 2,
      1)]) (fun c => { c with tenants := [(1, { tenant1 with used := [3, 4, 5] })] }), ref9, pkt 0x103 [(32, 2, 1)], _, _, rfl, by decide +kernel,
      rfl, by decide +kernel⟩, ⟨cmdState (pkt 0x103 [(32, 2, 4095)]) id, ref9, pkt 0x103 [(32, 2, 4095)], _, rfl, by decide +kernel⟩⟩

theorem none_withdrawn {s : State} (x : Cluster) (h : s.chip.clusters = [(0x40, x)]) (hx : x.withdrawn = false) (cl : ClusterId) :
    (s.chip.cluster cl).withdrawn = false := by
  unfold Chip.cluster tblGet; rw [h]; unfold tblFind tblFind; split
  · exact hx
  · rfl

theorem test_hyps_ProgramCommands :
    (∃ (s : State) (p : PktRef) (k : Pkt) (c : Chip) (n : Tenant), 
    let quads := (List.range (min (k.n 48 2) 4096)).map (fun i => ofLe (c.aread k.space (k.n 40 8 + 2 * i) 2))
    Taken s p 0x0200 anySub k c ∧ s.chip.tenant k.tenant = some n ∧ 0 < k.n 48 2 ∧ k.n 48 2 ≤ 4096 ∧ k.n 56 8 % 8192 = 0 ∧ k.n 56 8 < 2 ^ 48 ∧ quads.Nodup ∧ (∀ q ∈ quads,
        q ≤ 4095) ∧ (∃ q ∈ quads, q ∉ n.quads)) ∧
    (∃ (s : State) (p : PktRef) (k : Pkt) (c : Chip) (n : Tenant), 
    let quads := (List.range (min (k.n 48 2) 4096)).map (fun i => ofLe (c.aread k.space (k.n 40 8 + 2 * i) 2))
    Taken s p 0x0200 anySub k c ∧ s.chip.tenant k.tenant = some n ∧ 0 < k.n 48 2 ∧ k.n 48 2 ≤ 4096 ∧ k.n 56 8 % 8192 = 0 ∧ k.n 56 8 < 2 ^ 48 ∧ quads.Nodup ∧ (∀ q ∈ quads,
        q ≤ 4095) ∧ (∀ q ∈ quads, q ∈ n.quads) ∧ ∃ (e : _), c.readImage k.space (k.n 32 8) = .error e) ∧
    (∃ (s : State) (p : PktRef) (k : Pkt) (c : Chip) (n : Tenant) (img : Image), 
    let quads := (List.range (min (k.n 48 2) 4096)).map (fun i => ofLe (c.aread k.space (k.n 40 8 + 2 * i) 2))
    Taken s p 0x0200 anySub k c ∧ s.chip.tenant k.tenant = some n ∧ 0 < k.n 48 2 ∧ k.n 48 2 ≤ 4096 ∧ k.n 56 8 % 8192 = 0 ∧ k.n 56 8 < 2 ^ 48 ∧ quads.Nodup ∧ (∀ q ∈ quads,
        q ≤ 4095) ∧ (∀ q ∈ quads, q ∈ n.quads) ∧ c.readImage k.space (k.n 32 8) = .ok img ∧ s.chip.jobs = [] ∧ s.chip.cmd.left = []) ∧
    (∃ (s : State) (p : PktRef) (k : Pkt) (c : Chip) (h : JobId) (j : Job), 
    let exact := k.n 34 1 == 1
    let sizes := (List.range 4).map (fun d => k.n (56 + 4 * d) 4)
    ∃ (v regs : _), Taken s p 0x0201 anySub k c ∧ Names s k h j ∧ k.n 34 1 ≤ 1 ∧ c.clockBad exact (k.n 36 2) = false ∧ k.n 48 6 ≠ 2 ^ 48 - 1 ∧ j.image.launchBad exact (k.n 72 4) j.clusters.length = false ∧ (j.image.select sizes = some (v,
        regs)) ∧ (∀ cl ∈ j.clusters, (s.chip.cluster cl).withdrawn = false) ∧ (∃ cl ∈ j.clusters, ∃ id ∈ coresOf cl,
        (s.chip.core id).running = true)) ∧
    (∃ (s : State) (p : PktRef) (k : Pkt) (c : Chip) (h : JobId) (j : Job), 
    let exact := k.n 34 1 == 1
    let sizes := (List.range 4).map (fun d => k.n (56 + 4 * d) 4)
    ∃ (v regs : _), Taken s p 0x0201 anySub k c ∧ Names s k h j ∧ k.n 34 1 ≤ 1 ∧ c.clockBad exact (k.n 36 2) = false ∧ k.n 48 6 ≠ 2 ^ 48 - 1 ∧ j.image.launchBad exact (k.n 72 4) j.clusters.length = false ∧ (j.image.select sizes = some (v,
        regs)) ∧ (∀ cl ∈ j.clusters, (s.chip.cluster cl).withdrawn = false) ∧ (∀ cl ∈ j.clusters, ∀ id ∈ coresOf cl,
        (s.chip.core id).running = false) ∧ j.active = false ∧ j.chrysalis = none) ∧
    (∃ (s : State) (p : PktRef) (k : Pkt) (c : Chip) (h : JobId) (j : Job), 
    let sizes := (List.range 4).map (fun d => k.n (56 + 4 * d) 4)
    Taken s p 0x0201 anySub k c ∧ Names s k h j ∧ j.image.select sizes = none) ∧
    (∃ (s : State) (p : PktRef) (k : Pkt) (c : Chip) (h : JobId) (j : Job), Taken s p 0x0205 anySub k c ∧ Names s k h j ∧ s.chip.cmd.waiting = []) :=
  ⟨⟨cmdState loadPkt (imageChip [16, 0, 18, 0] []), ref9, loadPkt, _, _, rfl, rfl, by decide +kernel, by decide +kernel, by decide +kernel,
      by decide +kernel, by decide +kernel, by decide +kernel, by decide +kernel⟩, ⟨cmdState loadPkt (imageChip [16, 0, 17, 0] []), ref9, loadPkt, _,
      _, rfl, rfl, by decide +kernel, by decide +kernel, by decide +kernel, by decide +kernel, by decide +kernel, by decide +kernel,
      by decide +kernel, _, rfl⟩, ⟨cmdState loadPkt (imageChip [16, 0, 17, 0] imageBytes), ref9, loadPkt, _, _, _, rfl, rfl, by decide +kernel,
      by decide +kernel, by decide +kernel, by decide +kernel, by decide +kernel, by decide +kernel, by decide +kernel,
      (ok_of _ jobI.image (by decide +kernel)), by decide +kernel, by decide +kernel⟩, ⟨queueState [launchPkt 20] coreG {} (withJobs jobL), ref9,
      launchPkt 20, _, 4, jobL, _, _, rfl, (⟨by decide, rfl, by decide⟩), by decide +kernel, by decide +kernel, by decide +kernel, by decide +kernel,
      (pair_of _ (0, regs0) (by decide +kernel)), (fun cl _ => none_withdrawn {} rfl rfl cl), (⟨0x40, List.mem_flatMap.mpr ⟨16, by decide, by decide⟩,
      0x1003, by decide, by decide⟩)⟩, ⟨queueState [launchPkt 10] idleG {} (withJobs jobL), ref9, launchPkt 10, _, 4, jobL, _, _, rfl, (⟨by decide,
      rfl, by decide⟩), by decide +kernel, by decide +kernel, by decide +kernel, by decide +kernel, (pair_of _ (0, regs0) (by decide +kernel)),
      (fun cl _ => none_withdrawn {} rfl rfl cl), (fun _ _ i _ => all_idle idleG rfl rfl i), by decide +kernel, by decide +kernel⟩,
      ⟨queueState [launchPkt 21] idleG {} (withJobs jobL), ref9, launchPkt 21, _, 4, jobL, rfl, (⟨by decide, rfl, by decide⟩), by decide +kernel⟩,
      ⟨cmdState (pkt 0x205 [(32, 2, 4)]) id, ref9, pkt 0x205 [(32, 2, 4)], _, 4, jobI, rfl, (⟨by decide, rfl, by decide⟩), by decide +kernel⟩⟩

theorem test_hyps_HallCommands :
    (∃ (s : State) (p : PktRef) (k : Pkt) (c : Chip), Taken s p 0x0400 anySub k c ∧ 127 < k.n 36 1) ∧
    (∃ (s : State) (p : PktRef) (k : Pkt) (c : Chip), Taken s p 0x0400 anySub k c ∧ k.n 36 1 ≤ 127 ∧ k.n 48 8 = 2 ^ 64 - 1 ∧ k.n 40 8 = 0) ∧
    (∃ (s : State) (p : PktRef) (k : Pkt) (c : Chip) (i op : _), ((i, op) ∈ [(Instr.hallBarrierArm p, 1), (Instr.hallBarrierDisarm p,
        2), (Instr.hallBarrierRelease p, 3), (Instr.hallBarrierQuery p, 4)]) ∧ Taken s p 0x0401 (subAt 34 op) k c ∧ 4096 ≤ k.n 32 2) ∧
    (∃ (s : State) (p : PktRef) (k : Pkt) (c : Chip) (e : BitVec 12), 
    let b := s.chip.barrier e
    let mine : Prop := b.claimed = true ∧ b.tenant = k.tenant
    ∃ (i op : _), ((i, op) ∈ [(Instr.hallBarrierArm p, 1), (Instr.hallBarrierDisarm p, 2), (Instr.hallBarrierRelease p, 3), (Instr.hallBarrierQuery p,
        4)]) ∧ Taken s p 0x0401 (subAt 34 op) k c ∧ k.n 32 2 = e.toNat ∧ ¬mine ∧ 16 ≤ k.ring.toNat) ∧
    (∃ (s : State) (p : PktRef) (k : Pkt) (c : Chip) (e : BitVec 12), 
    let b := s.chip.barrier e
    k.n 32 2 = e.toNat ∧ Taken s p 0x0401 (subAt 34 0) k c ∧ (b.claimed = false ∨ b.tenant = k.tenant)) ∧
    (∃ (s : State) (p : PktRef) (k : Pkt) (c : Chip) (e : BitVec 12), 
    let b := s.chip.barrier e
    k.n 32 2 = e.toNat ∧ Taken s p 0x0401 (subAt 34 0) k c ∧ b.claimed = true ∧ b.tenant ≠ k.tenant) ∧
    (∃ (s : State) (p : PktRef) (k : Pkt) (c : Chip) (e : BitVec 12), 
    let b := s.chip.barrier e
    let mine : Prop := b.claimed = true ∧ b.tenant = k.tenant
    k.n 32 2 = e.toNat ∧ Taken s p 0x0401 (subAt 34 1) k c ∧ mine ∧ s.time.st = .unset) ∧
    (∃ (s : State) (p : PktRef) (k : Pkt) (c : Chip) (e : BitVec 12), 
    let b := s.chip.barrier e
    let t := k.n 40 8
    let mine : Prop := b.claimed = true ∧ b.tenant = k.tenant
    k.n 32 2 = e.toNat ∧ Taken s p 0x0401 (subAt 34 1) k c ∧ mine ∧ s.time.st ≠ .unset ∧ t < 2 ^ 64 - 1 - 1000000000 ∧ b.st = .armed) ∧
    (∃ (s : State) (p : PktRef) (k : Pkt) (c : Chip) (e : BitVec 12), 
    let b := s.chip.barrier e
    let ns := s.time.ht.toNat / 64
    let t := k.n 40 8
    let mine : Prop := b.claimed = true ∧ b.tenant = k.tenant
    k.n 32 2 = e.toNat ∧ Taken s p 0x0401 (subAt 34 1) k c ∧ mine ∧ s.time.st ≠ .unset ∧ t < 2 ^ 64 - 1 - 1000000000 ∧ b.st ≠ .armed ∧ ns < t) ∧
    (∃ (s : State) (p : PktRef) (k : Pkt) (c : Chip) (e : BitVec 12), 
    let b := s.chip.barrier e
    let ns := s.time.ht.toNat / 64
    let t := k.n 40 8
    let mine : Prop := b.claimed = true ∧ b.tenant = k.tenant
    k.n 32 2 = e.toNat ∧ Taken s p 0x0401 (subAt 34 1) k c ∧ mine ∧ s.time.st ≠ .unset ∧ t < 2 ^ 64 - 1 - 1000000000 ∧ b.st ≠ .armed ∧ t ≤ ns) ∧
    (∃ (s : State) (p : PktRef) (k : Pkt) (c : Chip) (e : BitVec 12), 
    let b := s.chip.barrier e
    let mine : Prop := b.claimed = true ∧ b.tenant = k.tenant
    k.n 32 2 = e.toNat ∧ Taken s p 0x0401 (subAt 34 2) k c ∧ mine ∧ b.st = .armed) ∧
    (∃ (s : State) (p : PktRef) (k : Pkt) (c : Chip) (e : BitVec 12), 
    let b := s.chip.barrier e
    let mine : Prop := b.claimed = true ∧ b.tenant = k.tenant
    k.n 32 2 = e.toNat ∧ Taken s p 0x0401 (subAt 34 3) k c ∧ mine ∧ s.chip.cores = []) ∧
    (∃ (s : State) (p : PktRef) (k : Pkt) (c : Chip) (e : BitVec 12), 
    let b := s.chip.barrier e
    let mine : Prop := b.claimed = true ∧ b.tenant = k.tenant
    k.n 32 2 = e.toNat ∧ ∃ (id x : _), Taken s p 0x0401 (subAt 34 3) k c ∧ mine ∧ (s.chip.cores = [(id, x)]) ∧ x.hold = .barw e false) ∧
    (∃ (s : State) (p : PktRef) (k : Pkt) (c : Chip) (e : BitVec 12), 
    let b := s.chip.barrier e
    let mine : Prop := b.claimed = true ∧ b.tenant = k.tenant
    k.n 32 2 = e.toNat ∧ Taken s p 0x0401 (subAt 34 4) k c ∧ mine) :=
  ⟨⟨cmdState (pkt 0x400 [(36, 1, 128)]) id, ref9, pkt 0x400 [(36, 1, 128)], _, rfl, by decide +kernel⟩, ⟨cmdState (pkt 0x400 [(36, 1, 127), (37, 1,
      9), (38, 2, 77), (48, 8, 0xFFFFFFFFFFFFFFFF)]) id, ref9, pkt 0x400 [(36, 1, 127), (37, 1, 9), (38, 2, 77), (48, 8, 0xFFFFFFFFFFFFFFFF)], _, rfl,
      by decide +kernel, by decide +kernel, by decide +kernel⟩, ⟨cmdState (pkt 0x401 [(32, 2, 4096), (34, 1, 1)]) id, ref9, pkt 0x401 [(32, 2,
      4096), (34, 1, 1)], _, .hallBarrierArm ref9, 1, List.mem_cons_self, rfl, by decide +kernel⟩, ⟨cmdState (onRing 18 (pkt 0x401 [(32, 2, 3), (34,
      1, 1)])) (barrierChip { owned with tenant := 2 } []), ⟨18, 9⟩, onRing 18 (pkt 0x401 [(32, 2, 3), (34, 1, 1)]), _, 3, .hallBarrierArm ⟨18, 9⟩, 1,
      List.mem_cons_self, rfl, by decide +kernel, by decide +kernel, by decide +kernel⟩, ⟨cmdState (pkt 0x401 [(32, 2, 3), (34, 1,
      0)]) (barrierChip {} []), ref9, pkt 0x401 [(32, 2, 3), (34, 1, 0)], _, 3, by decide +kernel, rfl, by decide +kernel⟩, ⟨cmdState (pkt 0x401 [(32,
      2, 3), (34, 1, 0)]) (barrierChip { owned with tenant := 2 } []), ref9, pkt 0x401 [(32, 2, 3), (34, 1, 0)], _, 3, by decide +kernel, rfl,
      by decide +kernel, by decide +kernel⟩, ⟨{ cmdState (pkt 0x401 [(32, 2, 3), (34, 1, 1)]) (barrierChip owned []) with time := { ht := 320000 } },
      ref9, pkt 0x401 [(32, 2, 3), (34, 1, 1)], _, 3, by decide +kernel, rfl, by decide +kernel, by decide +kernel⟩, ⟨cmdState (pkt 0x401 [(32, 2,
      3), (34, 1, 1)]) (barrierChip { owned with st := .armed, instant := 6000 } []), ref9, pkt 0x401 [(32, 2, 3), (34, 1, 1)], _, 3,
      by decide +kernel, rfl, by decide +kernel, by decide +kernel, by decide +kernel, by decide +kernel⟩, ⟨cmdState (pkt 0x401 [(32, 2, 3), (34, 1,
      1), (40, 8, 5001)]) (barrierChip owned []), ref9, pkt 0x401 [(32, 2, 3), (34, 1, 1), (40, 8, 5001)], _, 3, by decide +kernel, rfl,
      by decide +kernel, by decide +kernel, by decide +kernel, by decide +kernel, by decide +kernel⟩, ⟨cmdState (pkt 0x401 [(32, 2, 3), (34, 1,
      1), (40, 8, 5000)]) (barrierChip owned []), ref9, pkt 0x401 [(32, 2, 3), (34, 1, 1), (40, 8, 5000)], _, 3, by decide +kernel, rfl,
      by decide +kernel, by decide +kernel, by decide +kernel, by decide +kernel, by decide +kernel⟩, ⟨cmdState (pkt 0x401 [(32, 2, 3), (34, 1,
      2)]) (barrierChip { owned with st := .armed } []), ref9, pkt 0x401 [(32, 2, 3), (34, 1, 2)], _, 3, by decide +kernel, rfl, by decide +kernel,
      by decide +kernel⟩, ⟨cmdState (pkt 0x401 [(32, 2, 3), (34, 1, 3)]) (barrierChip owned []), ref9, pkt 0x401 [(32, 2, 3), (34, 1, 3)], _, 3,
      by decide +kernel, rfl, by decide +kernel, by decide +kernel⟩, ⟨cmdState (pkt 0x401 [(32, 2, 3), (34, 1, 3)]) (barrierChip owned [(0x1003,
      { coreG with hold := .barw 3 false })]), ref9, pkt 0x401 [(32, 2, 3), (34, 1, 3)], _, 3, by decide +kernel, _, _, rfl, by decide +kernel, rfl,
      by decide +kernel⟩, ⟨cmdState (pkt 0x401 [(32, 2, 3), (34, 1, 4)]) (barrierChip owned []), ref9, pkt 0x401 [(32, 2, 3), (34, 1, 4)], _, 3,
      by decide +kernel, rfl, by decide +kernel⟩⟩

/-! ### Packets of memory, the fabric, collectives, moults, snapshots and repair -/

/-- A placement table of entries: size, tier 1 writable, virtual address. -/
def placeTable (es : List (Nat × Nat)) : List Byte :=
  putFields (List.replicate 32 0) [(0, 4, 0x45434C50), (4, 2, 1), (6, 2, es.length)] ++
    es.flatMap (fun e => putFields (List.replicate 32 0) [(0, 8, e.1), (8, 1, 1), (16, 8, e.2)])
def placeState (es : List (Nat × Nat)) (f : Chip → Chip) : State :=
  cmdState (pkt 0x300 [(32, 8, 0x420000), (40, 2, 4)]) (fun c => f { memAt [(0x420000, placeTable es)] c with
    tenants := [(1, { tenant1 with quotas := [4, 0, 0] })] })
def faultOf : OpenFault := { serial := 7, page := 5, cause := 3, reqs := [.core 0x1003] }
def faulted (c : Chip) : Chip := { c with tenants := [(1, { tenant1 with faults := [faultOf] })] }
def accessFaulted : Access := { accessOf .load .faulted 0x5000 0 with since := 4000 }
def parked (detached : Bool) : Stream := { streamOf plain0 .plain (.hw 0) .parked 0 7 with detached := detached, badPages := [3] }
def tensorHead (n : Nat) : List Byte :=
  putFields (List.replicate 128 0) [(0, 4, 0x34544D42), (4, 2, n), (8, 4, 2), (12, 4, 2), (16, 4, 1), (24, 8, 0x5000)]

theorem test_hyps_Placement :
    (∃ (s : State) (p : PktRef) (k : Pkt) (c : Chip), 
    let h : JobId := BitVec.ofNat 12 (k.n 40 2)
    Taken s p 0x0300 anySub k c ∧ k.n 40 2 < 4096 ∧ s.chip.job h = none) ∧
    (∃ (s : State) (p : PktRef) (k : Pkt) (c : Chip) (j : Job) (n : Tenant), 
    let h : JobId := BitVec.ofNat 12 (k.n 40 2)
    let hd := c.aread k.space (k.n 32 8) 32
    Taken s p 0x0300 anySub k c ∧ k.n 40 2 < 4096 ∧ s.chip.job h = some j ∧ j.tenant = k.tenant ∧ s.chip.tenant j.tenant = some n ∧ (placeHeaderBad hd = true ∨ j.placed = true)) ∧
    (∃ (s : State) (p : PktRef) (k : Pkt) (c : Chip) (j : Job) (n : Tenant), 
    let h : JobId := BitVec.ofNat 12 (k.n 40 2)
    let hd := c.aread k.space (k.n 32 8) 32
    let raw := c.aread k.space (k.n 32 8 + 32) (32 * fieldLe hd 6 2)
    let es := (List.range (fieldLe hd 6 2)).map (fun i => placeEntry (slice raw (32 * i) 32))
    let total := es.foldl (fun a e => a + e.size) 0
    let used0 := 2097152 * (n.quotas.getD 0 0 - n.used.getD 0 0)
    Taken s p 0x0300 anySub k c ∧ k.n 40 2 < 4096 ∧ s.chip.job h = some j ∧ j.tenant = k.tenant ∧ s.chip.tenant j.tenant = some n ∧ placeHeaderBad hd = false ∧ j.placed = false ∧ (∀ e ∈ es,
        e.bad = false ∧ e.tier = 1 ∧ e.demotable = false) ∧ used0 < total) ∧
    (∃ (s : State) (p : PktRef) (k : Pkt) (c : Chip) (j : Job) (n : Tenant), 
    let h : JobId := BitVec.ofNat 12 (k.n 40 2)
    let hd := c.aread k.space (k.n 32 8) 32
    let raw := c.aread k.space (k.n 32 8 + 32) (32 * fieldLe hd 6 2)
    let es := (List.range (fieldLe hd 6 2)).map (fun i => placeEntry (slice raw (32 * i) 32))
    let total := es.foldl (fun a e => a + e.size) 0
    let used0 := 2097152 * (n.quotas.getD 0 0 - n.used.getD 0 0)
    Taken s p 0x0300 anySub k c ∧ k.n 40 2 < 4096 ∧ s.chip.job h = some j ∧ j.tenant = k.tenant ∧ s.chip.tenant j.tenant = some n ∧ placeHeaderBad hd = false ∧ j.placed = false ∧ (∀ e ∈ es,
        e.bad = false ∧ e.tier = 1 ∧ e.demotable = false) ∧ total ≤ used0 ∧ n.used.length = 3) ∧
    (∃ (s : State) (p : PktRef) (k : Pkt) (c : Chip) (j : Job),
        Taken s p 0x0306 anySub k c ∧ k.n 32 2 < 4096 ∧ s.chip.job (BitVec.ofNat 12 (k.n 32 2)) = some j ∧ j.tenant = k.tenant ∧ c.jobOpen (BitVec.ofNat 12 (k.n 32 2)) j = true) ∧
    (∃ (s : State) (p : PktRef) (k : Pkt) (c : Chip) (j : Job),
        Taken s p 0x0306 anySub k c ∧ k.n 32 2 < 4096 ∧ s.chip.job (BitVec.ofNat 12 (k.n 32 2)) = some j ∧ j.tenant = k.tenant ∧ c.jobOpen (BitVec.ofNat 12 (k.n 32 2)) j = false ∧ c.opsOpen j.tenant = false) :=
  ⟨⟨cmdState (pkt 0x300 [(40, 2, 77)]) id, ref9, pkt 0x300 [(40, 2, 77)], _, rfl, by decide +kernel, by decide +kernel⟩,
      ⟨placeState [] (withJobs { jobI with placed := true }), ref9, pkt 0x300 [(32, 8, 0x420000), (40, 2, 4)], _, _, _, rfl, by decide +kernel, rfl,
      by decide +kernel, rfl, by decide +kernel⟩, ⟨placeState [(5 * 2097152, 0x40000000)] id, ref9, pkt 0x300 [(32, 8, 0x420000), (40, 2, 4)], _, _,
      _, rfl, by decide +kernel, rfl, by decide +kernel, rfl, by decide +kernel, by decide +kernel, by decide +kernel, by decide +kernel⟩,
      ⟨placeState [(2097152, 0x40000000), (3 * 2097152, 0x80000000)] id, ref9, pkt 0x300 [(32, 8, 0x420000), (40, 2, 4)], _, _, _, rfl,
      by decide +kernel, rfl, by decide +kernel, rfl, by decide +kernel, by decide +kernel, by decide +kernel, by decide +kernel, by decide +kernel⟩,
      ⟨queueState [pkt 0x306 [(32, 2, 4)]] { coreG with job := some 4 } { job := some 4 } id, ref9, pkt 0x306 [(32, 2, 4)], _, _, rfl,
      by decide +kernel, rfl, by decide +kernel, by decide +kernel⟩, ⟨cmdState (pkt 0x306 [(32, 2, 4)]) id, ref9, pkt 0x306 [(32, 2, 4)], _, _, rfl,
      by decide +kernel, rfl, by decide +kernel, by decide +kernel, by decide +kernel⟩⟩

theorem test_hyps_MemoryCommands :
    (∃ (s : State) (p : PktRef) (k : Pkt) (c : Chip) (n : Tenant) (f : OpenFault) (id : CoreId) (a : Access), 
    let x := s.chip.core id
    let named : Prop := s.chip.tenant k.tenant = some n ∧ n.faults = [f] ∧ f.serial.toNat = k.n 32 4 ∧ f.reqs = [.core id] ∧ Waits x a .faulted
    Taken s p 0x0301 anySub k c ∧ named) ∧
    (∃ (s : State) (p : PktRef) (k : Pkt) (c : Chip), Taken s p 0x0301 anySub k c ∧ s.chip.tenant k.tenant = none) ∧
    (∃ (s : State) (p : PktRef) (k : Pkt) (c : Chip) (n : Tenant) (f : OpenFault) (id : CoreId) (a : Access), 
    let x := s.chip.core id
    let named : Prop := s.chip.tenant k.tenant = some n ∧ n.faults = [f] ∧ f.serial.toNat = k.n 32 4 ∧ f.reqs = [.core id] ∧ Waits x a .faulted
    Taken s p 0x0302 anySub k c ∧ named ∧ a.index = x.pc) ∧
    (∃ (s : State) (p : PktRef) (k : Pkt) (c : Chip), Taken s p 0x0302 anySub k c ∧ s.chip.tenant k.tenant = none) ∧
    (∃ (s : State) (p : PktRef) (k : Pkt) (c : Chip) (n : Tenant) (id : CoreId), 
    let x := s.chip.core id
    Taken s p 0x0303 anySub k c ∧ s.chip.cmd.waiting.length < 1024 ∧ s.chip.tenant k.tenant = some n ∧ s.chip.cores = [] ∧ (∀ x ∈ s.chip.clusters,
        x.2.wb = [])) ∧
    (∃ (s : State) (p : PktRef) (k : Pkt) (c : Chip) (n : Tenant) (id : CoreId) (a : Access), 
    let x := s.chip.core id
    Taken s p 0x0303 anySub k c ∧ s.chip.cmd.waiting.length < 1024 ∧ s.chip.tenant k.tenant = some n ∧ (s.chip.cores = [(id.toNat,
        x)]) ∧ x.tenant = some k.tenant ∧ Waits x a .memory ∧ k.n 40 8 = 0) ∧
    (∃ (s : State) (p : PktRef) (k : Pkt) (c : Chip), 
    let cl : ClusterId := BitVec.ofNat 14 (k.n 32 2)
    ∃ (st : _), Taken s p 0x0304 (subAt 34 0) k c ∧ k.n 32 2 < 16384 ∧ (s.chip.cluster cl).streams = [st] ∧ st.tag = k.n 36 4 ∧ st.st = .parked ∧ st.tenant = k.tenant) ∧
    (∃ (s : State) (p : PktRef) (k : Pkt) (c : Chip), 
    let cl : ClusterId := BitVec.ofNat 14 (k.n 32 2)
    ∃ (st : _), Taken s p 0x0304 (subAt 34 1) k c ∧ k.n 32 2 < 16384 ∧ (s.chip.cluster cl).streams = [st] ∧ st.tag = k.n 36 4 ∧ st.st = .parked ∧ st.tenant = k.tenant ∧ st.detached = true) ∧
    (∃ (s : State) (p : PktRef) (k : Pkt) (c : Chip), 
    let cl : ClusterId := BitVec.ofNat 14 (k.n 32 2)
    Taken s p 0x0304 (subAt 34 0) k c ∧ (s.chip.cluster cl).streams = []) ∧
    (∃ (s : State) (p : PktRef) (k : Pkt) (c : Chip),
        Taken s p 0x0305 anySub k c ∧ k.n 40 1 = 0 ∧ k.n 48 8 = 0 ∧ tensorBad (c.aread k.space (k.n 32 8) 128) = false) ∧
    (∃ (s : State) (p : PktRef) (k : Pkt) (c : Chip), Taken s p 0x0305 anySub k c ∧ tensorBad (c.aread k.space (k.n 32 8) 128) = true) :=
  ⟨⟨queueState [pkt 0x301 [(32, 4, 7)]] { coreG with hold := .access accessFaulted } {} faulted, ref9, pkt 0x301 [(32, 4, 7)], _, _, _, 0x1003, _,
      rfl, (⟨rfl, rfl, by decide, rfl, rfl, rfl⟩)⟩, ⟨cmdState (pkt 0x301 [(32, 4, 7)]) (fun c => { c with tenants := [] }), ref9, pkt 0x301 [(32, 4,
      7)], _, rfl, by decide +kernel⟩, ⟨queueState [pkt 0x302 [(32, 4, 7)]] { coreG with hold := .access accessFaulted } {} faulted, ref9,
      pkt 0x302 [(32, 4, 7)], _, _, _, 0x1003, _, rfl, (⟨rfl, rfl, by decide, rfl, rfl, rfl⟩), by decide +kernel⟩, ⟨cmdState (pkt 0x302 [(32, 4,
      7)]) (fun c => { c with tenants := [] }), ref9, pkt 0x302 [(32, 4, 7)], _, rfl, by decide +kernel⟩, ⟨cmdState (pkt 0x303 [(32, 8, 0x5000), (40,
      8, 0x1000)]) (fun c => { c with cores := [] }), ref9, pkt 0x303 [(32, 8, 0x5000), (40, 8, 0x1000)], _, _, 0x1003, rfl, by decide +kernel, rfl,
      by decide +kernel, by decide +kernel⟩, ⟨queueState [pkt 0x303 [(32, 8,
      0x5000)]] { coreG with hold := .access (accessOf .load .memory 0x5000 0) } {} id, ref9, pkt 0x303 [(32, 8, 0x5000)], _, _, 0x1003,
      accessOf .load .memory 0x5000 0, rfl, by decide +kernel, rfl, rfl, by decide +kernel, (⟨rfl, rfl⟩), by decide +kernel⟩,
      ⟨queueState [pkt 0x304 [(32, 2, 0x40), (36, 4, 7)]] idleG { streams := [parked false] } id, ref9, pkt 0x304 [(32, 2, 0x40), (36, 4, 7)], _, _,
      rfl, by decide +kernel, rfl, by decide +kernel, by decide +kernel, by decide +kernel⟩, ⟨queueState [pkt 0x304 [(32, 2, 0x40), (36, 4, 7), (34,
      1, 1)]] idleG { streams := [parked true] } id, ref9, pkt 0x304 [(32, 2, 0x40), (36, 4, 7), (34, 1, 1)], _, _, rfl, by decide +kernel, rfl,
      by decide +kernel, by decide +kernel, by decide +kernel, by decide +kernel⟩, ⟨cmdState (pkt 0x304 [(32, 2, 0x40), (36, 4, 7)]) id, ref9,
      pkt 0x304 [(32, 2, 0x40), (36, 4, 7)], _, rfl, by decide +kernel⟩, ⟨cmdState (pkt 0x305 [(32, 8, 0x420000)]) (memAt [(0x420000, tensorHead 1)]),
      ref9, pkt 0x305 [(32, 8, 0x420000)], _, rfl, by decide +kernel, by decide +kernel, by decide +kernel⟩, ⟨cmdState (pkt 0x305 [(32, 8,
      0x420000)]) (memAt [(0x420000, tensorHead 9)]), ref9, pkt 0x305 [(32, 8, 0x420000)], _, rfl, by decide +kernel⟩⟩

def withMode (m : Option ModeChange) (c : Chip) : Chip := { grouped idleGroup c with cores := [], jobs := [(4, { jobI with mode := m })] }
def modePkt (commit : Nat) : Pkt := pkt 0x202 [(32, 2, 4), (38, 2, 2), (40, 8, 6000), (48, 8, commit)]

theorem test_hyps_PreemptAndMode :
    (∃ (s : State) (p : PktRef) (k : Pkt) (c : Chip) (h : JobId) (j : Job),
        s.chip.cmd.waiting.length < 1024 ∧ Taken s p 0x0203 anySub k c ∧ Names s k h j ∧ k.n 34 2 = 0xFFFF ∧ (∀ id ∈ j.coresIn none,
        (s.chip.core id).running = false)) ∧
    (∃ (s : State) (p : PktRef) (k : Pkt) (c : Chip) (h : JobId) (j : Job),
        s.chip.cmd.waiting.length < 1024 ∧ Taken s p 0x0203 anySub k c ∧ Names s k h j ∧ k.n 34 2 = 0xFFFF ∧ (∃ id ∈ j.coresIn none,
        (s.chip.core id).running = true)) ∧
    (∃ (s : State) (p : PktRef) (k : Pkt) (c : Chip) (h : JobId) (j : Job),
        s.chip.cmd.waiting.length < 1024 ∧ Taken s p 0x0204 anySub k c ∧ Names s k h j ∧ k.n 34 2 = 0xFFFF ∧ j.saved = [] ∧ (∀ cl ∈ j.clusters,
        (s.chip.cluster cl).withdrawn = false ∧ ∀ id ∈ coresOf cl, (s.chip.core id).running = false)) ∧
    (∃ (s : State) (p : PktRef) (k : Pkt) (c : Chip) (h : JobId) (j : Job),
        s.chip.cmd.waiting.length < 1024 ∧ Taken s p 0x0204 anySub k c ∧ Names s k h j ∧ k.n 34 2 = 0xFFFF ∧ (∀ cl ∈ j.clusters,
        (s.chip.cluster cl).withdrawn = false) ∧ (∃ cl ∈ j.clusters, ∃ id ∈ coresOf cl, (s.chip.core id).running = true)) ∧
    (∃ (s : State) (p : PktRef) (k : Pkt) (c : Chip) (h : JobId) (j : Job) (g : GroupId) (x : Group), 
    let deadline := k.n 40 8
    let commit := k.n 48 8
    s.chip.cmd.waiting.length < 1024 ∧ Taken s p 0x0202 anySub k c ∧ Names s k h j ∧ NamesGroup s k 38 g x ∧ commit < deadline + 20000) ∧
    (∃ (s : State) (p : PktRef) (k : Pkt) (c : Chip) (h : JobId) (j : Job) (g : GroupId) (x : Group), 
    let deadline := k.n 40 8
    let commit := k.n 48 8
    let ns := s.time.ht.toNat / 64
    s.chip.cmd.waiting.length < 1024 ∧ Taken s p 0x0202 anySub k c ∧ Names s k h j ∧ NamesGroup s k 38 g x ∧ 
    let good := k.n 34 1 = 0 ∧ k.n 36 2 = 0 ∧ deadline + 20000 ≤ commit ∧ commit < 2 ^ 64 - 1 - 1000000000
    good ∧ s.chip.modeOf g = none ∧ j.mode = none ∧ ns ≤ deadline ∧ s.chip.cores = []) ∧
    (∃ (s : State) (p : PktRef) (k : Pkt) (c : Chip) (h : JobId) (j : Job) (g : GroupId) (x : Group), 
    let deadline := k.n 40 8
    let commit := k.n 48 8
    s.chip.cmd.waiting.length < 1024 ∧ Taken s p 0x0202 anySub k c ∧ Names s k h j ∧ NamesGroup s k 38 g x ∧ 
    let good := k.n 34 1 = 0 ∧ k.n 36 2 = 0 ∧ deadline + 20000 ≤ commit ∧ commit < 2 ^ 64 - 1 - 1000000000
    ∃ (m : _), good ∧ s.chip.modeOf g = none ∧ j.mode = some m) :=
  ⟨⟨queueState [pkt 0x203 [(32, 2, 4), (34, 2, 0xFFFF)]] idleG {} (withJobs jobI), ref9, pkt 0x203 [(32, 2, 4), (34, 2, 0xFFFF)], _, 4, jobI,
      by decide +kernel, rfl, (⟨by decide, rfl, by decide⟩), by decide +kernel, (fun i _ => all_idle idleG rfl rfl i)⟩, ⟨queueState [pkt 0x203 [(32,
      2, 4), (34, 2, 0xFFFF)]] coreG {} (withJobs jobI), ref9, pkt 0x203 [(32, 2, 4), (34, 2, 0xFFFF)], _, 4, jobI, by decide +kernel, rfl,
      (⟨by decide, rfl, by decide⟩), by decide +kernel, (⟨0x1003, List.mem_flatMap.mpr ⟨0x40, List.mem_flatMap.mpr ⟨16, by decide, by decide⟩,
      by decide⟩, by decide⟩)⟩, ⟨queueState [pkt 0x204 [(32, 2, 4), (34, 2, 0xFFFF)]] idleG {} (withJobs jobI), ref9, pkt 0x204 [(32, 2, 4), (34, 2,
      0xFFFF)], _, 4, jobI, by decide +kernel, rfl, (⟨by decide, rfl, by decide⟩), by decide +kernel, by decide +kernel,
      (fun cl _ => ⟨none_withdrawn {} rfl rfl cl, fun i _ => all_idle idleG rfl rfl i⟩)⟩, ⟨queueState [pkt 0x204 [(32, 2, 4), (34, 2,
      0xFFFF)]] coreG {} (withJobs jobI), ref9, pkt 0x204 [(32, 2, 4), (34, 2, 0xFFFF)], _, 4, jobI, by decide +kernel, rfl, (⟨by decide, rfl,
      by decide⟩), by decide +kernel, (fun cl _ => none_withdrawn {} rfl rfl cl), (⟨0x40, List.mem_flatMap.mpr ⟨16, by decide, by decide⟩, 0x1003,
      by decide, by decide⟩)⟩, ⟨cmdState (modePkt 25999) (withMode none), ref9, modePkt 25999, _, 4, { jobI with mode := none }, 2, idleGroup,
      by decide +kernel, rfl, (⟨by decide, rfl, by decide⟩), (⟨by decide, rfl, by decide⟩), by decide +kernel⟩,
      ⟨cmdState (modePkt 26000) (withMode none), ref9, modePkt 26000, _, 4, { jobI with mode := none }, 2, idleGroup, by decide +kernel, rfl,
      (⟨by decide, rfl, by decide⟩), (⟨by decide, rfl, by decide⟩), (⟨by decide, by decide, by decide, by decide⟩), by decide +kernel,
      by decide +kernel, by decide +kernel, by decide +kernel⟩, ⟨cmdState (modePkt 26000) (withMode (some { changeOf with group := 9 })), ref9,
      modePkt 26000, _, 4, { jobI with mode := (some { changeOf with group := 9 }) }, 2, idleGroup, by decide +kernel, rfl, (⟨by decide, rfl,
      by decide⟩), (⟨by decide, rfl, by decide⟩), _, (⟨by decide, by decide, by decide, by decide⟩), by decide +kernel, rfl⟩⟩

def portChip (n : Nat) (x : Port) (c : Chip) : Chip := { c with fab := { c.fab with ports := [(n, x)] } }
def schedPkt : Pkt := pkt 0x402 [(32, 8, 0x20), (40, 8, 0x420000), (48, 8, 6000)]
def schedState (tx : Nat) (x : Port) : State :=
  cmdState schedPkt (fun c => portChip 5 x (memAt [(0x4200A0, leBytes 8 0x421000 ++ leBytes 8 tx ++ leBytes 16 0)] c))
def channels (n : Nat) (c : Chip) : Chip :=
  { c with coll := { groups := [(2, idleGroup)], channels := (List.range n).map (fun i => (i + 100, {})) } }
def routeChip (v : Byte) (x : Port) (c : Chip) : Chip :=
  { memAt [(0x42004D, [v])] c with fab := { c.fab with ports := [(5, x)], routes := 0x420000 } }
def sendPkt : Pkt := { pkt 0x405 [(32, 4, 77), (36, 1, 4), (40, 8, 99)] with index := 3 }
def openMsg : OpenMsg := { cls := .manager, flit := dataFlit, since := 5, sender := some (5, 3) }

theorem test_hyps_FabricCommands :
    (∃ (s : State) (p : PktRef) (k : Pkt) (c : Chip) (q : PortId), 
    let y := s.chip.port q
    let mask := k.n 32 8
    let part := c.schedPart k q
    let t := k.n 48 8
    s.chip.cmd.waiting.length < 1024 ∧ Taken s p 0x0402 anySub k c ∧ mask = 2 ^ q.toNat ∧ part.txCount ≤ 4096 ∧ part.rxCount ≤ 4096 ∧ c.schedBad [part] = false ∧ t < 2 ^ 64 - 1 - 1000000000 ∧ y.armed = none ∧ y.bank = false) ∧
    (∃ (s : State) (p : PktRef) (k : Pkt) (c : Chip) (q : PortId), 
    let y := s.chip.port q
    let mask := k.n 32 8
    let part := c.schedPart k q
    let t := k.n 48 8
    s.chip.cmd.waiting.length < 1024 ∧ Taken s p 0x0402 anySub k c ∧ mask = 2 ^ q.toNat ∧ part.txCount ≤ 4096 ∧ part.rxCount ≤ 4096 ∧ c.schedBad [part] = false ∧ t < 2 ^ 64 - 1 - 1000000000 ∧ ∃ (a : _), y.armed = some a) ∧
    (∃ (s : State) (p : PktRef) (k : Pkt) (c : Chip) (q : PortId), 
    let y := s.chip.port q
    let mask := k.n 32 8
    let part := c.schedPart k q
    s.chip.cmd.waiting.length < 1024 ∧ Taken s p 0x0402 anySub k c ∧ mask = 2 ^ q.toNat ∧ 4096 < part.txCount ∧ y.bank = false) ∧
    (∃ (s : State) (p : PktRef) (k : Pkt) (c : Chip), 
    let wire := k.n 32 2
    s.chip.cmd.waiting.length < 1024 ∧ ∃ (i op : _), ((i, op) ∈ [(Instr.hallChannelSeal p, 0), (Instr.hallChannelUnseal p,
        1)]) ∧ Taken s p 0x0403 (subAt 34 op) k c ∧ wire < 4096 ∧ s.chip.group (BitVec.ofNat 12 wire) = none) ∧
    (∃ (s : State) (p : PktRef) (k : Pkt) (c : Chip) (g : GroupId) (x : Group), 
    let wire := k.n 32 2
    s.chip.cmd.waiting.length < 1024 ∧ Taken s p 0x0403 (subAt 34 0) k c ∧ wire = g.toNat ∧ s.chip.group g = some x ∧ tblFind s.chip.coll.channels g.toNat = none ∧ s.chip.coll.channels.length < 64) ∧
    (∃ (s : State) (p : PktRef) (k : Pkt) (c : Chip) (g : GroupId) (x : Group), 
    let wire := k.n 32 2
    s.chip.cmd.waiting.length < 1024 ∧ Taken s p 0x0403 (subAt 34 0) k c ∧ wire = g.toNat ∧ s.chip.group g = some x ∧ tblFind s.chip.coll.channels g.toNat = none ∧ 64 ≤ s.chip.coll.channels.length) ∧
    (∃ (s : State) (p : PktRef) (k : Pkt) (c : Chip) (g : GroupId) (x : Group), 
    let wire := k.n 32 2
    s.chip.cmd.waiting.length < 1024 ∧ Taken s p 0x0403 (subAt 34 1) k c ∧ wire = g.toNat ∧ s.chip.group g = some x) ∧
    (∃ (s : State) (p : PktRef) (k : Pkt) (c : Chip), 
    let mask := k.n 32 8
    s.chip.cmd.waiting.length < 1024 ∧ Taken s p 0x0404 anySub k c ∧ mask + 1048576 ≤ tier1End) ∧
    (∃ (s : State) (p : PktRef) (k : Pkt) (c : Chip), 
    let mask := k.n 32 8
    s.chip.cmd.waiting.length < 1024 ∧ Taken s p 0x0404 anySub k c ∧ tier1End < mask + 1048576) ∧
    (∃ (s : State) (p : PktRef) (k : Pkt) (c : Chip) (q : PortId), 
    let y := s.chip.port q
    let dest := k.n 32 4
    let route := (s.chip.mem.bytes.get (s.chip.fab.routes + dest)).toNat
    s.chip.cmd.waiting.length < 1024 ∧ Taken s p 0x0405 anySub k c ∧ dest < 2 ^ 20 ∧ k.n 37 1 = 0 ∧ dest ≠ s.chip.cmd.chip.toNat ∧ route = 128 + q.toNat ∧ y.absent = false) ∧
    (∃ (s : State) (p : PktRef) (k : Pkt) (c : Chip), 
    let dest := k.n 32 4
    let route := (s.chip.mem.bytes.get (s.chip.fab.routes + dest)).toNat
    s.chip.cmd.waiting.length < 1024 ∧ Taken s p 0x0405 anySub k c ∧ dest < 2 ^ 20 ∧ k.n 37 1 = 0 ∧ dest ≠ s.chip.cmd.chip.toNat ∧ route < 128 ∧ (∀ r ∈ s.chip.fab.ports,
        ∀ m ∈ r.2.waiting, m.sender ≠ some (k.ring, k.index))) ∧
    (∃ (s : State) (p : PktRef) (k : Pkt) (c : Chip), s.chip.cmd.waiting.length < 1024 ∧ Taken s p 0x0406 anySub k c ∧ s.chip.cmd.waiting = []) ∧
    (∃ (s : State) (p : PktRef) (k : Pkt) (c : Chip) (q : PortId), 
    let y := s.chip.port q
    s.chip.cmd.waiting.length < 1024 ∧ ∃ (k2 m : _), Taken s p 0x0406 anySub k c ∧ s.chip.cmd.waiting = [k2] ∧ k2.op = 0x0405 ∧ k2.ring = k.ring ∧ k2.tag = k.n 32 2 ∧ (s.chip.fab.ports = [(q.toNat,
        y)]) ∧ y.waiting = [m] ∧ (m.sender = some (k2.ring, k2.index))) :=
  ⟨⟨schedState 0 {}, ref9, schedPkt, _, 5, by decide +kernel, rfl, by decide +kernel, by decide +kernel, by decide +kernel, by decide +kernel,
      by decide +kernel, by decide +kernel, by decide +kernel⟩, ⟨schedState 0 { armed := some 5500 }, ref9, schedPkt, _, 5, by decide +kernel, rfl,
      by decide +kernel, by decide +kernel, by decide +kernel, by decide +kernel, by decide +kernel, _, rfl⟩, ⟨schedState 4097 {}, ref9, schedPkt, _,
      5, by decide +kernel, rfl, by decide +kernel, by decide +kernel, by decide +kernel⟩, ⟨cmdState (pkt 0x403 [(32, 2, 4095)]) id, ref9,
      pkt 0x403 [(32, 2, 4095)], _, by decide +kernel, .hallChannelSeal ref9, 0, List.mem_cons_self, rfl, by decide +kernel, by decide +kernel⟩,
      ⟨cmdState (pkt 0x403 [(32, 2, 2)]) (channels 63), ref9, pkt 0x403 [(32, 2, 2)], _, 2, idleGroup, by decide +kernel, rfl, by decide +kernel, rfl,
      by decide +kernel, by decide +kernel⟩, ⟨cmdState (pkt 0x403 [(32, 2, 2)]) (channels 64), ref9, pkt 0x403 [(32, 2, 2)], _, 2, idleGroup,
      by decide +kernel, rfl, by decide +kernel, rfl, by decide +kernel, by decide +kernel⟩, ⟨cmdState (pkt 0x403 [(32, 2, 2), (34, 1,
      1)]) (channels 1), ref9, pkt 0x403 [(32, 2, 2), (34, 1, 1)], _, 2, idleGroup, by decide +kernel, rfl, by decide +kernel, rfl⟩,
      ⟨cmdState (pkt 0x404 [(32, 8, 0x420000)]) id, ref9, pkt 0x404 [(32, 8, 0x420000)], _, by decide +kernel, rfl, by decide +kernel⟩,
      ⟨cmdState (pkt 0x404 [(32, 8, 0xFFFFFFFFFFFFF)]) id, ref9, pkt 0x404 [(32, 8, 0xFFFFFFFFFFFFF)], _, by decide +kernel, rfl, by decide +kernel⟩,
      ⟨cmdState (pkt 0x405 [(32, 4, 77), (36, 1, 4), (40, 8, 99)]) (routeChip 133 {}), ref9, pkt 0x405 [(32, 4, 77), (36, 1, 4), (40, 8, 99)], _, 5,
      by decide +kernel, rfl, by decide +kernel, by decide +kernel, by decide +kernel, by decide +kernel, by decide +kernel⟩,
      ⟨cmdState (pkt 0x405 [(32, 4, 77), (36, 1, 4), (40, 8, 99)]) (routeChip 127 {}), ref9, pkt 0x405 [(32, 4, 77), (36, 1, 4), (40, 8, 99)], _,
      by decide +kernel, rfl, by decide +kernel, by decide +kernel, by decide +kernel, by decide +kernel, by decide +kernel⟩,
      ⟨cmdState (pkt 0x406 [(32, 2, 0x4321)]) id, ref9, pkt 0x406 [(32, 2, 0x4321)], _, by decide +kernel, rfl, by decide +kernel⟩,
      ⟨cmdState (pkt 0x406 [(32, 2, 0x4321)]) (fun c => { portChip 5 { waiting := [openMsg] } c with cmd := { c.cmd with waiting := [sendPkt] } }),
      ref9, pkt 0x406 [(32, 2, 0x4321)], _, 5, by decide +kernel, sendPkt, _, rfl, rfl, by decide +kernel, by decide +kernel, by decide +kernel, rfl,
      rfl, by decide +kernel⟩⟩

/-! ### Collectives, moults, snapshots and repair by packets -/

def groupRecord (fs : List (Nat × Nat × Nat)) : List Byte :=
  putFields (List.replicate 64 0) ([(0, 2, 2), (2, 2, 1), (4, 4, 2), (8, 4, 1), (12, 1, 1), (14, 1, 4), (15, 1, 9), (16, 8, 0x400100),
    (24, 8, 0x5040), (32, 4, 64)] ++ fs)
/-- The record of group 2 with chips 9 and 3. -/
def groupMem (fs : List (Nat × Nat × Nat)) (c : Chip) : Chip := memAt [(0x400000, groupRecord fs), (0x400100, leBytes 4 9 ++ leBytes 4 3)] c
def operMem (c : Chip) : Chip :=
  memAt [(0x400000, putFields (List.replicate 128 0) [(0, 1, 1), (3, 1, 0x11), (8, 8, 5), (16, 8, 0x400100), (24, 4, 1), (28, 4, 77), (32, 8, 0x5200),
    (56, 8, 6)]), (0x400100, putFields (List.replicate 48 0) [(0, 8, 0x5000), (8, 8, 0x6000), (32, 4, 100), (40, 8, 0x5100)])] c
def operPkt : Pkt := pkt 0x502 [(32, 2, 2), (40, 8, 0x400000)]
def openGroup : Group := groupC (opOf openRun [])
def allTaken : Group := groupC { opSend with contexts := (List.range 256).map (fun i => (0, BitVec.ofNat 8 i)) }

theorem test_hyps_CollectiveCommands :
    (∃ (s : State) (p : PktRef) (k : Pkt) (c : Chip) (g : GroupId), 
    let d := c.aread k.space (k.n 32 8) 64
    let members := (List.range (fieldLe d 4 4)).map (fun i => ofLe (c.aread k.space (fieldLe d 16 8 + 4 * i) 4))
    let good : Prop := fieldLe d 0 2 = g.toNat ∧ fieldLe d 2 2 = k.tenant.toNat ∧ 2 ≤ fieldLe d 4 4 ∧ fieldLe d 4 4 ≤ 65536 ∧
      fieldLe d 8 4 < fieldLe d 4 4 ∧ fieldLe d 12 1 ≤ 1 ∧ fieldLe d 13 1 ≤ 1 ∧ fieldLe d 15 1 ≠ 0 ∧ fieldLe d 24 8 % 64 = 0 ∧
      powTwoIn (fieldLe d 32 4) 6 16 = true ∧ (∀ i, 40 ≤ i → i < 64 → d.getD i 0 = 0) ∧ (∀ m ∈ members, m < 2 ^ 20) ∧ members.Nodup ∧
      members[fieldLe d 8 4]? = some s.chip.cmd.chip.toNat
    Taken s p 0x0500 anySub k c ∧ good ∧ s.chip.coll.groups.length < 4096 ∧ s.chip.group g = none) ∧
    (∃ (s : State) (p : PktRef) (k : Pkt) (c : Chip) (g : GroupId) (x : Group), 
    let d := c.aread k.space (k.n 32 8) 64
    let members := (List.range (fieldLe d 4 4)).map (fun i => ofLe (c.aread k.space (fieldLe d 16 8 + 4 * i) 4))
    let good : Prop := fieldLe d 0 2 = g.toNat ∧ fieldLe d 2 2 = k.tenant.toNat ∧ 2 ≤ fieldLe d 4 4 ∧ fieldLe d 4 4 ≤ 65536 ∧
      fieldLe d 8 4 < fieldLe d 4 4 ∧ fieldLe d 12 1 ≤ 1 ∧ fieldLe d 13 1 ≤ 1 ∧ fieldLe d 15 1 ≠ 0 ∧ fieldLe d 24 8 % 64 = 0 ∧
      powTwoIn (fieldLe d 32 4) 6 16 = true ∧ (∀ i, 40 ≤ i → i < 64 → d.getD i 0 = 0) ∧ (∀ m ∈ members, m < 2 ^ 20) ∧ members.Nodup ∧
      members[fieldLe d 8 4]? = some s.chip.cmd.chip.toNat
    Taken s p 0x0500 anySub k c ∧ good ∧ s.chip.coll.groups.length < 4096 ∧ s.chip.group g = some x ∧ x.tenant = k.tenant) ∧
    (∃ (s : State) (p : PktRef) (k : Pkt) (c : Chip), 
    let d := c.aread k.space (k.n 32 8) 64
    Taken s p 0x0500 anySub k c ∧ 16 ≤ k.ring.toNat ∧ fieldLe d 2 2 % 4096 ≠ k.tenant.toNat) ∧
    (∃ (s : State) (p : PktRef) (k : Pkt) (c : Chip) (g : GroupId) (x : Group),
        Taken s p 0x0501 anySub k c ∧ NamesGroup s k 32 g x ∧ x.isOpen = true) ∧
    (∃ (s : State) (p : PktRef) (k : Pkt) (c : Chip) (g : GroupId) (x : Group),
        Taken s p 0x0501 anySub k c ∧ NamesGroup s k 32 g x ∧ x.isOpen = false) ∧
    (∃ (s : State) (p : PktRef) (k : Pkt) (c : Chip) (g : GroupId) (x : Group),
        Taken s p 0x0502 anySub k c ∧ NamesGroup s k 32 g x ∧ x.isOpen = true) ∧
    (∃ (s : State) (p : PktRef) (k : Pkt) (c : Chip) (g : GroupId) (x : Group), 
    let e := c.aread k.space (k.n 40 8) 128
    Taken s p 0x0502 anySub k c ∧ NamesGroup s k 32 g x ∧ x.isOpen = false ∧ c.takeContexts g (fieldLe e 8 8) = none) ∧
    (∃ (s : State) (p : PktRef) (k : Pkt) (c : Chip) (g : GroupId) (x : Group), 
    let e := c.aread k.space (k.n 40 8) 128
    Taken s p 0x0502 anySub k c ∧ NamesGroup s k 32 g x ∧ ∃ (ctxs seg : _), x.isOpen = false ∧ c.takeContexts g (fieldLe e 8 8) = some ctxs ∧ descriptorBad x e = false ∧ fieldLe e 24 4 = 1 ∧ seg = c.aread k.space (fieldLe e 16 8) 48 ∧ segmentBad x (fieldLe e 2 1 == 1) (fieldLe e 0 1 == 1 || fieldLe e 0 1 == 2) seg = false ∧ fieldLe e 48 4 = 0) ∧
    (∃ (s : State) (p : PktRef) (k : Pkt) (c : Chip) (g : GroupId) (x : Group), Taken s p 0x0503 anySub k c ∧ NamesGroup s k 32 g x) ∧
    (∃ (s : State) (p : PktRef) (k : Pkt) (c : Chip), Taken s p 0x0503 anySub k c ∧ 4096 ≤ k.n 32 2) :=
  ⟨⟨cmdState (pkt 0x500 [(32, 8, 0x400000)]) (groupMem []), ref9, pkt 0x500 [(32, 8, 0x400000)], _, 2, rfl, (⟨by decide, by decide, by decide,
      by decide, by decide, by decide, by decide, by decide, by decide, by decide, zeros _ _ _ (by decide +kernel), by decide, by decide, by decide⟩),
      by decide +kernel, by decide +kernel⟩, ⟨cmdState (pkt 0x500 [(32, 8, 0x400000)]) (fun c => grouped idleGroup (groupMem [] c)), ref9,
      pkt 0x500 [(32, 8, 0x400000)], _, 2, idleGroup, rfl, (⟨by decide, by decide, by decide, by decide, by decide, by decide, by decide, by decide,
      by decide, by decide, zeros _ _ _ (by decide +kernel), by decide, by decide, by decide⟩), by decide +kernel, rfl, by decide +kernel⟩,
      ⟨cmdState (onRing 18 (pkt 0x500 [(32, 8, 0x5000)])) (groupMem [(2, 2, 2)]), ⟨18, 9⟩, onRing 18 (pkt 0x500 [(32, 8, 0x5000)]), _, rfl,
      by decide +kernel, by decide +kernel⟩, ⟨cmdState (pkt 0x501 [(32, 2, 2)]) (grouped openGroup), ref9, pkt 0x501 [(32, 2, 2)], _, 2, openGroup,
      rfl, (⟨by decide, rfl, by decide⟩), by decide +kernel⟩, ⟨cmdState (pkt 0x501 [(32, 2, 2)]) (grouped idleGroup), ref9, pkt 0x501 [(32, 2, 2)], _,
      2, idleGroup, rfl, (⟨by decide, rfl, by decide⟩), by decide +kernel⟩, ⟨cmdState operPkt (fun c => grouped openGroup (operMem c)), ref9, operPkt,
      _, 2, openGroup, rfl, (⟨by decide, rfl, by decide⟩), by decide +kernel⟩,
      ⟨cmdState operPkt (fun c => { grouped idleGroup (operMem c) with coll := { groups := [(2, idleGroup), (9, allTaken)] } }), ref9, operPkt, _, 2,
      idleGroup, rfl, (⟨by decide, rfl, by decide⟩), by decide +kernel, by decide +kernel⟩,
      ⟨cmdState operPkt (fun c => grouped idleGroup (operMem c)), ref9, operPkt, _, 2, idleGroup, rfl, (⟨by decide, rfl, by decide⟩), _, _,
      by decide +kernel, rfl, by decide +kernel, by decide +kernel, rfl, by decide +kernel, by decide +kernel⟩, ⟨cmdState (pkt 0x503 [(32, 2,
      2)]) (grouped idleGroup), ref9, pkt 0x503 [(32, 2, 2)], _, 2, idleGroup, rfl, (⟨by decide, rfl, by decide⟩)⟩, ⟨cmdState (pkt 0x503 [(32, 2,
      4096)]) id, ref9, pkt 0x503 [(32, 2, 4096)], _, rfl, by decide +kernel⟩⟩

/-- A plan of one layer at 0x420000, and packets that register and arm it. -/
def planBytes : List Byte :=
  putFields (List.replicate 64 0) [(0, 4, 0x544C4F4D), (4, 2, 1), (6, 2, 1), (8, 2, 2), (10, 1, 5), (16, 8, 0x5F00)] ++ planEntry 8
def planChip (c : Chip) : Chip :=
  let bytes := pagesLow ++ moultMem.filter (fun x => 0x400000 ≤ x.1 && x.1 < 0x410000) ++ cells (0x420000, planBytes) ++ pages.drop pagesLow.length
  { grouped idleGroup c with mem := { c.mem with bytes := bytes } }
def planRead : Plan := { planOf 8 with addr := 0x420000, sumExp := 5 }
def armPkt (deadline commit : Nat) : Pkt := pkt 0x601 [(32, 2, 4), (40, 8, 5500), (48, 8, deadline), (56, 8, commit)]

theorem test_hyps_InstarCommands :
    (∃ (s : State) (p : PktRef) (k : Pkt) (c : Chip) (h : JobId) (j : Job),
        s.chip.cmd.waiting.length < 1024 ∧ Taken s p 0x0600 anySub k c ∧ Names s k h j ∧ ∃ (m : _), j.moult = some m) ∧
    (∃ (s : State) (p : PktRef) (k : Pkt) (c : Chip) (h : JobId) (j : Job), 
    let start := k.n 40 8
    s.chip.cmd.waiting.length < 1024 ∧ Taken s p 0x0600 anySub k c ∧ Names s k h j ∧ j.moult = none ∧ c.readPlan k.space j.tenant start (k.n 48 4 % 2) = none) ∧
    (∃ (s : State) (p : PktRef) (k : Pkt) (c : Chip) (h : JobId) (j : Job) (pl : Plan), 
    let start := k.n 40 8
    s.chip.cmd.waiting.length < 1024 ∧ Taken s p 0x0600 anySub k c ∧ Names s k h j ∧ j.moult = none ∧ c.readPlan k.space j.tenant start (k.n 48 4 % 2) = some pl) ∧
    (∃ (s : State) (p : PktRef) (k : Pkt) (c : Chip) (h : JobId) (j : Job),
        s.chip.cmd.waiting.length < 1024 ∧ Taken s p 0x0601 anySub k c ∧ Names s k h j ∧ j.plan = none) ∧
    (∃ (s : State) (p : PktRef) (k : Pkt) (c : Chip) (h : JobId) (j : Job) (pl : Plan), 
    let start := k.n 40 8
    let deadline := k.n 48 8
    let commit := k.n 56 8
    s.chip.cmd.waiting.length < 1024 ∧ ∃ (old : _), Taken s p 0x0601 anySub k c ∧ Names s k h j ∧ j.plan = some old ∧ c.readPlan old.space j.tenant old.addr.toNat (j.instar.toNat % 2) = some pl ∧ (deadline ≤ start ∨ commit < deadline + 20000)) ∧
    (∃ (s : State) (p : PktRef) (k : Pkt) (c : Chip) (h : JobId) (j : Job) (pl : Plan) (g : Group), 
    let start := k.n 40 8
    let deadline := k.n 48 8
    let commit := k.n 56 8
    s.chip.cmd.waiting.length < 1024 ∧ ∃ (old : _), Taken s p 0x0601 anySub k c ∧ Names s k h j ∧ j.plan = some old ∧ c.readPlan old.space j.tenant old.addr.toNat (j.instar.toNat % 2) = some pl ∧ start < deadline ∧ deadline + 20000 ≤ commit ∧ commit < 2 ^ 64 - 1 - 1000000000 ∧ s.chip.group pl.group = some g ∧ g.tenant = k.tenant ∧ ∃ (m : _), j.moult = some m) ∧
    (∃ (s : State) (p : PktRef) (k : Pkt) (c : Chip) (h : JobId) (j : Job) (pl : Plan) (g : Group), 
    let start := k.n 40 8
    let deadline := k.n 48 8
    let commit := k.n 56 8
    let ns := s.time.ht.toNat / 64
    s.chip.cmd.waiting.length < 1024 ∧ ∃ (old : _), Taken s p 0x0601 anySub k c ∧ Names s k h j ∧ j.plan = some old ∧ c.readPlan old.space j.tenant old.addr.toNat (j.instar.toNat % 2) = some pl ∧ start < deadline ∧ deadline + 20000 ≤ commit ∧ commit < 2 ^ 64 - 1 - 1000000000 ∧ s.chip.group pl.group = some g ∧ g.tenant = k.tenant ∧ j.moult = none ∧ j.instar ≠ BitVec.allOnes 32 ∧ ns ≤ deadline) ∧
    (∃ (s : State) (p : PktRef) (k : Pkt) (c : Chip) (h : JobId) (j : Job) (pl : Plan) (g : Group), 
    let start := k.n 40 8
    let deadline := k.n 48 8
    let commit := k.n 56 8
    s.chip.cmd.waiting.length < 1024 ∧ ∃ (old : _), Taken s p 0x0601 anySub k c ∧ Names s k h j ∧ j.plan = some old ∧ c.readPlan old.space j.tenant old.addr.toNat (j.instar.toNat % 2) = some pl ∧ start < deadline ∧ deadline + 20000 ≤ commit ∧ commit < 2 ^ 64 - 1 - 1000000000 ∧ s.chip.group pl.group = some g ∧ g.tenant = k.tenant ∧ j.moult = none ∧ j.instar = BitVec.allOnes 32) ∧
    (∃ (s : State) (p : PktRef) (k : Pkt) (c : Chip) (h : JobId) (j : Job),
        s.chip.cmd.waiting.length < 1024 ∧ Taken s p 0x0602 anySub k c ∧ Names s k h j) :=
  ⟨⟨cmdState (pkt 0x600 [(32, 2, 4), (40, 8, 0x420000), (48, 4, 8)]) (fun c => withJobs { jobI with moult := some moultOf } (planChip c)), ref9,
      pkt 0x600 [(32, 2, 4), (40, 8, 0x420000), (48, 4, 8)], _, 4, { jobI with moult := some moultOf }, by decide +kernel, rfl, (⟨by decide, rfl,
      by decide⟩), _, rfl⟩, ⟨cmdState (pkt 0x600 [(32, 2, 4), (40, 8, 0x420000), (48, 4, 9)]) (fun c => withJobs jobI (memAt [] c)), ref9,
      pkt 0x600 [(32, 2, 4), (40, 8, 0x420000), (48, 4, 9)], _, 4, jobI, by decide +kernel, rfl, (⟨by decide, rfl, by decide⟩), by decide +kernel,
      by decide +kernel⟩, ⟨cmdState (pkt 0x600 [(32, 2, 4), (40, 8, 0x420000), (48, 4, 8)]) (fun c => withJobs jobI (planChip c)), ref9,
      pkt 0x600 [(32, 2, 4), (40, 8, 0x420000), (48, 4, 8)], _, 4, jobI, planRead, by decide +kernel, rfl, (⟨by decide, rfl, by decide⟩),
      by decide +kernel, by decide +kernel⟩, ⟨cmdState (armPkt 6000 26000) (fun c => withJobs jobI (planChip c)), ref9, armPkt 6000 26000, _, 4, jobI,
      by decide +kernel, rfl, (⟨by decide, rfl, by decide⟩), by decide +kernel⟩,
      ⟨cmdState (armPkt 6000 25999) (fun c => withJobs { jobI with plan := some planRead } (planChip c)), ref9, armPkt 6000 25999, _, 4,
      { jobI with plan := some planRead }, planRead, by decide +kernel, planRead, rfl, (⟨by decide, rfl, by decide⟩), rfl, by decide +kernel,
      by decide +kernel⟩, ⟨cmdState (armPkt 6000 26000) (fun c => withJobs { jobI with plan := some planRead, moult := some moultOf } (planChip c)),
      ref9, armPkt 6000 26000, _, 4, { jobI with plan := some planRead, moult := some moultOf }, planRead, idleGroup, by decide +kernel, planRead,
      rfl, (⟨by decide, rfl, by decide⟩), rfl, by decide +kernel, by decide +kernel, by decide +kernel, by decide +kernel, rfl, by decide +kernel, _,
      rfl⟩, ⟨cmdState (armPkt 6000 26000) (fun c => withJobs { jobI with plan := some planRead } (planChip c)), ref9, armPkt 6000 26000, _, 4,
      { jobI with plan := some planRead }, planRead, idleGroup, by decide +kernel, planRead, rfl, (⟨by decide, rfl, by decide⟩), rfl,
      by decide +kernel, by decide +kernel, by decide +kernel, by decide +kernel, rfl, by decide +kernel, by decide +kernel, by decide +kernel,
      by decide +kernel⟩,
      ⟨cmdState (armPkt 6000 26000) (fun c => withJobs { jobI with plan := some planRead, instar := BitVec.allOnes 32 } (planChip c)), ref9,
      armPkt 6000 26000, _, 4, { jobI with plan := some planRead, instar := BitVec.allOnes 32 }, planRead, idleGroup, by decide +kernel, planRead,
      rfl, (⟨by decide, rfl, by decide⟩), rfl, by decide +kernel, by decide +kernel, by decide +kernel, by decide +kernel, rfl, by decide +kernel,
      by decide +kernel, by decide +kernel⟩, ⟨cmdState (pkt 0x602 [(32, 2, 4)]) (fun c => withJobs jobI (planChip c)), ref9, pkt 0x602 [(32, 2, 4)],
      _, 4, jobI, by decide +kernel, rfl, (⟨by decide, rfl, by decide⟩)⟩⟩

def entryPkt (kind replacement place : Nat) : Pkt := pkt 0xA01 [(32, 1, kind), (34, 2, replacement), (36, 4, place)]
def fused (c : Chip) : Chip := { c with sys := { c.sys with rootSlot := 1, fuses := { c.sys.fuses with revoke := 4, rollback := 5 } } }

theorem test_hyps_RepairCommands :
    (∃ (s : State) (p : PktRef) (k : Pkt) (c : Chip), Taken s p 0x0A00 anySub k c) ∧
    (∃ (s : State) (p : PktRef) (k : Pkt) (c : Chip), 
    let e := RepairEntry.ofBytes (slice k.bytes 32 16)
    Taken s p 0x0A01 anySub k c ∧ (e.kind = 0 ∨ 10 ≤ e.kind.toNat)) ∧
    (∃ (s : State) (p : PktRef) (k : Pkt) (c : Chip), 
    let y := s.chip.sys
    let e := RepairEntry.ofBytes (slice k.bytes 32 16)
    Taken s p 0x0A01 anySub k c ∧ e.kind = 3 ∧ e.replacement = 0 ∧ y.repairs.length < 16384) ∧
    (∃ (s : State) (p : PktRef) (k : Pkt) (c : Chip), 
    let e := RepairEntry.ofBytes (slice k.bytes 32 16)
    Taken s p 0x0A01 anySub k c ∧ e.kind = 3 ∧ e.replacement ≠ 0) ∧
    (∃ (s : State) (p : PktRef) (k : Pkt) (c : Chip), 
    let y := s.chip.sys
    let f := y.fuses
    ∃ (slot : Fin 4), Taken s p 0x0A02 (subAt 32 0) k c ∧ k.n 33 1 = slot.val ∧ (y.rootSlot.toNat = slot.val ∨ f.revoke.getLsbD slot.val = true)) ∧
    (∃ (s : State) (p : PktRef) (k : Pkt) (c : Chip), 
    let y := s.chip.sys
    let f := y.fuses
    ∃ (slot : Fin 4), Taken s p 0x0A02 (subAt 32 0) k c ∧ k.n 33 1 = slot.val ∧ y.rootSlot.toNat ≠ slot.val ∧ f.revoke.getLsbD slot.val = false ∧ f.revoke.getLsbD y.rootSlot.toNat = false) ∧
    (∃ (s : State) (p : PktRef) (k : Pkt) (c : Chip), 
    let y := s.chip.sys
    let f := y.fuses
    Taken s p 0x0A02 (subAt 32 1) k c ∧ (k.n 33 1 ≤ f.rollback.toNat ∨ 64 < k.n 33 1)) ∧
    (∃ (s : State) (p : PktRef) (k : Pkt) (c : Chip), 
    let y := s.chip.sys
    let f := y.fuses
    Taken s p 0x0A02 (subAt 32 1) k c ∧ f.rollback.toNat < k.n 33 1 ∧ k.n 33 1 ≤ 64) :=
  ⟨⟨cmdState (pkt 0xA00 []) id, ref9, pkt 0xA00 [], _, rfl⟩, ⟨cmdState (entryPkt 10 0 0) id, ref9, entryPkt 10 0 0, _, rfl, by decide +kernel⟩,
      ⟨cmdState (entryPkt 3 0 5) id, ref9, entryPkt 3 0 5, _, rfl, by decide +kernel, by decide +kernel, by decide +kernel⟩,
      ⟨cmdState (entryPkt 3 1 5) id, ref9, entryPkt 3 1 5, _, rfl, by decide +kernel, by decide +kernel⟩, ⟨cmdState (pkt 0xA02 [(33, 1, 1)]) fused,
      ref9, pkt 0xA02 [(33, 1, 1)], _, 1, rfl, by decide +kernel, by decide +kernel⟩, ⟨cmdState (pkt 0xA02 [(33, 1, 3)]) fused, ref9, pkt 0xA02 [(33,
      1, 3)], _, 3, rfl, by decide +kernel, by decide +kernel, by decide +kernel, by decide +kernel⟩, ⟨cmdState (pkt 0xA02 [(32, 1, 1), (33, 1,
      5)]) fused, ref9, pkt 0xA02 [(32, 1, 1), (33, 1, 5)], _, rfl, by decide +kernel⟩, ⟨cmdState (pkt 0xA02 [(32, 1, 1), (33, 1, 64)]) fused, ref9,
      pkt 0xA02 [(32, 1, 1), (33, 1, 64)], _, rfl, by decide +kernel, by decide +kernel⟩⟩

theorem test_hyps_CoresKeepApart : ∃ (id : CoreId) (w : Fields) (i : Instr), i ∈ ownInstructions id w :=
  ⟨0x1003, w0, .nop 0x1003 w0, by simp [ownInstructions]⟩

/-- A digest map with the region 7 of 100 bytes at 0x5000, a job that keeps digests by it, and a container of one section. -/
def mapBytes : List Byte :=
  putFields (List.replicate 64 0) [(0, 4, 0x504D4744), (4, 2, 1), (8, 4, 1), (32, 4, 7), (36, 1, 1), (37, 1, 1), (38, 1, 15), (40, 8, 0x5000), (48, 8,
      100)]
def jobD : Job := { jobI with digestBase := 0x5800, digestRecords := 64, digestMap := 0x5200, instar := 3 }
def areaA : Nat := tier2Base + 0x1000
def container (off : Nat) : List Byte :=
  let d := regionDigest 7 [1, 2, 3, 4]
  putFields (List.replicate 192 0) [(0, 4, 0x53595243), (4, 2, 1), (6, 2, 1), (16, 4, 3), (48, 16, d), (80, 16, d), (128, 4, 7), (132, 1, 1), (133, 1,
      1),
    (136, 8, 192), (144, 8, 4), (152, 8, 0x5000), (160, 16, d + off)] ++ [1, 2, 3, 4]
def areaState (k : Pkt) (j : Job) (bs : List Byte) : State :=
  cmdState k (fun c => withJobs j { c with mem := { c.mem with t2Cap := 8, bytes := memOf [(0x400200, mapBytes)] ++ cells (areaA, bs) } })
def takePkt (size : Nat) : Pkt := pkt 0x700 [(32, 2, 4), (40, 8, areaA), (48, 8, size)]
def areaPkt (op : Nat) : Pkt := pkt op [(32, 2, 4), (40, 8, areaA)]
theorem sound_of (v : Verdict) (h : (match v with | .sound _ => true | _ => false) = true) :
    v = .sound (match v with | .sound ss => ss | _ => []) := by
  cases v <;> first | rfl | cases h
theorem failing_of (v : Verdict) (h : (match v with | .failing _ => true | _ => false) = true) :
    v = .failing (match v with | .failing i => i | _ => 0) := by
  cases v <;> first | rfl | cases h
theorem malformed_of (v : Verdict) (h : (match v with | .malformed => true | _ => false) = true) : v = .malformed := by
  cases v <;> first | rfl | cases h

theorem test_hyps_SnapshotCommands :
    (∃ (s : State) (p : PktRef) (k : Pkt) (c : Chip) (h : JobId) (j : Job),
        s.chip.cmd.waiting = [] ∧ Taken s p 0x0700 anySub k c ∧ Names s k h j ∧ j.digestRecords = 0) ∧
    (∃ (s : State) (p : PktRef) (k : Pkt) (c : Chip) (h : JobId) (j : Job), 
    let area := k.n 40 8
    let es := c.copied j j.instar.toNat
    let need := containerLength (sections es) es.length
    s.chip.cmd.waiting = [] ∧ Taken s p 0x0700 anySub k c ∧ Names s k h j ∧ j.digestRecords ≠ 0 ∧ es ≠ [] ∧ es.length ≤ 65535 ∧ area < 2 ^ 48 ∧ c.resharding j.tenant = false ∧ j.chrysalis = none ∧ k.n 48 8 < need) ∧
    (∃ (s : State) (p : PktRef) (k : Pkt) (c : Chip) (h : JobId) (j : Job), 
    let area := k.n 40 8
    let es := c.copied j j.instar.toNat
    let need := containerLength (sections es) es.length
    s.chip.cmd.waiting = [] ∧ Taken s p 0x0700 anySub k c ∧ Names s k h j ∧ j.digestRecords ≠ 0 ∧ es ≠ [] ∧ es.length ≤ 65535 ∧ area < 2 ^ 48 ∧ c.resharding j.tenant = false ∧ j.chrysalis = none ∧ need ≤ k.n 48 8 ∧ c.inTier2 k.space area need = true) ∧
    (∃ (s : State) (p : PktRef) (k : Pkt) (c : Chip), 
    let area := k.n 40 8
    s.chip.cmd.waiting = [] ∧ Taken s p 0x0701 anySub k c ∧ k.n 48 1 ≤ 1 ∧ k.n 52 4 = 0 ∧ area < 2 ^ 52 ∧ k.n 50 2 < 4096 ∧ k.n 48 1 = 0 ∧ 16 ≤ k.ring.toNat) ∧
    (∃ (s : State) (p : PktRef) (k : Pkt) (c : Chip), 
    let area := k.n 40 8
    s.chip.cmd.waiting = [] ∧ Taken s p 0x0701 anySub k c ∧ k.n 48 1 ≤ 1 ∧ k.n 52 4 = 0 ∧ area < 2 ^ 52 ∧ k.n 50 2 < 4096 ∧ k.n 48 1 = 1 ∧ containerHead (c.aread k.space area 128) = false) ∧
    (∃ (s : State) (p : PktRef) (k : Pkt) (c : Chip), 
    let area := k.n 40 8
    s.chip.cmd.waiting = [] ∧ Taken s p 0x0701 anySub k c ∧ k.n 48 1 ≤ 1 ∧ k.n 52 4 = 0 ∧ area < 2 ^ 52 ∧ k.n 50 2 < 4096 ∧ k.n 48 1 = 1 ∧ containerHead (c.aread k.space area 128) = true) ∧
    (∃ (s : State) (p : PktRef) (k : Pkt) (c : Chip), 
    let area := k.n 40 8
    s.chip.cmd.waiting = [] ∧ Taken s p 0x0702 anySub k c ∧ c.verify k.space area = .malformed) ∧
    (∃ (s : State) (p : PktRef) (k : Pkt) (c : Chip), 
    let area := k.n 40 8
    s.chip.cmd.waiting = [] ∧ ∃ (i : _), Taken s p 0x0702 anySub k c ∧ c.verify k.space area = .failing i) ∧
    (∃ (s : State) (p : PktRef) (k : Pkt) (c : Chip), 
    let area := k.n 40 8
    s.chip.cmd.waiting = [] ∧ ∃ (ss : _), Taken s p 0x0702 anySub k c ∧ c.verify k.space area = .sound ss) ∧
    (∃ (s : State) (p : PktRef) (k : Pkt) (c : Chip) (h : JobId) (j : Job), 
    let area := k.n 40 8
    s.chip.cmd.waiting = [] ∧ Taken s p 0x0703 anySub k c ∧ Names s k h j ∧ c.verify k.space area = .malformed) ∧
    (∃ (s : State) (p : PktRef) (k : Pkt) (c : Chip) (h : JobId) (j : Job), 
    let area := k.n 40 8
    s.chip.cmd.waiting = [] ∧ ∃ (ss : _), Taken s p 0x0703 anySub k c ∧ Names s k h j ∧ c.verify k.space area = .sound ss) ∧
    (∃ (s : State) (p : PktRef) (k : Pkt) (c : Chip) (h : JobId) (j : Job),
        s.chip.cmd.waiting = [] ∧ Taken s p 0x0800 anySub k c ∧ Names s k h j ∧ powTwoIn (k.n 48 4) 6 16 = true ∧ k.n 40 8 < 2 ^ 48 ∧ k.n 56 8 < 2 ^ 48 ∧ c.mapBad j.tenant (k.n 56 8) = true) ∧
    (∃ (s : State) (p : PktRef) (k : Pkt) (c : Chip) (h : JobId) (j : Job),
        s.chip.cmd.waiting = [] ∧ Taken s p 0x0800 anySub k c ∧ Names s k h j ∧ powTwoIn (k.n 48 4) 6 16 = true ∧ k.n 40 8 < 2 ^ 48 ∧ k.n 56 8 < 2 ^ 48 ∧ c.mapBad j.tenant (k.n 56 8) = false) ∧
    (∃ (s : State) (p : PktRef) (k : Pkt) (c : Chip), s.chip.cmd.waiting = [] ∧ Taken s p 0x0801 anySub k c ∧ k.n 40 8 + k.n 48 8 ≤ 2 ^ 52) ∧
    (∃ (s : State) (p : PktRef) (k : Pkt) (c : Chip), s.chip.cmd.waiting = [] ∧ Taken s p 0x0801 anySub k c ∧ 2 ^ 52 < k.n 40 8 + k.n 48 8) :=
  ⟨⟨areaState (takePkt 1000) { jobD with digestRecords := 0 } ([]), ref9, takePkt 1000, _, 4, { jobD with digestRecords := 0 }, by decide +kernel,
      rfl, (⟨by decide, rfl, by decide⟩), by decide +kernel⟩, ⟨areaState (takePkt 291) jobD ([]), ref9, takePkt 291, _, 4, jobD, by decide +kernel,
      rfl, (⟨by decide, rfl, by decide⟩), by decide +kernel, by decide +kernel, by decide +kernel, by decide +kernel, by decide +kernel,
      by decide +kernel, by decide +kernel⟩, ⟨areaState (takePkt 292) jobD ([]), ref9, takePkt 292, _, 4, jobD, by decide +kernel, rfl, (⟨by decide,
      rfl, by decide⟩), by decide +kernel, by decide +kernel, by decide +kernel, by decide +kernel, by decide +kernel, by decide +kernel,
      by decide +kernel, by decide +kernel⟩, ⟨areaState (onRing 18 (pkt 0x701 [(40, 8, areaA), (48, 1, 0)])) jobD ([]), ⟨18, 9⟩,
      onRing 18 (pkt 0x701 [(40, 8, areaA), (48, 1, 0)]), _, by decide +kernel, rfl, by decide +kernel, by decide +kernel, by decide +kernel,
      by decide +kernel, by decide +kernel, by decide +kernel⟩, ⟨areaState (pkt 0x701 [(40, 8, areaA), (48, 1, 1)]) jobD ([]), ref9, pkt 0x701 [(40,
      8, areaA), (48, 1, 1)], _, by decide +kernel, rfl, by decide +kernel, by decide +kernel, by decide +kernel, by decide +kernel,
      by decide +kernel, by decide +kernel⟩, ⟨areaState (pkt 0x701 [(40, 8, areaA), (48, 1, 1)]) jobD (container 0), ref9, pkt 0x701 [(40, 8,
      areaA), (48, 1, 1)], _, by decide +kernel, rfl, by decide +kernel, by decide +kernel, by decide +kernel, by decide +kernel, by decide +kernel,
      by decide +kernel⟩, ⟨areaState (areaPkt 0x702) jobD ([]), ref9, areaPkt 0x702, _, by decide +kernel, rfl, (malformed_of _ (by decide +kernel))⟩,
      ⟨areaState (areaPkt 0x702) jobD (container 1), ref9, areaPkt 0x702, _, by decide +kernel, _, rfl, (failing_of _ (by decide +kernel))⟩,
      ⟨areaState (areaPkt 0x702) jobD (container 0), ref9, areaPkt 0x702, _, by decide +kernel, _, rfl, (sound_of _ (by decide +kernel))⟩,
      ⟨areaState (areaPkt 0x703) jobD ([]), ref9, areaPkt 0x703, _, 4, jobD, by decide +kernel, rfl, (⟨by decide, rfl, by decide⟩),
      (malformed_of _ (by decide +kernel))⟩, ⟨areaState (areaPkt 0x703) jobD (container 0), ref9, areaPkt 0x703, _, 4, jobD, by decide +kernel, _,
      rfl, (⟨by decide, rfl, by decide⟩), (sound_of _ (by decide +kernel))⟩, ⟨areaState (pkt 0x800 [(32, 2, 4), (40, 8, 0x5800), (48, 4, 64), (56, 8,
      0x5201)]) jobI ([]), ref9, pkt 0x800 [(32, 2, 4), (40, 8, 0x5800), (48, 4, 64), (56, 8, 0x5201)], _, 4, jobI, by decide +kernel, rfl,
      (⟨by decide, rfl, by decide⟩), by decide +kernel, by decide +kernel, by decide +kernel, by decide +kernel⟩, ⟨areaState (pkt 0x800 [(32, 2,
      4), (40, 8, 0x5800), (48, 4, 64), (56, 8, 0x5200)]) jobI ([]), ref9, pkt 0x800 [(32, 2, 4), (40, 8, 0x5800), (48, 4, 64), (56, 8, 0x5200)], _,
      4, jobI, by decide +kernel, rfl, (⟨by decide, rfl, by decide⟩), by decide +kernel, by decide +kernel, by decide +kernel, by decide +kernel⟩,
      ⟨areaState (pkt 0x801 [(40, 8, 0xFFFFFFFFFFFFF), (48, 8, 1)]) jobI ([]), ref9, pkt 0x801 [(40, 8, 0xFFFFFFFFFFFFF), (48, 8, 1)], _,
      by decide +kernel, rfl, by decide +kernel⟩, ⟨areaState (pkt 0x801 [(40, 8, 0x10000000000000), (48, 8, 1)]) jobI ([]), ref9, pkt 0x801 [(40, 8,
      0x10000000000000), (48, 8, 1)], _, by decide +kernel, rfl, by decide +kernel⟩⟩

/-! ### Ill-formed terms -/

theorem test_wf_ring : Instr.wf (.packetRead 4112) = false ∧ Instr.wf (.deviceNop ⟨4112, 0⟩) = false ∧ Instr.wf (.doorbell .manager 4112 0) = false
    ∧ Instr.wf (.packetRead 4111) = true ∧ Instr.wf (.deviceNop ⟨4111, 0⟩) = true := by decide
theorem test_wf_payload (g : Flit) (h : g.payload.length = 239) (p : PortId) (n : FrameNo) (k : SlotNo) :
    Instr.wf (.scheduledReceive p n k (.flit g)) = false := by
  simp [Instr.wf, Arrival.wf, Flit.wf, h]
theorem test_wf_payload_whole (g : Flit) (h : g.payload.length = 240) (p : PortId) (n : FrameNo) (k : SlotNo) :
    Instr.wf (.scheduledReceive p n k (.flit g)) = true := by
  simp [Instr.wf, Arrival.wf, Flit.wf, h]
theorem test_wf_lanes (j : JobId) : Instr.wf (.moultReduce j [⟨[], [0], [], []⟩]) = false
    ∧ Instr.wf (.moultReduce j [⟨[], [], [0], []⟩]) = false ∧ Instr.wf (.moultReduce j [⟨[], [], [0], [0]⟩]) = true := ⟨rfl, rfl, rfl⟩
theorem test_wf_walk : Instr.wf (.descriptorWalkEnd 0 ⟨[0x10000000000000], [], [], 0⟩) = false
    ∧ Instr.wf (.descriptorWalkEnd 0 ⟨[], [], [0xFFFFFFFFFFFFF], 0⟩) = true := by decide
theorem test_wf_time (t : TimeFlit) (h : t.arrival = 2 ^ 70) (p : PortId) : Instr.wf (.timeFlitReceive p (.flit t)) = false := by
  simp [Instr.wf, TimeArrival.wf, h]
theorem test_wf_application : Instr.wf (.applicationCoreAccess 0 (.amo 9 0 false 0)) = false
    ∧ Instr.wf (.applicationCoreAccess 0 (.amo 8 4 true 0)) = false ∧ Instr.wf (.applicationCoreAccess 0 (.lr 2 false)) = false
    ∧ Instr.wf (.applicationCoreAccess 0 (.sc 4 true 0)) = false ∧ Instr.wf (.applicationCoreAccess 0 (.amo 8 4 false 0)) = true := by decide
theorem test_wf_boot (l : List (BitVec 128)) (h : l.length = 16385) : Instr.wf (.bootStageEnd (.repairTable l)) = false
    ∧ Instr.wf (.bootStageEnd (.ports [1, 2, 3])) = false ∧ Instr.wf (.bootStageEnd (.ports [1, 2, 3, 4])) = true := by
  simp [Instr.wf, BootResult.wf, h]
theorem test_wf_units : Instr.wf (.memoryRequestService 36 .clean) = false ∧ Instr.wf (.starvationGuard 36) = false
    ∧ Instr.wf (.starvationGuard 35) = true := by decide
theorem test_wf_datagram (l : List Byte) (h : l.length = 65508) (mac : BitVec 48) (u : BitVec 16) :
    Instr.wf (.managementDatagram mac u l) = false := by
  simp [Instr.wf, h]
theorem test_wf_offset (m : Master) (v : BitVec 64) : Instr.wf (.registerWrite m 4 v) = false ∧ Instr.wf (.registerWrite m 8 v) = true := by
  simp [Instr.wf]

/-! ### Single steps -/

/-- The state after one step of a command. -/
def after (i : Instr) (s : State) : State :=
  match step { s with pending := [i] } with
  | .next t => t
  | .fault _ => s
  | .refused _ => s

/-- Core 0x1003 after one step of an instruction with bytes at offset 1,024 of its scratchpad. -/
def ran (f : CoreId → Fields → Instr) (w : Fields) (bs : List Byte) : Core :=
  (after (f 0x1003 w) (onCore { core0 with scratch := Memory.write [] 1024 bs })).chip.core 0x1003
/-- What a conversion of one element leaves: destination and flags. -/
def converted (f1 f2 : BitVec 4) (m : BitVec 8) (size v : Nat) : Nat × BitVec 4 :=
  let k := ran .vcvt { w0 with f1 := f1, f2 := f2, d := 4, a := 2, imm := 1, mod := m } (leBytes size v)
  (k.scratch.readLe 3072 4, k.cvt)

/- The rows of Table 02.6 and the example before it. -/
theorem test_convert_e4m3 : converted 3 0 0 4 0x3E99999A = (0x2A, 1) := by decide +kernel
theorem test_convert_bf16 : converted 1 0 0 4 0x7F7FFFFF = (0x7F80, 5) ∧ converted 1 0 2 4 0x7F7FFFFF = (0x7F7F, 5) := by decide +kernel
theorem test_convert_fp16 : converted 2 0 0 4 0x477FF000 = (0x7C00, 5) ∧ converted 2 0 2 4 0x477FF000 = (0x7BFF, 5) := by decide +kernel
theorem test_convert_e4m3_high : converted 3 0 0 4 0x43F00000 = (0x7E, 5) := by decide +kernel
theorem test_convert_e5m2_infinity : converted 4 0 0 4 0x7F800000 = (0x7C, 0) ∧ converted 4 0 2 4 0x7F800000 = (0x7B, 4) := by decide +kernel
theorem test_convert_int : converted 7 0 0 4 0xC348B333 = (0x80, 5) ∧ converted 7 0 0 4 0x7FC00000 = (0, 8) ∧ converted 8 7 0 1 100 = (7,
    5) := by decide +kernel
theorem test_convert_wide : converted 0 1 0 2 0xFF81 = (0xFFC00000, 8) ∧ converted 0 3 0 1 0xFF = (0xFFC00000, 0) := by decide +kernel
/- The MXFP4 example: 5.0, −0.7, 0.2, 1.3 and zeros. -/
theorem test_quantise :
    let k := ran .vcvt { w0 with f1 := 6, d := 4, a := 2, imm := 32 }
      ([0x40A00000, 0xBF333333, 0x3E4CCCCD, 0x3FA66666].flatMap (leBytes 4))
    k.scratch.read 3072 17 = [0x96, 0x30] ++ List.replicate 14 0 ++ [0x7F] ∧ k.cvt = 3 := by decide +kernel

/- The twelve values of the example of chapter 05. -/
def twelve : List Byte :=
  [0x3F000000, 0xBF800000, 0x40000000, 0, 0xC0400000, 0x40800000, 0x3E800000, 0xBF000000, 0x3F800000, 0, 0x40E00000, 0xC0000000].flatMap (leBytes 4)
theorem test_compare : (ran .vcmp { w0 with d := 4, a := 2, b := 0, imm := 12 + 4 * 8192, mod := 0x20 } twelve).scratch.read 3072 2 = [0x65, 0x05] := by
  decide +kernel
theorem test_compress :
    let k := (after (.vcompress 0x1003 { w0 with d := 4, a := 2, b := 7, c := 3, imm := 12 })
      (onCore { core0 with scratch := Memory.write [(2048, 0x65), (2049, 0x05)] 1024 twelve })).chip.core 0x1003
    k.regs[7] = 6 ∧ k.scratch.read 3072 24 = [0x3F000000, 0x40000000, 0x40800000, 0x3E800000, 0x3F800000, 0x40E00000].flatMap (leBytes 4) := by
  decide +kernel
theorem test_expand :
    let k := (after (.vexpand 0x1003 { w0 with d := 4, a := 2, c := 3, imm := 12, mod := 4 })
      (onCore { core0 with scratch := Memory.write [(2048, 0x65), (2049, 0x05)] 1024 twelve })).chip.core 0x1003
    k.scratch.read 3072 16 = [0x3F000000, 0, 0xBF800000, 0].flatMap (leBytes 4) := by decide +kernel

/- The row with a forced choice of chapter 11: its first chunk. -/
def statBytes : Memory :=
  let m := Memory.write [] 1024 ([0x3FC00000, 0xFF800000, 0x3FC00000, 0xFF800000].flatMap (leBytes 4))
  m.write 2048 ([0xFF800000, 0, 0x3F800000].flatMap (leBytes 4))
theorem test_softmax_statistics :
    let k := (after (.vosmStat 0x1003 { w0 with d := 4, a := 2, b := 3, imm := 4 })
      (onCore { core0 with scratch := statBytes })).chip.core 0x1003
    k.scratch.read 3072 16 = [0x3F800000, 0, 0x3F800000, 0].flatMap (leBytes 4) ∧
    k.scratch.read 2048 12 = [0x3FC00000, 0x40000000, 0].flatMap (leBytes 4) := by decide +kernel
theorem test_no_candidate :
    let k := (after (.vsample 0x1003 { w0 with d := 7, a := 2, b := 3, c := 4, imm := 8 })
      (onCore { core0 with scratch := Memory.write [] 2048 (leBytes 4 0x3F800000 ++ leBytes 4 0 ++ leBytes 4 0x3F800000) })).chip.core 0x1003
    k.regs[7] = 0xFFFFFFFF ∧ k.scratch.readLe 2060 4 = 1 := by decide +kernel

/- The scalar rows. -/
theorem test_add_wraps : (ran .add { w0 with d := 1, a := 6, b := 5 } []).regs[1] = 4 := by decide +kernel
theorem test_register_zero : (ran .add { w0 with d := 0, a := 6, b := 5 } []).regs[0] = 0 ∧ (ran .add { w0 with d := 0, a := 6, b := 5 } []).pc = 10 := by
  decide +kernel
theorem test_sra : (ran .sra { w0 with d := 1, a := 6, b := 7 } []).regs[1] = 0xFFFFFFFF ∧ (ran .shr { w0 with d := 1, a := 6, b := 7 } []).regs[1] = 0x3FFFFF := by
  decide +kernel
theorem test_lih : (ran .lih { w0 with d := 12, imm := 0x1234 } []).regs[12] = 0x12341000 := by decide +kernel
theorem test_loop_wraps : (ran .loop { w0 with a := 14, imm := 0xFFFFFE } []).regs[14] = 0xFFFFFFFF ∧ (ran .loop { w0 with a := 14, imm := 0xFFFFFE } []).pc = 7
    ∧ (ran .loop { w0 with a := 1, imm := 0xFFFFFE } []).pc = 10 := by decide +kernel
theorem test_lds : (ran .ldS { w0 with d := 1, a := 2 } [0x78, 0x56, 0x34, 0x12]).regs[1] = 0x12345678 := by decide +kernel
/- The example of 701 tokens: 37 on a dimension of the buckets 16, 64 and 256. -/
def bucketJob3 : Job := { bucketJob with image := ⟨0, false, 0, [⟨[128, 256, 512, 1024, 2048], true, 12, 13⟩, ⟨[16, 64, 256], false, 0, 0⟩], 8, [], none, 0⟩ }
theorem test_bsel :
    let k := (after (.bsel 0x1003 { w0 with d := 7, a := 6, b := 8, imm := 1 })
      { chip := { chipOf { core0 with job := some 4, regs := regs0.set 6 37 } with jobs := [(4, bucketJob3)] } }).chip.core 0x1003
    k.regs[7] = 64 ∧ k.regs[8] = 1 := by decide +kernel
theorem test_trap : (ran .trap { w0 with imm := 0x7F } []).halted = true ∧ (ran .trap { w0 with imm := 0x7F } []).excCode = 0x7F
    ∧ (ran .trap { w0 with imm := 0x7F } []).excIndex = 9 := by decide +kernel

/- The block's own commands. -/
theorem test_idle : step State.reset = .next State.reset.tick ∧ (State.reset.tick).pending = [] := ⟨rfl, rfl⟩
theorem test_idcode : (after .jtagIdcode State.reset).chip.sys.tdo = 0x1810045B := by decide +kernel
theorem test_trip : (after (.thermalTrip 0 125) State.reset).chip.sys.thermtrip = true ∧
    (after (.thermalTrip 0 124) State.reset).chip.sys.thermtrip = false := by decide +kernel
/- A ring of 16 slots with HEAD 3: TAIL may go to 19, not to 20. -/
def ringState : State := { chip := { cmd := { rings := [(0, { enabled := true, clog := 4, head := 3, tail := 3 })] } } }
theorem test_doorbell : ((after (.doorbell .manager 0 19) ringState).chip.ring 0).tail = 19 ∧
    ((after (.doorbell .manager 0 20) ringState).chip.ring 0).tail = 3 ∧
    ((after (.doorbell .manager 0 20) ringState).chip.ring 0).overrun = true := by decide +kernel

end Sys2Proof.Tests
end

section
/-! PROOFS. The start of a moult on a die and its phases (R243 to R257): what a step of a sequencer changes and leaves, what each
phase makes of its layer, and the statement O50. -/
namespace Sys2Proof

/-! ### Updates of one sequencer -/

@[simp] theorem Chip.job_modSeq (c : Chip) (d : Nat) (f : Sequencer → Sequencer) (h : JobId) : (c.modSeq d f).job h = c.job h := rfl

theorem Chip.seq_of_getElem? {c : Chip} {d : Nat} {q : Sequencer} (h : c.seqs[d]? = some q) : c.seq d = q := by
  simp [Chip.seq, nth, h]

theorem Chip.seq_modSeq_same (c : Chip) (d : Nat) (f : Sequencer → Sequencer) (h : d < c.seqs.length) :
    (c.modSeq d f).seq d = f (c.seq d) := by
  simp [Chip.seq, Chip.modSeq, nth, modNth, h]

theorem Chip.seq_modSeq_other (c : Chip) (d i : Nat) (f : Sequencer → Sequencer) (h : i ≠ d) : (c.modSeq d f).seq i = c.seq i := by
  cases hd : c.seqs[d]? with
  | none => simp [Chip.seq, Chip.modSeq, modNth, hd]
  | some q => simp [Chip.seq, Chip.modSeq, nth, modNth, hd, List.getElem?_set_ne (Ne.symm h)]

/-! ### Writes of a sequencer's copy engine -/

/-- `c'` is `c` after writes to memory: its contents and the reservations on them may differ, and nothing else. -/
def Chip.Written (c c' : Chip) : Prop := ∃ m r, c' = { c with mem := m, reservations := r }

theorem Chip.Written.refl (c : Chip) : c.Written c := ⟨c.mem, c.reservations, rfl⟩

theorem Chip.Written.trans {a b c : Chip} (h : a.Written b) (g : b.Written c) : a.Written c := by
  obtain ⟨m, r, rfl⟩ := h
  obtain ⟨n, q, rfl⟩ := g
  exact ⟨n, q, rfl⟩

theorem Chip.Written.ite {c a b : Chip} {p : Prop} [Decidable p] (h : c.Written a) (g : c.Written b) :
    c.Written (if p then a else b) := by
  split
  · exact h
  · exact g

theorem Chip.Written.seqs {c c' : Chip} (h : c.Written c') : c'.seqs = c.seqs := by obtain ⟨m, r, rfl⟩ := h; rfl
theorem Chip.Written.jobs {c c' : Chip} (h : c.Written c') : c'.jobs = c.jobs := by obtain ⟨m, r, rfl⟩ := h; rfl
theorem Chip.Written.cores {c c' : Chip} (h : c.Written c') : c'.cores = c.cores := by obtain ⟨m, r, rfl⟩ := h; rfl
theorem Chip.Written.seq {c c' : Chip} (h : c.Written c') (i : Nat) : c'.seq i = c.seq i := by simp [Chip.seq, h.seqs]

/-- A fold whose steps write memory alone writes memory alone. -/
theorem Chip.written_foldl {α : Type} (f : Chip → α → Chip) (hf : ∀ (c : Chip) (x : α), c.Written (f c x)) (l : List α) (c : Chip) :
    c.Written (l.foldl f c) := by
  induction l generalizing c with
  | nil => exact .refl c
  | cons x xs ih => exact (hf c x).trans (ih (f c x))

theorem Chip.written_store (c : Chip) (a : Nat) (bs : List Byte) : c.Written (c.store a bs) := by
  unfold Chip.store
  split
  · exact .refl c
  · exact ⟨_, _, rfl⟩

theorem Chip.written_vwrite (c : Chip) (t : TenantId) (va : Nat) (bs : List Byte) : c.Written (c.vwrite t va bs) := by
  refine Chip.written_foldl _ (fun c i => ?_) _ c
  dsimp only
  split
  · exact .refl c
  · split
    · split
      · exact written_store ..
      · exact .refl c
    · exact .refl c

theorem Chip.written_vpoisonRange (c : Chip) (t : TenantId) (a n : Nat) : c.Written (c.vpoisonRange t a n) := by
  refine Chip.written_foldl _ (fun c i => ?_) _ c
  dsimp only
  split
  · exact .refl c
  · split
    · exact ⟨_, _, rfl⟩
    · exact .refl c

theorem Chip.written_copyPoison (c : Chip) (t : TenantId) (x : Tensor) (mask : List NewBlock) (values : Nat) :
    c.Written (c.copyPoison t x mask values) :=
  Chip.written_foldl _ (fun c _ => c.written_vpoisonRange ..) _ c

/-- A fold that carries a number beside the chip, of steps that write memory alone. -/
theorem Chip.written_foldl_fst {α β : Type} (f : Chip × β → α → Chip × β) (hf : ∀ (a : Chip × β) (x : α), a.1.Written (f a x).1) (l : List α)
    (a : Chip × β) : a.1.Written (l.foldl f a).1 := by
  induction l generalizing a with
  | nil => exact .refl a.1
  | cons x xs ih => exact (hf a x).trans (ih (f a x))

/-! ### What each phase makes of its layer -/

theorem Chip.rebuildLayer_written (c : Chip) (t : TenantId) (l : PlanLayer) (r : LayerRun) (par instar : Nat) (seed : Nat → W64) :
    c.Written (c.rebuildLayer t l r par instar seed).1 := by
  unfold Chip.rebuildLayer
  extract_lets _ _ _ _ _ _ _ _ _ _ _ _ _ _ _ c1 _ _ _ _ _ _ _ _ c2 c3
  have arrays : c.Written c1 := Chip.written_foldl _ (fun c p => c.written_vwrite ..) _ c
  have weight : c1.Written c2 := (written_vwrite ..).trans (written_copyPoison ..)
  have companions : c2.Written c3 :=
    Chip.written_foldl_fst _ (fun a p => (written_vwrite ..).trans (written_copyPoison ..)) _ (c2, _)
  split
  · exact arrays
  · exact (arrays.trans weight).trans companions

theorem Chip.rebuildLayer_layer (c : Chip) (t : TenantId) (l : PlanLayer) (r : LayerRun) (par instar : Nat) (seed : Nat → W64) :
    (c.rebuildLayer t l r par instar seed).2.built = true ∧ (c.rebuildLayer t l r par instar seed).2.mask = r.mask := by
  unfold Chip.rebuildLayer
  extract_lets
  split
  · exact ⟨rfl, rfl⟩
  · exact ⟨rfl, rfl⟩

theorem Chip.closeLayer_written (c : Chip) (t : TenantId) (l : PlanLayer) (r : LayerRun) (par instar : Nat) (seed : Nat → W64) :
    c.Written (c.closeLayer t l r par instar seed).1 :=
  (Written.ite (written_vwrite ..) (.refl c)).trans (written_vwrite ..)

theorem Chip.closeLayer_layer (c : Chip) (t : TenantId) (l : PlanLayer) (r : LayerRun) (par instar : Nat) (seed : Nat → W64) :
    (c.closeLayer t l r par instar seed).2.done = true ∧ (c.closeLayer t l r par instar seed).2.mask = r.mask := by
  refine ⟨rfl, ?_⟩
  unfold Chip.closeLayer
  extract_lets _ _ _ _ _ _ _ r'
  show r'.mask = r.mask
  unfold r'
  split
  · rfl
  · split
    · rfl
    · rfl

/-- Without sieve records a layer has no lanes to reduce. -/
theorem Chip.sieveLanes_unsieved (c : Chip) (t : TenantId) (l : PlanLayer) (n : Nat) (blocks : List (Nat × Nat))
    (h : l.sieved = false) : c.sieveLanes t l n blocks = [] := by
  simp [Chip.sieveLanes, h]

theorem LayerRun.rechooseAll_off (r : LayerRun) (l : PlanLayer) (blocks : List (Nat × Nat)) (n : Nat) (h : l.rechoose = false) :
    r.rechooseAll l blocks n = r := by
  simp [LayerRun.rechooseAll, h]

/-- A re-choice gives blocks new patterns and leaves them where they are. -/
theorem LayerRun.rechooseAll_mask_index (r : LayerRun) (l : PlanLayer) (blocks : List (Nat × Nat)) (n : Nat) :
    (r.rechooseAll l blocks n).mask.map (·.index) = r.mask.map (·.index) := by
  unfold LayerRun.rechooseAll
  split
  · rfl
  · simp only [List.map_map]
    refine List.map_congr_left (fun b _ => ?_)
    simp only [Function.comp]
    split
    · rfl
    · split <;> rfl

/-! ### Drop and grow (R249) -/

/-- Candidates that can be ranked, with their reduced scores: under a sieve, those whose score is not NaN. -/
def LayerRun.usable (r : LayerRun) (l : PlanLayer) (cands : List Nat) : List (Nat × FVal) :=
  let scored := cands.zipIdx.map (fun p => (p.1, f32 (nth 0 (r.reduced.getD ⟨[], [], 0, true⟩).scores p.2).toNat))
  if l.sieved then scored.filter (fun p => !p.2.isNan) else scored

/-- Blocks to drop, and blocks to grow by gradient rank. -/
def LayerRun.counts (r : LayerRun) (l : PlanLayer) (blocks : List (Nat × Nat)) (cands : List Nat) : Nat × Nat :=
  growCounts l blocks.length cands.length (r.usable l cands).length

/-- Candidates grown by gradient rank. -/
def LayerRun.gradGrown (r : LayerRun) (l : PlanLayer) (blocks : List (Nat × Nat)) (cands : List Nat) : List Nat :=
  ((sortBy gradLe (r.usable l cands)).take (r.counts l blocks cands).2).map (·.1)

@[simp] theorem length_insertFront {α : Type} (le : α → α → Bool) (x : α) (l : List α) :
    (sortBy.insertFront le x l).length = l.length + 1 := by
  induction l with
  | nil => rfl
  | cons y ys ih =>
    by_cases h : le x y = true
    · simp [sortBy.insertFront, h]
    · simp [sortBy.insertFront, h, ih]

@[simp] theorem length_sortBy {α : Type} (le : α → α → Bool) (l : List α) : (sortBy le l).length = l.length := by
  induction l with
  | nil => rfl
  | cons x xs ih => simp [sortBy, ih]

@[simp] theorem length_drawKeys (g : W64) (l : List Nat) : (drawKeys g l).length = l.length := by
  induction l generalizing g with
  | nil => rfl
  | cons x xs ih => simp [drawKeys, ih]

@[simp] theorem length_topKeys (n : Nat) (ks : List (Nat × Nat)) : (topKeys n ks).length = min n ks.length := by
  simp [topKeys]

theorem LayerRun.length_usable_le (r : LayerRun) (l : PlanLayer) (cands : List Nat) : (r.usable l cands).length ≤ cands.length := by
  unfold LayerRun.usable
  dsimp only
  split
  · exact Nat.le_trans (List.length_filter_le _ _) (by simp)
  · simp

/-- Of distinct elements, no more stand in a list than the list is long. -/
theorem length_le_add_length_filter_not_contains (grown : List Nat) {cands : List Nat} (hn : cands.Nodup) :
    cands.length ≤ grown.length + (cands.filter (fun i => !grown.contains i)).length := by
  have hin : (cands.filter (fun i => grown.contains i)).length ≤ grown.length :=
    List.Nodup.length_le_of_subset (List.Pairwise.filter _ hn) (fun i hi => List.contains_iff_mem.mp (List.mem_filter.mp hi).2)
  have hout : cands.countP (fun i => decide ¬grown.contains i = true) = cands.countP (fun i => !grown.contains i) :=
    congrArg (cands.countP ·) (funext fun i => by cases grown.contains i <;> rfl)
  calc cands.length
      = cands.countP (fun i => grown.contains i) + cands.countP (fun i => decide ¬grown.contains i = true) :=
        List.length_eq_countP_add_countP _
    _ ≤ grown.length + (cands.filter (fun i => !grown.contains i)).length := by
        rw [hout, List.countP_eq_length_filter, List.countP_eq_length_filter]
        exact Nat.add_le_add_right hin _

section
variable (r : LayerRun) (l : PlanLayer) (blocks : List (Nat × Nat)) (cands : List Nat) (seed : Nat → W64)

theorem LayerRun.dropGrow_dropped :
    (r.dropGrow l blocks cands seed).dropped = min (r.counts l blocks cands).1 blocks.length := by
  simp [LayerRun.dropGrow, LayerRun.counts, LayerRun.usable]

theorem LayerRun.dropGrow_grownGrad :
    (r.dropGrow l blocks cands seed).grownGrad = (r.gradGrown l blocks cands).length := rfl

theorem LayerRun.length_gradGrown :
    (r.gradGrown l blocks cands).length = min (r.counts l blocks cands).2 (r.usable l cands).length := by
  simp [LayerRun.gradGrown]

/-- Random growth takes what the gradient rank leaves, as far as candidates remain. -/
theorem LayerRun.dropGrow_grownRand :
    (r.dropGrow l blocks cands seed).grownRand =
      min ((r.counts l blocks cands).1 - (r.counts l blocks cands).2)
        (cands.filter (fun i => !(r.gradGrown l blocks cands).contains i)).length := by
  have h : (r.dropGrow l blocks cands seed).grownRand =
      (topKeys ((r.counts l blocks cands).1 - (r.counts l blocks cands).2)
        (if (r.counts l blocks cands).1 == (r.counts l blocks cands).2 then []
          else drawKeys (seed 2) (sortBy (fun a b => decide (a ≤ b))
            (cands.filter (fun i => !(r.gradGrown l blocks cands).contains i))))).length := rfl
  rw [h, length_topKeys]
  split
  next he => simp [beq_iff_eq.mp he]
  next => rw [length_drawKeys, length_sortBy]

theorem LayerRun.counts_fst_le : (r.counts l blocks cands).1 ≤ l.fraction * blocks.length / 65536 := Nat.min_le_left _ _

/-- No more blocks are dropped than there are candidates to grow. -/
theorem LayerRun.counts_fst_le_cands : (r.counts l blocks cands).1 ≤ cands.length := by
  refine Nat.le_trans (Nat.min_le_right _ _) ?_
  split
  · exact Nat.le_refl _
  · exact r.length_usable_le l cands

theorem LayerRun.counts_random (h : l.policy = 1) :
    r.counts l blocks cands = (min (l.fraction * blocks.length / 65536) cands.length, 0) := by
  simp [LayerRun.counts, growCounts, h]

/-- The gradient's share is a part of the drop count. -/
theorem LayerRun.counts_snd_le_fst (hm : l.mix < 256) : (r.counts l blocks cands).2 ≤ (r.counts l blocks cands).1 := by
  simp only [LayerRun.counts, growCounts]
  split
  · exact Nat.le_refl _
  · split
    · exact Nat.div_le_of_le_mul (by rw [Nat.mul_comm 256]; exact Nat.mul_le_mul_left _ (Nat.le_of_lt hm))
    · exact Nat.zero_le _

/-- There are as many ranked candidates as the gradient's share asks for. -/
theorem LayerRun.counts_snd_le_usable (hm : l.mix < 256) : (r.counts l blocks cands).2 ≤ (r.usable l cands).length := by
  by_cases hp : l.policy = 1
  · simp [r.counts_random l blocks cands hp]
  · refine Nat.le_trans (r.counts_snd_le_fst l blocks cands hm) (Nat.le_trans (Nat.min_le_right _ _) ?_)
    simp [hp]

/-- A layer grows as many blocks as it drops. -/
theorem LayerRun.dropGrow_balanced (hm : l.mix < 256) (hf : l.fraction ≤ 65535) (hn : cands.Nodup) :
    (r.dropGrow l blocks cands seed).grownGrad + (r.dropGrow l blocks cands seed).grownRand =
      (r.dropGrow l blocks cands seed).dropped := by
  have hlive : (r.counts l blocks cands).1 ≤ blocks.length :=
    Nat.le_trans (r.counts_fst_le l blocks cands) (by have := Nat.mul_le_mul_right blocks.length hf; omega)
  have hrest := length_le_add_length_filter_not_contains (r.gradGrown l blocks cands) hn
  have hgrad := r.length_gradGrown l blocks cands
  have h1 := r.counts_fst_le_cands l blocks cands
  have h2 := r.counts_snd_le_fst l blocks cands hm
  have h3 := r.counts_snd_le_usable l blocks cands hm
  rw [r.dropGrow_grownGrad, r.dropGrow_grownRand, r.dropGrow_dropped]
  omega

end

/-! ### The mix share of a layer entry is a byte (Table 09.2) -/

theorem ofLe_lt (bs : List Byte) : ofLe bs < 256 ^ bs.length := by
  induction bs with
  | nil => simp [ofLe]
  | cons b bs ih =>
    have := b.isLt
    simp only [ofLe, List.length_cons, Nat.pow_succ]
    omega

theorem fieldLe_lt (bs : List Byte) (off n : Nat) : fieldLe bs off n < 256 ^ n := by
  have hlen : (slice bs off n).length = n := by
    simp only [slice, List.length_append, List.length_replicate, List.length_take, List.length_drop]
    omega
  simpa [fieldLe, hlen] using ofLe_lt (slice bs off n)

theorem Plan.layer_mix_lt (p : Plan) (i : Nat) : (p.layer i).mix < 256 := fieldLe_lt _ 85 1

/-! ### The start of a moult on a die (R241, R243) -/

/-- The chip withheld its contribution to a group's last step, or does so until DESYNC is cleared. -/
def Chip.withheld (c : Chip) (g : GroupId) : Bool :=
  match c.group g with
  | some g => g.lastWithheld || g.desync
  | none => false

/-- A moult that has begun on one more die; the first die settles whether the chip withholds. -/
def Moult.beginOn (m : Moult) (d : DieId) (held : Bool) : Moult :=
  { m with begun := m.begun ++ [d.toNat], withheld := if m.begun.isEmpty then held else m.withheld }

/-- A sequencer that takes up layers of a job. -/
def Sequencer.takeLayers (q : Sequencer) (h : JobId) (ls : List Nat) : Sequencer :=
  { q with running := true, job := h, phase := 1, current := 0, layers := ls.map (fun i => { index := i }) }

/-- The chip with a moult begun on a die. -/
def Chip.moultBegun (c : Chip) (d : DieId) (h : JobId) (j : Job) (m : Moult) (p : Plan) : Chip :=
  (c.setJob h { j with moult := some (m.beginOn d (c.withheld p.group)) }).modSeq d.toNat
    (fun q => q.takeLayers h (c.dieLayers j.tenant p d.toNat))

theorem Chip.job_moultBegun (c : Chip) (d : DieId) (h : JobId) (j : Job) (m : Moult) (p : Plan) :
    (c.moultBegun d h j m p).job h = some { j with moult := some { m with
      begun := m.begun ++ [d.toNat], withheld := if m.begun = [] then c.withheld p.group else m.withheld } } := by
  simp only [Chip.moultBegun, Chip.job_modSeq, Chip.job_setJob, Moult.beginOn, List.isEmpty_iff]

theorem Chip.seq_moultBegun (c : Chip) {d : DieId} (h : JobId) (j : Job) (m : Moult) (p : Plan) (hd : d.toNat < c.seqs.length) :
    (c.moultBegun d h j m p).seq d.toNat = (c.seq d.toNat).takeLayers h (c.dieLayers j.tenant p d.toNat) :=
  Chip.seq_modSeq_same (c.setJob h _) _ _ hd

/-! ### What a sequencer works on -/

theorem Chip.dieRun_some {c : Chip} {d : DieId} {n : Nat} {x : DieRun} (h : c.dieRun d n = some x) :
    x.seq = c.seq d.toNat ∧ x.entry = x.plan.layer x.layer.index := by
  unfold Chip.dieRun at h
  dsimp only at h
  split at h
  · cases h
  · split at h
    · split at h
      · cases h; exact ⟨rfl, rfl⟩
      · cases h
    · cases h

end Sys2Proof

namespace Sys2Proof.Claims

open Sys2Proof.Machine

/-! ### Steps of a sequencer, in the words of the statement -/

section
variable {s : State} {d : DieId} {n : Nat} {x : DieRun} (hd : d.toNat < s.chip.seqs.length) (hx : s.chip.dieRun d n = some x)
include hd hx

/-- The sequencer goes to the next phase after writes to memory. -/
theorem phase_layerStep {c : Chip} (hc : s.chip.Written c) (r : LayerRun) (phase : Nat) :
    Phase s (s.onChip (fun _ => c.layerStep d r phase)) d x r phase := by
  obtain ⟨hseq, -⟩ := Chip.dieRun_some hx
  refine ⟨?_, fun i hi => ?_, hc.jobs, hc.cores, rfl⟩
  · rw [State.onChip_chip, Chip.layerStep, Chip.seq_modSeq_same _ _ _ (hc.seqs ▸ hd), hc.seq, hseq]
    rfl
  · exact (Chip.seq_modSeq_other _ _ _ _ hi).trans (hc.seq i)

/-- The sequencer goes to its next layer, or after the last one to the phase that follows, after writes to memory. -/
theorem nextLayer_layerNext {c : Chip} (hc : s.chip.Written c) (r : LayerRun) (again last : Nat) :
    NextLayer s (s.onChip (fun _ => c.layerNext d r again last)) d x r again last (if last == 9 then x.seq.current else 0) := by
  obtain ⟨hseq, -⟩ := Chip.dieRun_some hx
  refine ⟨?_, fun i hi => ?_, hc.jobs, hc.cores⟩
  · rw [State.onChip_chip, Chip.layerNext, Chip.seq_modSeq_same _ _ _ (hc.seqs ▸ hd), hc.seq, hseq]
    simp [setNth]
  · exact (Chip.seq_modSeq_other _ _ _ _ hi).trans (hc.seq i)

end

/-! ### The start -/

/-- A moult does not begin on a die before its start instant, nor a second time. -/
theorem moultStart_blocked {s : State} {d : DieId} {h : JobId} {j : Job} {m : Moult} {p : Plan} (hm : Moulting s h j m p)
    (hb : s.time.ht.toNat / 64 < m.start.toNat ∨ m.begun.contains d.toNat = true) : exec (.moultStart d h) s = .next s := by
  obtain ⟨hj, hm, hp⟩ := hm
  have hstay : s.chip.moultStart s.env d h = s.chip := by
    simp only [Chip.moultStart, hj, hm, hp]
    refine if_pos ?_
    rcases hb with hb | hb
    · simp [Env.ns, State.env, hb]
    · simp only [hb, Bool.true_or, Bool.or_true]
  change Host.Outcome.next { s with chip := s.chip.moultStart s.env d h } = .next s
  rw [hstay]

/-- The chip when a moult begins on a die: its job notes the die, and the die's sequencer takes its layers. -/
theorem moultStart_begins {c : Chip} {v : Env} {d : DieId} {h : JobId} {j : Job} {m : Moult} {p : Plan}
    (hj : c.job h = some j) (hm : j.moult = some m) (hp : j.plan = some p) (hns : m.start.toNat ≤ v.ns)
    (hls : c.dieLayers j.tenant p d.toNat ≠ []) (hvote : m.vote = none) (hbegun : m.begun.contains d.toNat = false)
    (hrun : (c.seq d.toNat).running = false) (hupd : c.updating h d.toNat = false)
    (hahead : c.moultAhead d.toNat h.toNat m.start.toNat = false) :
    c.moultStart v d h = if m.begun.isEmpty then (c.moultBegun d h j m p).stamp v 26 p.group.toNat else c.moultBegun d h j m p := by
  simp only [Chip.moultStart, hj, hm, hp]
  have hgo : (decide (v.ns < m.start.toNat) || (c.dieLayers j.tenant p d.toNat).isEmpty || m.vote.isSome ||
      m.begun.contains d.toNat || (c.seq d.toNat).running || c.updating h d.toNat ||
      c.moultAhead d.toNat h.toNat m.start.toNat) = false := by
    rw [hbegun, hrun, hupd, hahead, hvote]
    simp [hns, hls]
  rw [hgo, if_neg Bool.false_ne_true]
  simp only [Chip.moultBegun, hp]
  rfl

theorem moultStart : MoultStart := by
  intro s d h j m p q hmoult
  refine ⟨fun hb => moultStart_blocked hmoult (.inl hb), fun hb => moultStart_blocked hmoult (.inr hb), ?_⟩
  intro hns hls hvote hbegun hq hrun hupd hahead
  obtain ⟨hj, hm, hp⟩ := hmoult
  have hseq := Chip.seq_of_getElem? hq
  have hbegins := moultStart_begins (v := s.env) hj hm hp hns hls hvote hbegun (hseq ▸ hrun) hupd hahead
  have hjob := s.chip.job_moultBegun d h j m p
  have hnew := (s.chip.seq_moultBegun h j m p (List.getElem?_eq_some_iff.mp hq).1).trans (by rw [hseq])
  refine ⟨s.onChip (fun c => c.moultStart s.env d h), rfl, ?_⟩
  rw [State.onChip_chip, hbegins]
  split
  · exact ⟨hjob, hnew, rfl, rfl⟩
  · exact ⟨hjob, hnew, rfl, rfl⟩

/-! ### The phases -/

section
variable {s : State} {d : DieId} {x : DieRun}

theorem moultScore_phase (hd : d.toNat < s.chip.seqs.length) (hx : s.chip.dieRun d 1 = some x) :
    ∃ t, exec (.moultScore d) s = .next t ∧ t.chip.mem = s.chip.mem ∧
      ((tensorBad x.tensor.head = true ∨ s.chip.tensorSound x.job.tenant x.tensor = false) →
        Phase s t d x { x.layer with status := 3 } 2) ∧
      (tensorBad x.tensor.head = false → s.chip.tensorSound x.job.tenant x.tensor = true → x.entry.companions = [] →
        Phase s t d x { x.layer with live := s.chip.scoreLive x.job.tenant x.tensor } 2) := by
  have step : exec (.moultScore d) s = .next (s.onChip (fun c => c.moultScore d)) := rfl
  refine ⟨_, step, ?_⟩
  simp only [State.onChip, Chip.moultScore, hx]
  have next := phase_layerStep hd hx (.refl s.chip)
  refine ⟨rfl, fun hbad => ?_, fun hhead hsound hcomp => ?_⟩
  · rw [if_neg (by rcases hbad with h | h <;> simp [h])]
    exact next _ 2
  · rw [if_pos (by simp [hhead, hsound, hcomp])]
    exact next _ 2

theorem moultSieve_phase (hd : d.toNat < s.chip.seqs.length) (hx : s.chip.dieRun d 2 = some x) (hs : x.entry.sieved = false) :
    ∃ t, exec (.moultSieve d) s = .next t ∧ t.chip.mem = s.chip.mem ∧ NextLayer s t d x { x.layer with sieve := [] } 1 3 0 := by
  have step : exec (.moultSieve d) s = .next (s.onChip (fun c => c.moultSieve d)) := rfl
  refine ⟨_, step, ?_⟩
  simp only [State.onChip, Chip.moultSieve, hx, Chip.sieveLanes_unsieved _ _ _ _ _ hs, ite_self]
  exact ⟨rfl, nextLayer_layerNext hd hx (.refl s.chip) _ 1 3⟩

theorem moultDropGrow_phase (hd : d.toNat < s.chip.seqs.length) (hx : s.chip.dieRun d 4 = some x) :
    let cands := s.chip.candidates x.job.tenant x.entry x.par x.tensor.kb
    let blocks := s.chip.blocksOf x.job.tenant x.tensor
    cands.Nodup → ∃ t r, exec (.moultDropGrow d) s = .next t ∧ t.chip.mem = s.chip.mem ∧ Phase s t d x r 5 ∧
      (x.entry.policy = 1 → r.dropped = min (min (x.entry.fraction * blocks.length / 65536) cands.length) blocks.length ∧
        r.grownGrad = 0) ∧
      r.dropped ≤ x.entry.fraction * blocks.length / 65536 ∧
      (x.entry.fraction ≤ 65535 → r.grownGrad + r.grownRand = r.dropped) := by
  intro cands blocks hn
  have step : exec (.moultDropGrow d) s =
      .next (s.onChip (fun _ => s.chip.layerStep d (x.layer.dropGrow x.entry blocks cands x.seed) 5)) := by
    change Host.Outcome.next (s.onChip (fun c => c.moultDropGrow d)) = _
    simp only [State.onChip, Chip.moultDropGrow, hx, blocks, cands]
  have hmix : x.entry.mix < 256 := (Chip.dieRun_some hx).2 ▸ Plan.layer_mix_lt ..
  refine ⟨_, _, step, rfl, phase_layerStep hd hx (.refl s.chip) _ 5, fun hp => ?_, ?_, fun hf => ?_⟩
  · rw [LayerRun.dropGrow_dropped, LayerRun.dropGrow_grownGrad, LayerRun.length_gradGrown, LayerRun.counts_random _ _ _ _ hp]
    exact ⟨rfl, Nat.zero_min _⟩
  · rw [LayerRun.dropGrow_dropped]
    exact Nat.le_trans (Nat.min_le_left _ _) (LayerRun.counts_fst_le ..)
  · exact LayerRun.dropGrow_balanced _ _ _ _ _ hmix hf hn

theorem moultRechoose_phase (hd : d.toNat < s.chip.seqs.length) (hx : s.chip.dieRun d 5 = some x) :
    ∃ t r, exec (.moultRechoose d) s = .next t ∧ t.chip.mem = s.chip.mem ∧ Phase s t d x r 6 ∧
      (x.entry.rechoose = false → r = x.layer) ∧ r.mask.map (·.index) = x.layer.mask.map (·.index) ∧
      r.mask.length = x.layer.mask.length := by
  have step : exec (.moultRechoose d) s = .next (s.onChip (fun c => c.moultRechoose d)) := rfl
  simp only [State.onChip, Chip.moultRechoose, hx] at step
  have hindex := LayerRun.rechooseAll_mask_index x.layer x.entry (s.chip.blocksOf x.job.tenant x.tensor)
    (s.chip.candidates x.job.tenant x.entry x.par x.tensor.kb).length
  exact ⟨_, _, step, rfl, phase_layerStep hd hx (.refl s.chip) _ 6, LayerRun.rechooseAll_off _ _ _ _, hindex,
    by simpa using congrArg List.length hindex⟩

theorem moultRebuild_phase (hd : d.toNat < s.chip.seqs.length) (hx : s.chip.dieRun d 6 = some x) :
    ∃ t r, exec (.moultRebuild d) s = .next t ∧ Phase s t d x r 8 ∧ r.built = true ∧ r.mask = x.layer.mask := by
  have step : exec (.moultRebuild d) s = .next (s.onChip (fun c => c.moultRebuild d)) := rfl
  simp only [State.onChip, Chip.moultRebuild, hx] at step
  exact ⟨_, _, step, phase_layerStep hd hx (Chip.rebuildLayer_written ..) _ 8, Chip.rebuildLayer_layer ..⟩

theorem moultCandidates_phase (hd : d.toNat < s.chip.seqs.length) (hx : s.chip.dieRun d 8 = some x) :
    ∃ t r, exec (.moultCandidates d) s = .next t ∧ NextLayer s t d x r 4 9 x.seq.current ∧ r.done = true ∧
      r.mask = x.layer.mask := by
  have step : exec (.moultCandidates d) s = .next (s.onChip (fun c => c.moultCandidates d)) := rfl
  simp only [State.onChip, Chip.moultCandidates, hx] at step
  exact ⟨_, _, step, nextLayer_layerNext hd hx (Chip.closeLayer_written ..) _ 4 9, Chip.closeLayer_layer ..⟩

end

theorem moultPhases : MoultPhases := by
  intro s d x hd
  exact ⟨moultScore_phase hd, moultSieve_phase hd, moultDropGrow_phase hd, moultRechoose_phase hd, moultRebuild_phase hd,
    moultCandidates_phase hd⟩

/-- Settles O50: the start of a moult on a die, and the six phases one by one. -/
theorem moultRuns : Obligations.MoultRuns := ⟨moultStart, moultPhases⟩

end Sys2Proof.Claims
end

section
/-! PROOFS. The generators of the lanes and cells and the values drawn from them (R69, R131, R307): when the checks of a seeding or
vector instruction find nothing, what it then does, and the statement O17. -/
namespace Sys2Proof

open Claims

/-! ### Checks that find nothing -/

theorem Core.inTransfer_eq_false {c : Core} (h : c.phase ≠ .transfer) : c.inTransfer = false := beq_eq_false_iff_ne.mpr h

theorem outOfScratch_eq_false {r : Nat × Nat} (h : Fits r) : outOfScratch r = false := by
  rcases h with h | ⟨h1, h2⟩
  · simp [outOfScratch, h]
  · simp [outOfScratch, Nat.not_lt.mpr h1, Nat.not_lt.mpr h2]

/-- Ranges in the scratchpad and aligned masks raise nothing (R121, R144). -/
theorem rangeCauses_eq_nil {rs : List (Nat × Nat)} {masks : List Nat} (hr : ∀ r ∈ rs, Fits r) (hm : ∀ a ∈ masks, a % 4 = 0) :
    rangeCauses rs masks = [] := by
  have h1 : rs.any outOfScratch = false := List.any_eq_false.mpr fun r h => by simp [outOfScratch_eq_false (hr r h)]
  have h2 : masks.any (fun a => a % 4 != 0) = false := List.any_eq_false.mpr fun a h => by simp [hm a h]
  simp [rangeCauses, h1, h2]

/-- A legal count of elements raises nothing (R156). -/
theorem Claims.VecLegal.countCauses {k : Core} {w : Fields} {u : Used} {fnMask : Nat} (h : VecLegal k w u fnMask) :
    k.countCauses w (vTq w) = [] := by
  obtain ⟨-, -, -, hhead, ⟨himm, hzero⟩, hcount⟩ := h
  have hn : (decide (4096 < vecN w) || (vecReg w != 0 && vecN w != 0)) = false := by
    by_cases hr : vecReg w = 0
    · simp [hr, himm]
    · simp [hzero hr]
  have hreg : (vecReg w != 0 && decide (4096 < k.regN (vecReg w))) = false := by
    by_cases hr : vecReg w = 0
    · simp [hr]
    · rw [Core.count, if_neg hr] at hcount
      simp [Nat.not_lt.mpr hcount]
  have htq : (vTq w && decide (16 < k.count w)) = false := by
    cases ht : vTq w with
    | false => rfl
    | true => simpa using (hhead ht).2
  simp only [Core.countCauses, hn, hreg, htq, when_false, List.append_nil]

/-- A legal vector word raises nothing (R143, R156, R159). -/
theorem Claims.VecLegal.vecCauses {k : Core} {w : Fields} {u : Used} {fnMask : Nat} (h : VecLegal k w u fnMask) :
    k.vecCauses w u fnMask false = [] := by
  have hpop : (vPop w && !vTq w) = false := by
    cases hp : vPop w with
    | false => rfl
    | true => simp [h.pop hp]
  have htq : (vTq w && w.a != 0) = false := by
    cases ht : vTq w with
    | false => rfl
    | true => simp [(h.head ht).1]
  simp only [Core.vecCauses, Core.inTransfer_eq_false h.phase, h.fields, hpop, htq, h.countCauses, Bool.or_false, Bool.false_or, when_false,
    List.append_nil]

theorem Core.maskRange_eq (k : Core) (w : Fields) : k.maskRange w (k.count w) = maskOf k w := by simp [Core.maskRange, maskOf, rangeC]

theorem Core.maskAlign_eq (k : Core) (w : Fields) : k.maskAlign w = maskAt k w := by simp [Core.maskAlign, maskAt]

/-! ### Effects -/

section
variable (c : Core) (w : Fields) (dst n l : Nat) (act : Memory → Nat → Bool) (rnds : List Rnd) (val : Memory → Nat → FVal)
  (enc : FVal → Rnd → Nat × Flags)

/-- Element-wise work changes the scratchpad and CVT and nothing else. -/
theorem Core.elementwise_frame :
    { c.elementwise w dst n l act rnds val enc with scratch := c.scratch, cvt := c.cvt } = c := by
  unfold Core.elementwise
  dsimp only
  split
  · rfl
  · rfl

@[simp] theorem Core.elementwise_excCause : (c.elementwise w dst n l act rnds val enc).excCause = c.excCause := by
  have h := congrArg Core.excCause (Core.elementwise_frame c w dst n l act rnds val enc)
  exact h

@[simp] theorem Core.elementwise_restorePend : (c.elementwise w dst n l act rnds val enc).restorePend = c.restorePend := by
  have h := congrArg Core.restorePend (Core.elementwise_frame c w dst n l act rnds val enc)
  exact h

end

/-- A seeding instruction whose 128 bytes lie in the scratchpad and are free has its effect and goes on; over the cell generators it
finds the array idle (R69, R131, R146). -/
theorem Core.seedOp_done {c : Core} {w : Fields} (store wait : Bool) (f : Core → Nat → Core) (hi : c.canIssue = true) (hp : c.pc ≠ 2047)
    (hphase : c.phase ≠ .transfer) (hw : w.bad { a := true, mod := 0x40 } = false) (hst : bitAt w.mod.toNat 6 = store)
    (hfit : c.regN w.a + 128 ≤ 4096) (hidle : wait = true → c.arrayIdle = true)
    (hfree : c.mustWait (if store then [] else [(c.regN w.a, 128)]) (if store then [(c.regN w.a, 128)] else []) = false) :
    c.seedOp w store wait f = { f c (c.regN w.a) with pc := c.pc + 1 } := by
  have hr : rangeCauses [(c.regN w.a, 128)] [] = [] :=
    rangeCauses_eq_nil (List.forall_mem_singleton.mpr (.inr ⟨by omega, hfit⟩)) (List.forall_mem_nil _)
  have hwait : (wait && !c.arrayIdle) = false := by
    cases wait with
    | false => rfl
    | true => simp [hidle rfl]
  simp only [Core.seedOp, Core.inTransfer_eq_false hphase, hw, hst, hr, bne_self_eq_false, Bool.or_false, when_false, List.append_nil]
  refine Core.seqWith_done c _ _ hi hp ?_
  simp [hwait, hfree]

/-- `VRAND` that can be carried out at once: the draws, the values, and the next index (R307). -/
theorem Core.vrand_done {s : Machine.State} {id : CoreId} {w : Fields} :
    let c := s.chip.core id
    VecCan s id w { d := true, b := vS w, c := true, f1 := true } 3 (maskOf c w) [rangeD c w] (maskAt c w) →
    vecFn w ≤ 2 → vSr w = false → fmt1 w = .fp32 ∨ fmt1 w = .bf16 ∨ fmt1 w = .fp16 → (vecFn w = 2 → c.count w ≤ 1024) →
    let ds := takeDrawsK c.lanes (fmt1 w).lanes (c.count w) (if vecFn w = 2 then 12 else if fmt1 w = .fp32 then 2 else 1)
    c.vrand w = { ({ c with lanes := ds.2 }).elementwise w (c.regN w.d) (c.count w) (fmt1 w).lanes (c.active w) []
      (fun _ i => (randValue (vecFn w) (fmt1 w) (nth [] ds.1 i)).mul (if vS w then f32 (c.regN w.b) else .one)) (roundInto w)
      with pc := c.pc + 1 } := by
  intro c hcan hfn hsr hf hmany ds
  obtain ⟨⟨⟨-, hi⟩, hp⟩, hl, hn, hfit, hal, hfree⟩ := hcan
  have hlegal : c.vecCauses w { d := true, b := vS w, c := true, f1 := true } 3 false = [] := hl.vecCauses
  have hzero : c.count w ≠ 0 := Nat.ne_of_gt hn
  have hfmt : (!(fmt1 w == .fp32 || fmt1 w == .bf16 || fmt1 w == .fp16)) = false := by
    rcases hf with h | h | h <;> rw [h] <;> rfl
  have hcount : (vecFn w == 2 && decide (1024 < c.count w)) = false := by
    by_cases h : vecFn w = 2
    · simp [h, hmany h]
    · simp [h]
  have hr : rangeCauses (maskOf c w ++ [(c.regN w.d, (fmt1 w).operandBytes (c.count w))]) (maskAt c w) = [] :=
    rangeCauses_eq_nil hfit hal
  have hfree' : c.mustWait (maskOf c w) [(c.regN w.d, (fmt1 w).operandBytes (c.count w))] = false := hfree
  show c.vrand w = _
  simp only [Core.vrand, hlegal, Core.maskRange_eq, Core.maskAlign_eq, hr, hfmt, hcount, hsr, Nat.not_lt.mpr hfn]
  refine Core.seqWith_done c _ _ hi hp ?_
  simp only [beq_iff_eq, hzero, hfree']
  rfl

end Sys2Proof

namespace Sys2Proof.Claims

open Sys2Proof.Machine

/-- A command of one core that leaves EXC as it was and asks for no restoration changes that core and nothing else. -/
theorem exec_eq_after {s : State} {id : CoreId} {i : Instr} {run : Core → Core} (hx : exec i s = .next (s.onCore id run))
    (hr : s.chip.coreRuns id = true) {k : Core} (e : run (s.chip.core id) = k) (he : k.excCause = (s.chip.core id).excCause)
    (hp : k.restorePend = (s.chip.core id).restorePend) : exec i s = .next (after s id k) := by
  rw [hx, State.onCore_eq s id run k hr e he hp]
  rfl

theorem generators : Generators := by
  intro s id a hready k at' ld st word hphase hfit
  obtain ⟨⟨hruns, hi⟩, hpc⟩ := hready
  have hld : ld.bad { a := true, mod := 0x40 } = false ∧ bitAt ld.mod.toNat 6 = false := by simp [ld, Fields.bad, bitAt, w0]
  have hst : st.bad { a := true, mod := 0x40 } = false ∧ bitAt st.mod.toNat 6 = true := by simp [st, Fields.bad, bitAt, w0]
  have idle (hpass : k.arr.passes = []) (hdrain : k.arr.drains = []) : k.arrayIdle = true := by simp [Core.arrayIdle, hpass, hdrain]
  refine ⟨fun hfree => ⟨?_, fun hpass hdrain => ?_⟩, fun hfree => ⟨?_, fun hpass hdrain => ?_⟩⟩
  · exact exec_eq_after rfl hruns (Core.seedOp_done false false _ hi hpc hphase hld.1 hld.2 hfit nofun hfree) rfl rfl
  · exact exec_eq_after rfl hruns (Core.seedOp_done false true _ hi hpc hphase hld.1 hld.2 hfit (fun _ => idle hpass hdrain) hfree) rfl rfl
  · exact exec_eq_after rfl hruns (Core.seedOp_done true false _ hi hpc hphase hst.1 hst.2 hfit nofun hfree) rfl rfl
  · exact exec_eq_after rfl hruns (Core.seedOp_done true true _ hi hpc hphase hst.1 hst.2 hfit (fun _ => idle hpass hdrain) hfree) rfl rfl

theorem randomValues : RandomValues := by
  intro s id w k n f hcan hfn hsr hf hmany ds
  exact exec_eq_after rfl hcan.ready.1.1 (Core.vrand_done hcan hfn hsr hf hmany)
    (Core.elementwise_excCause ..) (Core.elementwise_restorePend ..)

/-- Settles O17: the seeds of the generators, and the values drawn from them. -/
theorem randomNumbers : Obligations.RandomNumbers := ⟨generators, randomValues⟩

end Sys2Proof.Claims
end

section
/-! PROOFS. Swaps of accumulator sets and the drain path (R70 to R79, R103): what a swap makes of a cell, what a closing pass that has
ended hands to the drain, one read of a finished set, one value at the end of the pipeline, and the statement O23. -/
namespace Sys2Proof

/-! ### Swaps (R70 to R72) -/

/-- The cell after its swap: its set keeps the swap draw, the other set is active and empty, and the cell is past its pass. -/
def Cell.swap (c : Cell) : Cell :=
  let d := lfsrDraw c.lfsr
  let c := c.setCur { c.cur with draw := BitVec.ofNat 16 d.1 }
  ({ c with lfsr := d.2, inB := !c.inB, waits := false, pos := c.pos + 1, k := 0 }).setCur {}

/-- The array when every cell has swapped. -/
def ArrayState.swapCells (a : ArrayState) : ArrayState := { a with cells := a.cells.map Cell.swap }

/-- The cell when the oldest pass, which it has ended, leaves the list. -/
def Cell.leavePass (c : Cell) : Cell := { c with pos := c.pos - 1, latches := c.latches.drop 1 }

theorem ArrayState.endPass_swap {a : ArrayState} {c : Cell} {p : Pass} (hp : p.closes = true) (hf : a.otherFree c = true) :
    a.endPass c p = c.swap := by
  simp [ArrayState.endPass, hp, hf, Cell.swap]

@[simp] theorem Cell.swap_waits (c : Cell) : c.swap.waits = false := by
  cases h : c.inB <;> simp [Cell.swap, Cell.setCur, h]

@[simp] theorem Cell.swap_pos (c : Cell) : c.swap.pos = c.pos + 1 := by
  cases h : c.inB <;> simp [Cell.swap, Cell.setCur, h]

/-- The finished set keeps its special flags. -/
theorem Cell.part_swap (c : Cell) : c.swap.part c.inB = { c.part c.inB with draw := BitVec.ofNat 16 (lfsrDraw c.lfsr).1 } := by
  cases h : c.inB <;> simp [Cell.swap, Cell.setCur, Cell.cur, Cell.part, h]

/-- In front of no earlier pass, the other set can become active once its drain has read every row (R72). -/
theorem ArrayState.otherFree_of_read {a : ArrayState} {c : Cell} (hpos : c.pos = 0)
    (hd : ∀ d ∈ a.drains, d.setB = c.inB ∨ ∀ r ∈ d.rows, 4 ≤ r) : a.otherFree c = true := by
  have hread : a.drains.any (fun d => d.setB == (!c.inB) && d.rows.any (· < 4)) = false := by
    refine List.any_eq_false.mpr fun d hm => ?_
    rcases hd d hm with h | h
    · simp [h]
    · simpa using fun _ => h
  simp [ArrayState.otherFree, hread, hpos]

/-- Past the end of the list a cell meets no `MCLOSE`. -/
theorem ArrayState.passCloses_end {a : ArrayState} {c : Cell} (n : Nat) (h : a.passes.length ≤ c.pos) : a.passCloses n c = c := by
  cases n with
  | zero => rfl
  | succ n => simp [ArrayState.passCloses, List.getElem?_eq_none h]

/-- When every cell waits at the only pass and the other set has been read, every cell swaps and the pass ends (R72). -/
theorem Core.deferredSwap_all {c : Core} {p : Pass} (hheld : c.arrayHeld = false) (hps : c.arr.passes = [p]) (hp : p.closes = true)
    (hcells : ∀ x ∈ c.arr.cells, x.pos = 0 ∧ x.waits = true ∧ x.inB = p.setB)
    (hd : ∀ d ∈ c.arr.drains, d.setB = p.setB ∨ ∀ r ∈ d.rows, 4 ≤ r) :
    c.deferredSwap = ({ c with arr := c.arr.swapCells }).retire := by
  unfold Core.deferredSwap
  rw [if_neg (by simp [hheld])]
  dsimp only
  rw [List.map_congr_left (l := c.arr.cells) (g := Cell.swap)]
  · rw [ArrayState.swapCells, hps]
    rfl
  · intro x hx
    obtain ⟨hpos, hwaits, hset⟩ := hcells x hx
    have hend : c.arr.endPass x p = x.swap := ArrayState.endPass_swap hp (ArrayState.otherFree_of_read hpos (hset ▸ hd))
    have hlen : c.arr.passes.length ≤ x.swap.pos := by simp [hps]
    have hat : c.arr.passes[x.pos]? = some p := by simp [hps, hpos]
    simp only [hwaits, hat, hend, Cell.swap_waits, ArrayState.passCloses_end _ hlen]
    rfl

/-! ### The end of a closing pass (R72, R79) -/

/-- The tile that a closing pass off the FP32 path hands to the drain: the repeats of that pass, and whether a cell has a special flag. -/
def ArrayState.closedTile (a : ArrayState) (p : Pass) : TileInfo :=
  { a.info p.setB with rep := BitVec.ofNat 2 (min 3 p.overflows.toNat), special := a.anySpecial p.setB }

theorem ArrayState.anySpecial_iff (a : ArrayState) (setB : Bool) :
    a.anySpecial setB = true ↔ ∃ c ∈ a.cells, (c.part setB).nan = true ∨ (c.part setB).pinf = true ∨ (c.part setB).ninf = true := by
  simp [ArrayState.anySpecial, or_assoc]

/-- A swap leaves the special flags of the finished set. -/
theorem ArrayState.anySpecial_swap {a : ArrayState} {setB : Bool} (h : ∀ c ∈ a.cells, c.inB = setB) :
    a.swapCells.anySpecial setB = a.anySpecial setB := by
  simp only [ArrayState.anySpecial, ArrayState.swapCells, List.any_map]
  rw [Bool.eq_iff_iff, List.any_eq_true, List.any_eq_true]
  refine exists_congr fun c => and_congr_right fun hc => ?_
  rw [Function.comp_apply, ← h c hc, Cell.part_swap]

/-- The array when the oldest pass leaves the list and `ps` remain. -/
def ArrayState.popPass (a : ArrayState) (ps : List Pass) : ArrayState :=
  { a with
    passes := ps
    cells := a.cells.map Cell.leavePass
    restart := a.restart.map (fun (r : Restart) => { r with pass := r.pass - 1 }) }

theorem ArrayState.popPass_of_no_restart {a : ArrayState} (ps : List Pass) (h : a.restart = none) :
    a.popPass ps = { a with passes := ps, cells := a.cells.map Cell.leavePass } := by
  have hmap : a.restart.map (fun (r : Restart) => { r with pass := r.pass - 1 }) = a.restart := by rw [h]; rfl
  rw [ArrayState.popPass, hmap]

theorem ArrayState.anySpecial_popPass (a : ArrayState) (ps : List Pass) (setB : Bool) :
    (a.popPass ps).anySpecial setB = a.anySpecial setB := by
  simp only [ArrayState.anySpecial, ArrayState.popPass, List.any_map]
  rfl

/-- A closing pass that has ended in every cell leaves the list, and its tile goes to the drain. -/
theorem Core.retire_closes {c : Core} {p : Pass} {ps : List Pass} (hps : c.arr.passes = p :: ps) (hpos : ∀ x ∈ c.arr.cells, 0 < x.pos)
    (hp : p.closes = true) (hop : p.isClose = false) (hbad : (c.arr.info p.setB).bad = false) (hfb : (c.arr.info p.setB).fb = false) :
    c.retire = { c with arr := { (c.arr.popPass ps).setInfo p.setB {} with
      drains := ((c.arr.popPass ps).setInfo p.setB {}).drains ++
        [{ setB := p.setB, info := c.arr.closedTile p, drec := p.drec, index := p.index }] } } := by
  have hall : c.arr.cells.all (fun x => 0 < x.pos) = true := by simpa using hpos
  unfold Core.retire ArrayState.closedTile
  rw [← ArrayState.anySpecial_popPass c.arr ps]
  simp only [hps, hall, hop, hfb, hp, hbad]
  rfl

/-! ### Reads of a finished set (R72, R103) -/

/-- All four columns stand at the same row of the drain in front: one read takes the row, and its cells are cleared. -/
theorem Core.drainRead_row {c : Core} {d : Drain} {rest : List Drain} {r : Nat} (hd : c.arr.drains = d :: rest)
    (hs : drToScratch d.drec = true) (hr : r < 4) (hrows : d.rows = [r, r, r, r]) :
    c.drainRead 0 = { c with arr := { c.arr with
      cells := [0, 1, 2, 3].foldl (fun cs j => modNth cs (4 * r + j) (fun x => x.setPart d.setB {})) c.arr.cells
      drains := { d with
        rows := [r + 1, r + 1, r + 1, r + 1]
        pipe := d.pipe ++ [0, 1, 2, 3].map (fun j => ⟨4 * r + j, (nth {} c.arr.cells (4 * r + j)).part d.setB⟩) } :: rest } } := by
  have hfind : c.arr.readingDrain = some 0 := by simp [ArrayState.readingDrain, hd, List.findIdx?_cons, hrows, hr]
  have hat : c.arr.drains[0]? = some d := by simp [hd]
  have hcols : readCols d 0 = [0, 1, 2, 3] := by simp [readCols, hrows, nth, hr, List.range_succ]
  have hres : c.reserveEntry 0 d = some c := by simp [Core.reserveEntry, hs]
  unfold Core.drainRead
  simp only [hfind, hat, hcols, hres]
  simp [hrows, hd, modNth, nth]

theorem Core.drainReadEvent_clean {c : Core} (held : BitVec 4) (h : c.restorePend = false) :
    c.drainReadEvent held .clean = c.drainRead held := by
  simp [Core.drainReadEvent, h]

/-! ### Output of a value (R77) -/

theorem Core.drainOutputEvent_runs {c : Core} (h : c.restorePend = false) : c.drainOutputEvent = c.drainOutput := by
  simp [Core.drainOutputEvent, h]

/-- The oldest value of the drain in front leaves the pipeline. -/
theorem Core.drainOutput_front {c : Core} {d : Drain} {rest : List Drain} {v : DrainVal} {vs : List DrainVal}
    (hd : c.arr.drains = d :: rest) (hv : d.pipe = v :: vs) : c.drainOutput = c.outputValue 0 d v vs := by
  simp [Core.drainOutput, hd, List.findIdx?_cons, hv]

/-- A value that the record marks valid, of a tile that goes to the scratchpad outside the MX formats and is not its last, is written
at its place with its flags. -/
theorem Core.outputValue_scratch {c : Core} {i : Nat} {d : Drain} {v : DrainVal} {vs : List DrainVal} (hs : drToScratch d.drec = true)
    (hmx : (drFmt d.drec).isMx = false) (hdone : d.done < 15) (hnorm : drNormOn d.drec = false)
    (hok : drValid d.drec (outIndex d.info v.cell) = true) :
    let r := encode (drFmt d.drec) (drainValue c.scratch d v) (if drSr d.drec then .sr v.set.draw.toNat else .rn) (drSat d.drec)
    c.outputValue i d v vs = { c with
      scratch := writeElem c.scratch (drFmt d.drec) (drOutput d.drec) (outIndex d.info v.cell) r.1
      cvt := c.cvt ||| r.2
      arr := { c.arr with drains := c.arr.drains.set i { d with pipe := vs, done := d.done + 1 } } } := by
  have hmore : d.done + 1 < 16 := by omega
  simp [Core.outputValue, Core.deliver, Core.normValue, hs, hmx, hnorm, hok, hmore]

end Sys2Proof

namespace Sys2Proof.Claims

open Sys2Proof.Machine

theorem deferredSwap : DeferredSwap := by
  intro s id p hruns k a t swapped hpend hrestart hps hp hop hcells hne hdrains hbad hfb
  have hheld : k.arrayHeld = false := by
    rw [Core.arrayHeld, hpend, show k.arr.restart = none from hrestart]
    rfl
  have hpos : ∀ x ∈ a.swapCells.cells, 0 < x.pos := by simp [ArrayState.swapCells]
  have hret := Core.retire_closes (c := { k with arr := a.swapCells }) hps hpos hp hop hbad hfb
  have hcell : a.swapCells.cells.map Cell.leavePass = a.cells.map swapped := by
    rw [ArrayState.swapCells, List.map_map]
    refine List.map_congr_left fun c hc => ?_
    obtain ⟨hzero, -, -⟩ := hcells c hc
    cases h : c.inB <;> simp [swapped, Cell.swap, Cell.leavePass, Cell.setCur, Cell.cur, h, hzero]
  have harr : a.swapCells.popPass [] = { a with passes := [], cells := a.cells.map swapped } := by
    rw [ArrayState.popPass_of_no_restart (a := a.swapCells) _ hrestart, hcell]
    rfl
  refine ⟨a.swapCells.closedTile p, exec_eq_after rfl hruns ?_ rfl rfl, rfl, ?_, rfl, rfl, rfl, rfl, ?_⟩
  · show k.deferredSwap = _
    rw [Core.deferredSwap_all hheld hps hp hcells hdrains, hret, harr]
    cases p.setB <;> rfl
  · show (BitVec.ofNat 2 (min 3 p.overflows.toNat)).toNat = _
    rw [BitVec.toNat_ofNat]
    omega
  · show a.swapCells.anySpecial p.setB = true ↔ _
    rw [ArrayState.anySpecial_swap fun c hc => (hcells c hc).2.2, ArrayState.anySpecial_iff]

theorem drains : Drains := by
  intro s id d rest hruns k hpend hd hs
  refine ⟨fun r hrows => ?_, fun v vs hv hmx hdone hnorm => ?_⟩
  · exact exec_eq_after rfl hruns ((Core.drainReadEvent_clean 0 hpend).trans (Core.drainRead_row hd hs r.isLt hrows)) rfl rfl
  · intro n hok _
    have hout := Core.outputValue_scratch (c := k) (i := 0) (vs := vs) hs hmx hdone hnorm hok
    rw [hd] at hout
    exact exec_eq_after rfl hruns ((Core.drainOutputEvent_runs hpend).trans ((Core.drainOutput_front hd hv).trans hout)) rfl rfl

/-- Settles O23: the deferred swap of a closing pass, and the reads and outputs of the drain path. -/
theorem swapsAndDrains : Obligations.SwapsAndDrains := ⟨deferredSwap, drains⟩

end Sys2Proof.Claims
end

section
/-! PROOFS. Streams (R181 to R199): what a change of one stream is read back as, one line on its way into the scratchpad, how a stream
ends, the places it takes, and the statement O30. -/
namespace Sys2Proof

open Claims

/-! ### One stream of a cluster -/

theorem Chip.serial_of_stream {c : Chip} {cl : ClusterId} {n : BitVec 16} {st : Stream} (h : c.stream cl n = some st) : st.serial = n := by
  simpa using List.find?_some h

/-- A change of the streams numbered `m` that keeps serials changes what is found under `n` only when `n` is `m`. -/
theorem find?_serial_change (l : List Stream) (m n : BitVec 16) {f : Stream → Stream} (hf : ∀ s, (f s).serial = s.serial) :
    (l.map (fun s => if s.serial == m then f s else s)).find? (fun s => s.serial == n) =
      (l.find? (fun s => s.serial == n)).map (fun s => if n = m then f s else s) := by
  have hser : ∀ s : Stream, (if s.serial == m then f s else s).serial = s.serial := fun s => by split <;> simp [hf]
  rw [List.find?_map, show ((fun s : Stream => s.serial == n) ∘ fun s => if s.serial == m then f s else s) = fun s => s.serial == n from
    funext fun s => congrArg (· == n) (hser s)]
  cases h : l.find? (fun s => s.serial == n) with
  | none => rfl
  | some s =>
    obtain rfl : s.serial = n := by simpa using List.find?_some h
    simp

theorem Chip.find?_streams (c : Chip) (cl : ClusterId) (n : BitVec 16) :
    (c.cluster cl).streams.find? (fun s => s.serial == n) = c.stream cl n := rfl

theorem Chip.stream_setCluster (c : Chip) (cl : ClusterId) (x : Cluster) (n : BitVec 16) :
    (c.setCluster cl x).stream cl n = x.streams.find? (fun s => s.serial == n) := by
  rw [Chip.stream, Chip.cluster_setCluster]

theorem Chip.stream_modStream {c : Chip} {cl : ClusterId} {n : BitVec 16} {st : Stream} {f : Stream → Stream}
    (h : c.stream cl n = some st) (hf : ∀ s, (f s).serial = s.serial) : (c.modStream cl n f).stream cl n = some (f st) := by
  rw [Chip.modStream, Chip.modCluster, Chip.stream_setCluster, find?_serial_change _ _ _ hf, Chip.find?_streams, h]
  simp

@[simp] theorem Chip.core_modStream (c : Chip) (cl : ClusterId) (n : BitVec 16) (f : Stream → Stream) (id : CoreId) :
    (c.modStream cl n f).core id = c.core id := rfl
@[simp] theorem Chip.stream_modCore (c : Chip) (id : CoreId) (f : Core → Core) (cl : ClusterId) (n : BitVec 16) :
    (c.modCore id f).stream cl n = c.stream cl n := rfl

@[simp] theorem Chip.streams_dropStream (c : Chip) (cl : ClusterId) (n : BitVec 16) :
    ((c.dropStream cl n).cluster cl).streams = (c.cluster cl).streams.filter (fun s => s.serial != n) := by
  rw [Chip.dropStream, Chip.modCluster, Chip.cluster_setCluster]

theorem Chip.unjoin_cores (c : Chip) (t : TenantId) (r : Requester) : (c.unjoin t r).cores = c.cores := by
  unfold Chip.unjoin Chip.modTenant
  split <;> rfl

theorem Chip.unjoin_clusters (c : Chip) (t : TenantId) (r : Requester) : (c.unjoin t r).clusters = c.clusters := by
  unfold Chip.unjoin Chip.modTenant
  split <;> rfl

/-! ### Lines read from the home (R361) -/

/-- `c'` holds the cores, the bytes of memory and the streams of a cluster as `c` does. -/
structure Chip.SameLoads (c c' : Chip) (cl : ClusterId) : Prop where
  cores : c'.cores = c.cores
  bytes : c'.mem.bytes = c.mem.bytes
  streams : (c'.cluster cl).streams = (c.cluster cl).streams

theorem MemState.touch_bytes (m : MemState) (a n : Nat) : (m.touch a n).bytes = m.bytes := by
  unfold MemState.touch
  split <;> rfl

theorem Cluster.install_streams (x : Cluster) (line : Nat) (data : List Byte) (poisoned alloc : Bool) (seq : Nat) :
    (x.install line data poisoned alloc seq).streams = x.streams := by
  unfold Cluster.install
  dsimp only
  split <;> rfl

theorem Chip.fillLines_sameLoads (c : Chip) (cl : ClusterId) (s : Stream) (pas : List Nat) : c.SameLoads (c.fillLines cl s pas) cl := by
  unfold Chip.fillLines
  refine List.foldlRecOn (motive := fun c' => c.SameLoads c' cl) _ _ ⟨rfl, rfl, rfl⟩ fun c' h line _ => ?_
  split
  · exact h
  · refine ⟨h.cores, (MemState.touch_bytes _ _ _).trans h.bytes, ?_⟩
    rw [Chip.modCluster, Chip.cluster_setCluster]
    exact (Cluster.install_streams _ _ _ _ _ _).trans h.streams

/-! ### One line from memory to scratchpad (R181, R183, R196) -/

/-- The bytes that a unit brings from memory: 0 outside the extents. -/
def Chip.unitBytes (c : Chip) (cl : ClusterId) (s : Stream) (u : WalkUnit) : List Byte :=
  if u.outside then List.replicate (dGroup s.desc).2 0
  else (reached (c.reach cl s s.src u.src (dGroup s.desc).2 0)).map (c.streamByte cl s)

/-- Every byte of a unit is reached without a violation, and none is poisoned. -/
def Chip.Readable (c : Chip) (cl : ClusterId) (s : Stream) (u : WalkUnit) : Prop :=
  u.outside = false → firstBad (c.reach cl s s.src u.src (dGroup s.desc).2 0) = none ∧
    ∀ p ∈ reached (c.reach cl s s.src u.src (dGroup s.desc).2 0), c.streamPoison cl s p = false

/-- A stream after a line of `moved` bytes without poison. -/
def Stream.advance (s : Stream) (rs : List UnitRead) (moved : Nat) : Stream :=
  { s.gather rs with lines := s.lines + 1, badPages := [], turn := s.turn + moved, poisoned := s.poisoned }

theorem Stream.serial_advance (s : Stream) (rs : List UnitRead) (moved : Nat) : (s.advance rs moved).serial = s.serial := by
  unfold Stream.advance Stream.gather
  split <;> rfl

section
variable {c : Chip} {cl : ClusterId} {n : BitVec 16} {s : Stream} (hkind : s.kind = .plain) (hpath : dPath s.desc = 0)
include hkind hpath

theorem Chip.readUnit_memory {u : WalkUnit} (h : c.Readable cl s u) (i j : Nat) :
    c.readUnit cl s u i j [] = { bytes := c.unitBytes cl s u } := by
  cases ho : u.outside with
  | true => simp [Chip.readUnit, Chip.unitBytes, hkind, hpath, ho]
  | false =>
    obtain ⟨hbad, hclean⟩ := h ho
    have hany : (reached (c.reach cl s s.src u.src (dGroup s.desc).2 0)).any (c.streamPoison cl s) = false :=
      List.any_eq_false.mpr fun p hp => by simp [hclean p hp]
    simp [Chip.readUnit, Chip.unitBytes, hkind, hpath, ho, srcScratch, hbad, hany]

theorem Chip.lineMiss_toScratch (us : List WalkUnit) :
    c.lineMiss cl s us = (us.findSome? (fun u =>
      if u.outside then none else firstMiss (c.reach cl s s.src u.src (dGroup s.desc).2 0))).map (fun va => (va, false)) := by
  unfold Chip.lineMiss
  simp only [hkind, hpath]
  cases us.findSome? (fun u => if u.outside then none else firstMiss (c.reach cl s s.src u.src (dGroup s.desc).2 0)) <;> rfl

/-- A line of readable units is read from the home and written to the core's scratchpad, and the stream goes on to its next line. -/
theorem Chip.deliver_toScratch (v : Env) {us : List WalkUnit} (h : ∀ u ∈ us, c.Readable cl s u) :
    ∃ pas rs moved, c.deliver v cl s us [] = ((c.fillLines cl s pas).modCore s.core (fun k => { k with
      scratch := us.foldl (fun (m : Memory) u => m.write u.dst.toNat (c.unitBytes cl s u)) k.scratch })).modStream cl s.serial
        (fun x => x.advance rs moved) := by
  have hreads : us.zipIdx.map (fun p => c.readUnit cl s p.1 (p.2 * (dGroup s.desc).2)
      (lineStart s.desc s.lines + p.2 * (dGroup s.desc).2) []) = us.map (fun u => ({ bytes := c.unitBytes cl s u } : UnitRead)) := by
    calc
      _ = us.zipIdx.map (fun p => ({ bytes := c.unitBytes cl s p.1 } : UnitRead)) :=
        List.map_congr_left fun p hp => Chip.readUnit_memory hkind hpath (h p.1 (List.fst_mem_of_mem_zipIdx hp)) _ _
      _ = (us.zipIdx.map Prod.fst).map (fun u => { bytes := c.unitBytes cl s u }) := by
        simp only [List.map_map, Function.comp_def]
      _ = _ := by rw [List.zipIdx_map_fst]
  have hbad : (us.map (fun u => ({ bytes := c.unitBytes cl s u } : UnitRead))).findSome? (·.bad) = none := by simp
  have hclean : (us.map (fun u => ({ bytes := c.unitBytes cl s u } : UnitRead))).any (·.poisoned) = false := by simp
  refine ⟨us.flatMap (fun u => if u.outside then [] else reached (c.reach cl s s.src u.src (dGroup s.desc).2 0)),
    us.map (fun u => { bytes := c.unitBytes cl s u }), us.length * (dGroup s.desc).2, ?_⟩
  unfold Chip.deliver
  simp only [hreads, hbad, hclean, hkind, hpath, dstScratch, srcScratch, ← List.map_prod_left_eq_zip, List.foldl_map,
    Bool.false_and, Bool.or_false]
  rfl

end

theorem Chip.lineDelivery_miss {c : Chip} {cl : ClusterId} {n : BitVec 16} {s : Stream} (v : Env) {va : Nat} {write : Bool}
    (hs : c.stream cl n = some s) (hmove : c.canMove cl s = true) (hpath : dPath s.desc = 0)
    (hmiss : c.lineMiss cl s (lineUnits s.kind s.desc s.lines) = some (va, write)) :
    c.lineDelivery v cl n = c.modStream cl n (fun (s : Stream) => { s with st := .translate (BitVec.ofNat 48 va) write }) := by
  simp [Chip.lineDelivery, hs, hmove, hpath, hmiss]

theorem Chip.lineDelivery_present {c : Chip} {cl : ClusterId} {n : BitVec 16} {s : Stream} (v : Env)
    (hs : c.stream cl n = some s) (hmove : c.canMove cl s = true) (hpath : dPath s.desc = 0)
    (hmiss : c.lineMiss cl s (lineUnits s.kind s.desc s.lines) = none) :
    c.lineDelivery v cl n = c.deliver v cl s (lineUnits s.kind s.desc s.lines) [] := by
  simp [Chip.lineDelivery, hs, hmove, hpath, hmiss]

/-! ### Ends (R185, R188, R190, R198) -/

theorem Chip.streamComplete_of_lines_left {c : Chip} {cl : ClusterId} {s : Stream} (h : s.lines < dLines s.desc) :
    c.streamComplete cl s = false := by
  simp [Chip.streamComplete, Nat.not_le.mpr h]

theorem Core.noteStatus_eq (k : Core) (status : Nat) : k.noteStatus status = { k with xferStatus := noted k.xferStatus status } := by
  unfold Core.noteStatus noted
  by_cases h : k.xferStatus = 0
  · rw [if_pos (beq_iff_eq.mpr h), if_pos h]
  · rw [if_neg (mt beq_iff_eq.mp h), if_neg h]

/-- The completion word is the one that the statement spells out (Table 07.5). -/
theorem completionWord_eq_wordOf : completionWord = wordOf := rfl

/-- A stream in a hardware context holds no spill entry. -/
theorem Chip.releasePlace_hw (c : Chip) {s : Stream} (h : s.place ≠ .spilled) : c.releasePlace s = c := by
  simp [Chip.releasePlace, h]

theorem Chip.countTarget_none (c : Chip) {s : Stream} (h : s.sender = none) : c.countTarget s = c := by
  simp [Chip.countTarget, h]

section
variable {c : Chip} {cl : ClusterId} {n : BitVec 16} {st : Stream} (hst : c.stream cl n = some st)
include hst

/-- In its core's transfer phase a stream that ends shows its completion word at once, and is gone. -/
theorem Chip.endStream_transferring (status : Nat) (hsender : st.sender = none) (hplace : st.place ≠ .spilled)
    (hk : Transferring (c.core st.core)) :
    c.endStream cl n status = (c.setCore st.core (endedIn (c.core st.core) st status)).dropStream cl n := by
  obtain ⟨hphase, hpre⟩ := hk
  unfold Chip.endStream
  simp only [hst, Chip.releasePlace_hw c hplace, Chip.countTarget_none c hsender, Chip.modCore, Core.noteStatus_eq, Chip.core_setCore]
  rw [if_pos (by simp [Core.inTransfer, hphase, hpre]), Chip.setCore_setCore]
  rfl

/-- A stream of the core's own, other than a sender, that is complete ends with `FAULT` when it has met poison (R185, R324). -/
theorem Chip.streamEnd_complete (hdone : c.streamComplete cl st = true) (hdet : st.detached = false) (hmc : st.kind ≠ .multicast)
    (hmissed : st.missed = false) (hk : Transferring (c.core st.core)) :
    c.streamEnd cl n = c.endStream cl n (if st.poisoned = true then 11 else 0) := by
  simp [Chip.streamEnd, hst, hdone, hdet, hmc, hmissed, Core.inTransfer, hk.1, stFault, stOk]

theorem Chip.streamEnd_incomplete (h : c.streamComplete cl st = false) : c.streamEnd cl n = c := by
  simp [Chip.streamEnd, hst, h]

theorem Chip.detachedEnd_complete (v : Env) (hdone : c.streamComplete cl st = true) (hdet : st.detached = true)
    (hplace : st.place ≠ .spilled) (hok : handleOk st.dst (fieldLe st.desc 120 6) 8 1 = true) :
    c.detachedEnd v cl n = (c.dropStream cl n).vwrite st.tenant (handleBase st.dst + fieldLe st.desc 120 6)
      (wordOf (if st.poisoned = true then 11 else 0) 1 st.lines) := by
  simp [Chip.detachedEnd, hst, hdone, hdet, Chip.releasePlace_hw c hplace, Chip.detachedRecord, hok, stFault, stOk,
    completionWord_eq_wordOf]

/-- A receive that has met no sender, and finds none at its limit, ends. -/
theorem Chip.mcRecvTimeout_alone (v : Env) (hkind : st.kind = .plain) (hpath : dPath st.desc = 4) (hrun : st.st = .running)
    (hsender : st.sender = none) (hnone : c.findSender cl st = none)
    (hlimit : st.opened + 64000 * (if fieldLe st.desc 112 4 = 0 then 10000 else fieldLe st.desc 112 4) ≤ v.now) :
    c.mcRecvTimeout v cl n = c.endStream cl n 12 := by
  unfold Chip.mcRecvTimeout
  simp only [hst, hsender, hnone, beq_iff_eq]
  exact if_pos (by simpa [hkind, hpath, hrun, usTicks, Nat.mul_comm] using hlimit)

/-- A sender that waits for a target which has opened no receive by its limit misses it. -/
theorem Chip.mcSendTimeout_missed (v : Env) (hkind : st.kind = .multicast) (hrun : st.st = .running)
    (hlines : st.lines < dLines st.desc) (htarget : ∃ t ∈ st.targets, t ∉ st.matched) (hlimit : st.opened + 640000000 ≤ v.now)
    (hseek : c.seekers st = []) :
    c.mcSendTimeout v cl n = c.modStream cl n (fun (s : Stream) => { s with missed := true }) := by
  have hwaits : st.targets.all st.matched.contains = false := by simpa [List.all_eq_false] using htarget
  have hmod := Chip.stream_modStream (f := fun (s : Stream) => { s with missed := true }) hst fun _ => rfl
  rw [← Chip.streamEnd_incomplete (n := n) hmod (Chip.streamComplete_of_lines_left hlines)]
  simp [Chip.mcSendTimeout, hst, hkind, hrun, usTicks, hlimit, hseek, hwaits]

/-- A parked stream into the scratchpad that ends leaves its markers and word to the next transfer phase (R198). -/
theorem Chip.parkExpiry_toScratch (v : Env) {ten : Tenant} (hten : c.tenant st.tenant = some ten) (hpark : st.st = .parked)
    (hlimit : st.since + ten.parkLimit ≤ v.ns) (hdet : st.detached = false) (hpath : dPath st.desc = 0) (hsender : st.sender = none)
    (hplace : st.place ≠ .spilled) :
    c.parkExpiry v cl n = (((c.unjoin st.tenant (.stream cl n)).modCore st.core (fun k => k.noteStatus 11)).modStream cl n
      (fun (s : Stream) => { s with st := .ended 11, wordDue := true, markDue := true })) := by
  simp [Chip.parkExpiry, Chip.endParked, hst, hten, hpark, hlimit, hdet, hpath, dstScratch, Chip.releasePlace_hw _ hplace,
    Chip.countTarget_none _ hsender, stFault]

/-! ### Places (R191, R193, R194, R199) -/

theorem Chip.parkedSpill_moves (hpark : st.st = .parked) (hplace : st.place ≠ .spilled)
    (hroom : c.mem.spillUse.toNat < c.mem.spillEntries) :
    c.parkedSpill cl n = ({ c with mem := c.mem.spillTake }).modStream cl n (fun (s : Stream) => { s with place := .spilled }) := by
  simp [Chip.parkedSpill, hst, hpark, hplace, hroom]

theorem Chip.preemptPark_stands (hpre : (c.core st.core).preempt = .requested) (hdet : st.detached = false) (hrun : st.st = .running) :
    c.preemptPark cl n = c.modStream cl n (fun (s : Stream) => { s with st := .preempted }) := by
  simp [Chip.preemptPark, hst, hpre, hdet, hrun]

end

theorem Cluster.find?_setPlace (x : Cluster) (m : BitVec 16) (p : Place) (n : BitVec 16) :
    (x.setPlace m p).streams.find? (fun s => s.serial == n) =
      (x.streams.find? (fun s => s.serial == n)).map (fun s => if n = m then { s with place := p, turn := 0 } else s) :=
  find?_serial_change _ _ _ fun _ => rfl

theorem mem_insertFront {α : Type} {le : α → α → Bool} {x y : α} {l : List α} :
    x ∈ sortBy.insertFront le y l ↔ x = y ∨ x ∈ l := by
  induction l with
  | nil => simp [sortBy.insertFront]
  | cons z zs ih => by_cases h : le y z = true <;> simp [sortBy.insertFront, h, ih, or_left_comm]

theorem mem_sortBy {α : Type} {le : α → α → Bool} {x : α} {l : List α} : x ∈ sortBy le l ↔ x ∈ l := by
  induction l with
  | nil => simp [sortBy]
  | cons y ys ih => simp [sortBy, mem_insertFront, ih]

theorem Cluster.place_of_waiting {x : Cluster} {w : Stream} (h : w ∈ x.waiting) : w.place = .spilled := by
  obtain ⟨-, hplace⟩ := List.mem_filter.mp (mem_sortBy.mp h)
  rw [Bool.and_eq_true, beq_iff_eq] at hplace
  exact hplace.1

/-- The stream that holds context 15 (R193). -/
def Cluster.rotating (x : Cluster) : Option Stream :=
  x.streams.find? (fun s => s.place == .hw 15 && !(match s.st with
    | .ended _ => true
    | _ => false))

theorem Cluster.place_of_rotating {x : Cluster} {s : Stream} (h : x.rotating = some s) : s.place = .hw 15 := by
  have hp := List.find?_some h
  rw [Bool.and_eq_true, beq_iff_eq] at hp
  exact hp.1

/-- The waiting stream that follows an order in the cycle: the first later one, or the oldest when none is later. -/
theorem find?_next_in_cycle {pre post ws : List Stream} {w w0 : Stream} {o : Nat} (hl : pre ++ w :: post = w0 :: ws)
    (hpre : ∀ y ∈ pre, y.order ≤ o) (hnext : o < w.order ∨ pre = [] ∧ ∀ y ∈ w :: post, y.order ≤ o) :
    ((w0 :: ws).find? (fun y => decide (o < y.order))).getD w0 = w := by
  have hpre' : pre.find? (fun y => decide (o < y.order)) = none := List.find?_eq_none.mpr fun y hy => by simpa using hpre y hy
  rcases hnext with hlater | ⟨rfl, hall⟩
  · rw [← hl, List.find?_append, hpre']
    simp [hlater]
  · obtain ⟨rfl, rfl⟩ := List.cons.inj hl
    rw [List.find?_eq_none.mpr fun y hy => by simpa using hall y hy, Option.getD_none]

/-- The stream of context 15 whose turn has ended gives the context to the next one of the cycle. -/
theorem Chip.spillRotation_turn {c : Chip} {cl : ClusterId} {st w : Stream} {pre post : List Stream}
    (hhold : (c.cluster cl).rotating = some st) (hturn : st.st = .parked ∨ 4096 ≤ st.turn)
    (hwait : (c.cluster cl).waiting = pre ++ w :: post) (hpre : ∀ y ∈ pre, y.order ≤ st.order)
    (hnext : st.order < w.order ∨ pre = [] ∧ ∀ y ∈ w :: post, y.order ≤ st.order) :
    c.spillRotation cl =
      c.setCluster cl (((c.cluster cl).setPlace st.serial .spilled).setPlace w.serial (.hw 15)) := by
  obtain ⟨w0, ws, hl⟩ : ∃ w0 ws, pre ++ w :: post = w0 :: ws := List.exists_cons_of_ne_nil (by simp)
  have hend : (st.st == .parked || decide (4096 ≤ st.turn)) = true := by simpa using hturn
  unfold Chip.spillRotation
  simp only [hwait.trans hl]
  split
  · next y hy =>
    obtain rfl : y = st := Option.some.inj (hy.symm.trans hhold)
    rw [if_pos hend, find?_next_in_cycle hl hpre hnext]
  · next hy => cases hy.symm.trans hhold

/-- The lowest free context, when it is not context 15, takes the oldest stream that waits. -/
theorem Chip.spillPromotion_oldest {c : Chip} {cl : ClusterId} {w : Stream} {rest : List Stream} {i : Nat} {free : List Nat}
    (hwait : (c.cluster cl).waiting = w :: rest) (hfree : (c.cluster cl).freeContexts = i :: free) (hi : i < 15) :
    c.spillPromotion cl =
      ({ c with mem := c.mem.spillFree }).setCluster cl ((c.cluster cl).setPlace w.serial (.hw (BitVec.ofNat 4 i))) := by
  simp [Chip.spillPromotion, hwait, hfree, hi]

end Sys2Proof

namespace Sys2Proof.Claims

open Sys2Proof.Machine

theorem lineDelivery : LineDelivery := by
  intro s cl n st k us from' bytes hst hmove hkind hpath
  have hmisses := Chip.lineMiss_toScratch (c := s.chip) (cl := cl) hkind hpath us
  refine ⟨fun hpages => ?_, fun u pre post va hus hpre hin hva => ?_⟩
  · have hpresent : s.chip.lineMiss cl st us = none := by
      rw [hmisses, List.findSome?_eq_none_iff.mpr fun u hu => ?_, Option.map_none]
      cases ho : u.outside with
      | true => rfl
      | false => exact (hpages u hu ho).1
    obtain ⟨pas, rs, moved, hdeliver⟩ :=
      Chip.deliver_toScratch (c := s.chip) (cl := cl) hkind hpath s.env fun u hu ho => (hpages u hu ho).2
    have hsame := s.chip.fillLines_sameLoads cl st pas
    refine ⟨_, rfl, ?_⟩
    rw [State.onChip_chip, Chip.lineDelivery_present s.env hst hmove hpath hpresent, hdeliver, Chip.serial_of_stream hst]
    refine ⟨?_, ?_, hsame.bytes⟩
    · rw [Chip.core_modStream, Chip.core_modCore, Chip.core, hsame.cores]
      rfl
    · have hfilled : (s.chip.fillLines cl st pas).stream cl n = some st := by rw [Chip.stream, hsame.streams]; exact hst
      rw [Chip.stream_modStream (st := st) (by simpa using hfilled) fun x => x.serial_advance rs moved]
      rfl
  · have hmiss : s.chip.lineMiss cl st us = some (va, false) := by
      rw [hmisses, hus, List.findSome?_append, List.findSome?_eq_none_iff.mpr fun y hy => ?_]
      · simp [hin, show firstMiss (s.chip.reach cl st st.src u.src (dGroup st.desc).2 0) = some va from hva]
      · rcases hpre y hy with h | h
        · rw [if_pos h]
        · rw [show firstMiss (s.chip.reach cl st st.src y.src (dGroup st.desc).2 0) = none from h, ite_self]
    refine ⟨_, rfl, ?_⟩
    rw [State.onChip_chip, Chip.lineDelivery_miss s.env hst hmove hpath hmiss]
    exact ⟨rfl, rfl, Chip.stream_modStream hst fun _ => rfl⟩

theorem streamEnds : StreamEnds := by
  intro s cl n st k ended hst hsender hplace
  have hended (i : Instr) (f : Chip → Chip) (status : Nat) (hx : exec i s = .next (s.onChip f))
      (hf : f s.chip = s.chip.endStream cl n status) (hk : Transferring k) : ended i status := by
    refine ⟨_, hx, ?_⟩
    rw [State.onChip_chip, hf, Chip.endStream_transferring hst status hsender hplace hk]
    exact ⟨Chip.core_setCore _ _ _, rfl, Chip.streams_dropStream _ _ _⟩
  refine ⟨fun hrun hlines hout => ?_, fun hkind hpath hrun hk hlimit hnone => ?_, fun hkind hrun hlines htarget hlimit hseek => ?_,
    fun ten hten hpark hlimit hdet hpath => ?_⟩
  · have hdone : s.chip.streamComplete cl st = true := by simp [Chip.streamComplete, hrun, hlines, hout]
    refine ⟨fun hdet hmc hmissed hk => ?_, fun hdet hok => ?_⟩
    · exact hended _ _ _ rfl (Chip.streamEnd_complete hst hdone hdet hmc hmissed hk) hk
    · exact congrArg (fun c => Host.Outcome.next { s with chip := c }) (Chip.detachedEnd_complete hst s.env hdone hdet hplace hok)
  · exact hended _ _ _ rfl (Chip.mcRecvTimeout_alone hst s.env hkind hpath hrun hsender hnone hlimit) hk
  · refine ⟨_, rfl, ?_⟩
    rw [State.onChip_chip, Chip.mcSendTimeout_missed hst s.env hkind hrun hlines htarget hlimit hseek]
    exact Chip.stream_modStream hst fun _ => rfl
  · refine ⟨_, rfl, ?_⟩
    rw [State.onChip_chip, Chip.parkExpiry_toScratch hst s.env hten hpark hlimit hdet hpath hsender hplace]
    have hjoin : (s.chip.unjoin st.tenant (.stream cl n)).stream cl n = some st := by
      rw [Chip.stream, Chip.cluster, Chip.unjoin_clusters]; exact hst
    refine ⟨?_, Chip.stream_modStream (by simpa using hjoin) fun _ => rfl⟩
    rw [Chip.core_modStream, Chip.core_modCore, Core.noteStatus_eq, Chip.core, Chip.unjoin_cores]
    rfl

theorem streamPlaces : StreamPlaces := by
  intro s cl n st w x hst
  refine ⟨fun hpark hplace hroom => ?_, fun hhold hturn hw pre post hwait hpre hnext => ?_, fun i free rest hwait hw hfree hi => ?_,
    fun hpre hdet hrun => ?_⟩
  · refine ⟨_, rfl, ?_⟩
    rw [State.onChip_chip, Chip.parkedSpill_moves hst hpark hplace hroom]
    exact ⟨Chip.stream_modStream (c := { s.chip with mem := s.chip.mem.spillTake }) hst fun _ => rfl, rfl, rfl⟩
  · have hspilled : w.place = .spilled := Cluster.place_of_waiting (x := x) (by simp [hwait])
    have hhw : st.place = .hw 15 := Cluster.place_of_rotating (x := x) hhold
    have hne : n ≠ w.serial := by
      rintro rfl
      obtain rfl : st = w := Option.some.inj (hst.symm.trans hw)
      cases hhw.symm.trans hspilled
    refine ⟨_, rfl, ?_⟩
    rw [State.onChip_chip, Chip.spillRotation_turn hhold hturn hwait hpre hnext]
    simp only [Chip.stream_setCluster, Cluster.find?_setPlace, Chip.find?_streams, hst, hw]
    simp [Chip.serial_of_stream hst, hne, hne.symm]
  · refine ⟨_, rfl, ?_⟩
    rw [State.onChip_chip, Chip.spillPromotion_oldest hwait hfree hi, Chip.stream_setCluster, Cluster.find?_setPlace,
      Chip.find?_streams, hw]
    simp [MemState.spillFree]
  · refine ⟨_, rfl, ?_⟩
    rw [State.onChip_chip, Chip.preemptPark_stands hst hpre hdet hrun]
    exact ⟨Chip.stream_modStream hst fun _ => rfl, rfl⟩

/-- Settles O30: the lines of a stream, its end, and the places it takes. -/
theorem streams : Obligations.Streams := ⟨lineDelivery, streamEnds, streamPlaces⟩

end Sys2Proof.Claims
end

section
/-! PROOFS. The reduction of a moult's scores, its votes and its end (R246, R247, R258 to R260): what a step that every sequencer takes
leaves, what each event makes of the chip, and the statement O51. -/
namespace Sys2Proof

/-! ### Updates of every sequencer -/

@[simp] theorem Chip.job_modSeqs (c : Chip) (f : Nat → Sequencer → Sequencer) (h : JobId) : (c.modSeqs f).job h = c.job h := rfl

theorem Chip.seq_modSeqs (c : Chip) (f : Nat → Sequencer → Sequencer) {d : Nat} (h : d < c.seqs.length) :
    (c.modSeqs f).seq d = f d (c.seq d) := by
  simp [Chip.seq, Chip.modSeqs, nth, h]

/-- A sequencer of a die that the moult of a job has ended on (R259, Table 09.8). -/
def Sequencer.endMoult (q : Sequencer) (h : JobId) (status : Nat) : Sequencer :=
  let shown := { q with last := BitVec.ofNat 16 status, committed := status == stOk, cancelled := status != stOk }
  if q.running && q.job != h then shown else { shown with running := false, job := h, phase := 0, current := 0, layers := [] }

/-- It shows the status, whatever it runs now. -/
theorem Sequencer.endMoult_shows (q : Sequencer) (h : JobId) (status : Nat) :
    (q.endMoult h status).cancelled = (status != stOk) ∧ (q.endMoult h status).committed = (status == stOk) ∧
    (q.endMoult h status).last = BitVec.ofNat 16 status := by
  unfold Sequencer.endMoult
  dsimp only
  split
  · exact ⟨rfl, rfl, rfl⟩
  · exact ⟨rfl, rfl, rfl⟩

theorem Sequencer.endMoult_desync (q : Sequencer) (h : JobId) (status : Nat) : (q.endMoult h status).desync = q.desync := by
  unfold Sequencer.endMoult
  dsimp only
  split
  · rfl
  · rfl

section
variable (c : Chip) (h : JobId) (dies : List Nat) (status : Nat) (desync : Bool) {d : Nat} (hd : d < c.seqs.length)
include hd

theorem Chip.seq_endSeqs : (c.endSeqs h dies status desync).seq d =
    if dies.contains d then ({ c.seq d with desync := desync || (c.seq d).desync } : Sequencer).endMoult h status
    else { c.seq d with desync := desync || (c.seq d).desync } := by
  rw [Chip.endSeqs, Chip.seq_modSeqs c _ hd]
  cases desync
  · cases dies.contains d
    · rfl
    · rfl
  · cases dies.contains d
    · rfl
    · rfl

theorem Chip.seq_endSeqs_shows (hmem : d ∈ dies) :
    ((c.endSeqs h dies status desync).seq d).cancelled = (status != stOk) ∧
    ((c.endSeqs h dies status desync).seq d).committed = (status == stOk) ∧
    ((c.endSeqs h dies status desync).seq d).last = BitVec.ofNat 16 status := by
  rw [Chip.seq_endSeqs c h dies status desync hd, if_pos (List.contains_iff_mem.mpr hmem)]
  exact Sequencer.endMoult_shows ..

/-- A moult that ends without a result shows DESYNC on every die (R260). -/
theorem Chip.seq_endSeqs_desync : ((c.endSeqs h dies status true).seq d).desync = true := by
  rw [Chip.seq_endSeqs c h dies status true hd]
  split
  · exact Sequencer.endMoult_desync ..
  · rfl

end

/-! ### The memory of a tenant does not hang on the sequencers -/

theorem Chip.walkFrom_withSeqs (c : Chip) (q : List Sequencer) (read : Nat → Nat) (t : TenantId) (va level table : Nat) :
    Chip.walkFrom { c with seqs := q } read t va level table = c.walkFrom read t va level table := by
  induction level generalizing table with
  | zero => rfl
  | succ l ih => unfold Chip.walkFrom; simp only [ih]; rfl

theorem Chip.physOf_withSeqs (c : Chip) (q : List Sequencer) (t : TenantId) (va : Nat) :
    Chip.physOf { c with seqs := q } t va = c.physOf t va := by
  unfold Chip.physOf Chip.walk
  simp only [Chip.walkFrom_withSeqs]
  rfl

theorem Chip.vwrite_withSeqs (c : Chip) (q : List Sequencer) (t : TenantId) (va : Nat) (bs : List Byte) :
    Chip.vwrite { c with seqs := q } t va bs = { c.vwrite t va bs with seqs := q } := by
  unfold Chip.vwrite
  refine List.foldl_hom (fun c : Chip => { c with seqs := q }) (fun c i => ?_)
  dsimp only
  rw [Chip.physOf_withSeqs]
  split
  · rfl
  · split
    · split
      · unfold Chip.store
        split
        · rfl
        · rfl
      · rfl
    · rfl

/-! ### The end of a moult -/

theorem Chip.Written.cmd {c c' : Chip} (h : c.Written c') : c'.cmd = c.cmd := by obtain ⟨m, r, rfl⟩ := h; rfl

theorem Chip.finishWaiting_nil (c : Chip) (v : Env) (sel : Pkt → Bool) (r : Reply) (h : c.cmd.waiting = []) :
    c.finishWaiting v sel r = c := by
  simp [Chip.finishWaiting, h]

theorem Chip.modGroup_coll (c : Chip) (g : GroupId) (f : Group → Group) : ∃ coll, c.modGroup g f = { c with coll := coll } := by
  unfold Chip.modGroup
  split
  · exact ⟨_, rfl⟩
  · exact ⟨c.coll, rfl⟩

/-- The chip after a cancellation that no command waits for: besides stamps and groups, the sequencers end and the job has no moult. -/
theorem Chip.cancelMoult_unanswered (c : Chip) (v : Env) (h : JobId) (j : Job) (p : Plan) (r : Reply) (hw : c.cmd.waiting = []) :
    ∃ coll, c.cancelMoult v h j p r =
      (({ c.endSeqs h (c.planDies j.tenant p) r.status (r.status == stTimeout) with coll := coll } : Chip).setJob h
        { j with moult := none }).stamp v 28 p.group.toNat := by
  unfold Chip.cancelMoult
  dsimp only
  split
  · obtain ⟨coll, hcoll⟩ := (c.endSeqs h (c.planDies j.tenant p) r.status (r.status == stTimeout)).modGroup_coll p.group
      (fun g => { g with desync := true })
    exact ⟨coll, by rw [hcoll]; exact Chip.finishWaiting_nil _ _ _ _ hw⟩
  · exact ⟨c.coll, Chip.finishWaiting_nil _ _ _ _ hw⟩

/-! ### What each event makes of the chip -/

theorem reduceFault_eq_none {p : Plan} {rs : List Reduced} (h : ∀ r ∈ rs, r.agree = true ∧ r.count ≠ 0) : reduceFault p rs = none := by
  refine List.findSome?_eq_none_iff.mpr fun x hx => ?_
  obtain ⟨hagree, hcount⟩ := h x.1 (List.fst_mem_of_mem_zipIdx hx)
  simp [hagree, hcount]

/-- Replicas that disagree in the first layer cancel with DIGEST. -/
theorem reduceFault_disagree {p : Plan} {r : Reduced} {rest : List Reduced} (h : r.agree = false) :
    reduceFault p (r :: rest) = some stDigest := by
  simp [reduceFault, List.zipIdx_cons, h]

/-- A first layer with a sieve to which no chip has contributed cancels with NOT_FINITE. -/
theorem reduceFault_withheld {p : Plan} {r : Reduced} {rest : List Reduced} (ha : r.agree = true) (hc : r.count = 0)
    (hs : (p.layer 0).sieved = true) : reduceFault p (r :: rest) = some stNotFinite := by
  simp [reduceFault, List.zipIdx_cons, ha, hc, hs]

/-- A sequencer of the job goes to phase 4 with the reduced lanes of its layers. -/
def Sequencer.takeReduced (q : Sequencer) (h : JobId) (rs : List Reduced) : Sequencer :=
  if q.running && q.job == h then
    { q with phase := 4, current := 0, layers := q.layers.map (fun (r : LayerRun) => { r with reduced := rs[r.index]? }) }
  else q

/-- All that the reduction of a moult waits for (R246): it is the first, the lanes of every layer are there as `runs`, none has failed, and
every die is ready. -/
structure Chip.ReduceReady (c : Chip) (h : JobId) (m : Moult) (p : Plan) (runs : List LayerRun) : Prop where
  first : m.reduced = false
  lanes : c.planRuns h p = runs.map some
  layers : runs.length = p.layers.length
  sound : ∀ r ∈ runs, r.status = 0
  dies : ∀ q ∈ c.seqs, q.running = true → q.job = h → q.phase = 3

theorem Chip.ReduceReady.unblocked {c : Chip} {h : JobId} {m : Moult} {p : Plan} {runs : List LayerRun} (hr : c.ReduceReady h m p runs) :
    (m.reduced || !(c.seqs.all fun q => !(q.running && q.job == h) || q.phase == 3) || runs.length != p.layers.length ||
      runs.any fun r => r.status != 0) = false := by
  have hdies : (c.seqs.all fun q => !(q.running && q.job == h) || q.phase == 3) = true := by
    refine List.all_eq_true.mpr fun q hq => ?_
    cases hrun : q.running && q.job == h with
    | false => rfl
    | true =>
      obtain ⟨hrunning, hjob⟩ := Bool.and_eq_true_iff.mp hrun
      simp [hr.dies q hq hrunning (eq_of_beq hjob)]
  have hsound : (runs.any fun r => r.status != 0) = false :=
    List.any_eq_false.mpr fun r hmem => by rw [hr.sound r hmem, bne_self_eq_false]; exact Bool.false_ne_true
  rw [hr.first, hdies, hr.layers, hsound, bne_self_eq_false]
  rfl

theorem Chip.voteSent_in_time (c : Chip) (v : Env) (g : GroupId) (step deadline : Nat) (h : v.ns ≤ deadline) :
    c.voteSent v g step deadline = c.stamp v 22 (groupData g (BitVec.ofNat 48 step)) := by
  rw [Chip.voteSent, if_neg (Nat.not_lt.mpr h)]

section
variable {c : Chip} {v : Env} {h : JobId} {j : Job} {m : Moult} {p : Plan} (hj : c.job h = some j) (hm : j.moult = some m)
  (hp : j.plan = some p)
include hj hm hp

/-- The first fault of the reduction cancels the moult. -/
theorem Chip.moultReduce_cancels {peers : List PeerLanes} {runs : List LayerRun} {st : Nat} (hr : c.ReduceReady h m p runs)
    (hf : reduceFault p (runs.zipIdx.map (fun x => c.reduceLayer j p m peers x.2 x.1)) = some st) :
    c.moultReduce v h peers = c.cancelMoult v h j p (refuse st) := by
  simp only [Chip.moultReduce, hj, hm, hp, hr.lanes, List.filterMap_map, Function.comp_def, id, List.filterMap_some, hf]
  exact if_neg (Bool.eq_false_iff.mp hr.unblocked)

/-- Without a fault of the reduction, phase 4 begins. -/
theorem Chip.moultReduce_begins {peers : List PeerLanes} {runs : List LayerRun} (hr : c.ReduceReady h m p runs)
    (hf : reduceFault p (runs.zipIdx.map (fun x => c.reduceLayer j p m peers x.2 x.1)) = none) :
    c.moultReduce v h peers = (c.setJob h { j with moult := some { m with reduced := true } }).modSeqs
      (fun _ q => q.takeReduced h (runs.zipIdx.map (fun x => c.reduceLayer j p m peers x.2 x.1))) := by
  simp only [Chip.moultReduce, hj, hm, hp, hr.lanes, List.filterMap_map, Function.comp_def, id, List.filterMap_some, hf]
  exact if_neg (Bool.eq_false_iff.mp hr.unblocked)

/-- The vote goes out by its deadline: 1 when every layer is done and none has failed. -/
theorem Chip.moultVote_sends (hvote : m.vote = none) (hdue : c.moultDone h p = true ∨ m.deadline.toNat ≤ v.ns)
    (hin : v.ns ≤ m.deadline.toNat) :
    c.moultVote v h = (c.setJob h { j with moult := some { m with
      vote := some (c.moultDone h p && (c.moultFaults h p).isEmpty) } }).stamp v 22
        (groupData p.group (BitVec.ofNat 48 (j.instar.toNat + 1))) := by
  have hgo : (m.vote.isSome || !(c.moultDone h p || !(c.moultFaults h p).isEmpty || decide (m.deadline.toNat ≤ v.ns))) = false := by
    rcases hdue with hdone | hend
    · simp [hvote, hdone]
    · simp [hvote, hend]
  simp only [Chip.moultVote, hj, hm, hp]
  rw [hgo, if_neg Bool.false_ne_true, Chip.voteSent_in_time _ _ _ _ _ hin]
  simp only [hin, decide_true, Bool.and_true, Bool.not_not]

/-- Before the deadline no vote goes out while layers are not done and none has failed. -/
theorem Chip.moultVote_waits (hdone : c.moultDone h p = false) (hfault : c.moultFaults h p = []) (hin : v.ns < m.deadline.toNat) :
    c.moultVote v h = c := by
  simp only [Chip.moultVote, hj, hm, hp]
  exact if_pos (by simp [hdone, hfault, hin])

/-- Every sequencer of the job goes to phase 10 with a result of 1. -/
theorem Chip.moultVoteResult_one {peers : BitVec 64} (hres : m.result = none) (hin : v.ns < m.commit.toNat) (hvote : m.vote = some true)
    (hpeers : peers ≠ 0) :
    c.moultVoteResult v h peers = (c.setJob h { j with moult := some { m with result := some true } }).modSeqs
      (fun _ q => if q.running && q.job == h then { q with phase := 10 } else q) := by
  have hgo : (m.result.isSome || decide (m.commit.toNat ≤ v.ns)) = false := by simp [hres, hin]
  simp only [Chip.moultVoteResult, hj, hm, hp, hvote]
  rw [hgo, if_neg Bool.false_ne_true, if_pos (by rw [Bool.true_and]; exact bne_iff_ne.mpr hpeers)]

/-- A result of 0 that no fault explains cancels with the dies that are late. -/
theorem Chip.moultVoteResult_zero (hres : m.result = none) (hin : v.ns < m.commit.toNat) (hvote : m.vote = some true)
    (hfault : c.moultFaults h p = []) :
    c.moultVoteResult v h 0 =
      c.cancelMoult v h j p (armFailed ((c.lateDies h j.tenant p).map (fun d => 0x40000000 + d))) := by
  have hgo : (m.result.isSome || decide (m.commit.toNat ≤ v.ns)) = false := by simp [hres, hin]
  simp only [Chip.moultVoteResult, hj, hm, hp, hvote, hfault]
  rw [hgo, if_neg Bool.false_ne_true]
  rfl

/-- At the commit instant the instar word is written, the instar rises and the dies show the commit. -/
theorem Chip.moultCommit_commits (hres : m.result = some true) (hdue : m.commit.toNat ≤ v.ns) (hw : c.cmd.waiting = []) :
    c.moultCommit v h =
      (({ c.vwrite j.tenant p.word.toNat (leBytes 8 (j.instar + 1).toNat) with
          seqs := (c.endSeqs h (c.planDies j.tenant p) stOk false).seqs } : Chip).setJob h
        { j with moult := none, instar := j.instar + 1 }).stamp v 27 p.group.toNat := by
  simp only [Chip.moultCommit, hj, hm, hp]
  rw [if_pos (by simp [hres, hdue]), Chip.finishWaiting_nil]
  · rw [← Chip.vwrite_withSeqs]
    rfl
  · exact (congrArg Cmd.waiting (Chip.written_vwrite ..).cmd).trans hw

theorem Chip.moultCommit_waits (hin : v.ns < m.commit.toNat) : c.moultCommit v h = c := by
  simp only [Chip.moultCommit, hj, hm, hp]
  exact if_neg (by simp [hin])

theorem Chip.moultTimeout_cancels (hres : m.result = none) (hdue : m.commit.toNat ≤ v.ns) :
    c.moultTimeout v h = c.cancelMoult v h j p (refuse stTimeout) := by
  simp only [Chip.moultTimeout, hj, hm, hp]
  exact if_pos (by simp [hres, hdue])

end

end Sys2Proof

namespace Sys2Proof.Claims

open Sys2Proof.Machine

/-! ### The events in the words of the statement -/

theorem exec_onChip {s : State} {i : Instr} {f : Chip → Chip} {c : Chip} (hx : exec i s = .next (s.onChip f)) (hf : f s.chip = c) :
    exec i s = .next (chipNow s c) := by
  rw [hx, State.onChip, hf]
  rfl

section
variable {s : State} {h : JobId} {j : Job} {m : Moult} {p : Plan}

theorem cancelled_cancelMoult {r : Reply} (hw : Unanswered s) (hr : r.status ≠ stOk) :
    Cancelled s (chipNow s (s.chip.cancelMoult s.env h j p r)) h j p r.status := by
  obtain ⟨coll, hcancel⟩ := s.chip.cancelMoult_unanswered s.env h j p r hw
  rw [hcancel]
  refine ⟨Chip.job_setJob .., rfl, fun d _ hmem hd => ?_⟩
  obtain ⟨hcan, hcom, hlast⟩ := s.chip.seq_endSeqs_shows h (s.chip.planDies j.tenant p) r.status (r.status == stTimeout) hd hmem
  exact ⟨hcan.trans (bne_iff_ne.mpr hr), hcom.trans (beq_eq_false_iff_ne.mpr hr), hlast⟩

theorem moultTimeout_desync (hw : Unanswered s) {d : Nat} (hd : d < s.chip.seqs.length) :
    ((s.chip.cancelMoult s.env h j p (refuse stTimeout)).seq d).desync = true := by
  obtain ⟨coll, hcancel⟩ := s.chip.cancelMoult_unanswered s.env h j p (refuse stTimeout) hw
  rw [hcancel]
  exact s.chip.seq_endSeqs_desync h _ stTimeout hd

end

theorem moultReduction : MoultReduction := by
  intro s h j m p peers runs hmoult rs hfirst hruns hlen hsound hdies
  obtain ⟨hj, hm, hp⟩ := hmoult
  have hready : s.chip.ReduceReady h m p runs := ⟨hfirst, hruns, hlen, hsound, hdies⟩
  have hcancels (st : Nat) (hf : reduceFault p rs = some st) (hst : st ≠ stOk) (hw : Unanswered s) :
      ∃ t, exec (.moultReduce h peers) s = .next t ∧ Cancelled s t h j p st :=
    ⟨_, exec_onChip rfl (Chip.moultReduce_cancels hj hm hp hready hf), cancelled_cancelMoult hw hst⟩
  refine ⟨fun hall => ?_, fun r rest hrs hagree => ?_, fun r rest hrs hagree hcount hsieved => ?_⟩
  · refine ⟨_, exec_onChip rfl (Chip.moultReduce_begins hj hm hp hready (reduceFault_eq_none hall)), ?_, rfl, fun d q hq => ?_⟩
    · exact Chip.job_setJob ..
    · have hd : d < s.chip.seqs.length := (List.getElem?_eq_some_iff.mp hq).1
      refine (Chip.seq_modSeqs (s.chip.setJob h _) _ hd).trans ?_
      rw [show (s.chip.setJob h _).seq d = q from Chip.seq_of_getElem? hq, Sequencer.takeReduced]
      simp only [Bool.and_eq_true, beq_iff_eq]
      rfl
  · exact hcancels stDigest (hrs ▸ reduceFault_disagree hagree) (by decide)
  · exact hcancels stNotFinite (hrs ▸ reduceFault_withheld hagree hcount hsieved) (by decide)

theorem moultVotes : MoultVotes := by
  intro s h j m p peers hmoult ns job
  obtain ⟨hj, hm, hp⟩ := hmoult
  refine ⟨fun hvote hin hdone hfault => ?_, fun hvote hend hdone => ?_, fun _ hin hdone hfault => ?_,
    fun hres hin hvote hpeers => ?_, fun hres hin hvote hpeers hfault hw => ?_, fun hres hdue hw => ?_, fun _ hin => ?_,
    fun hres hdue hw => ?_⟩
  · refine ⟨_, exec_onChip rfl (Chip.moultVote_sends hj hm hp hvote (.inl hdone) hin), ?_, rfl⟩
    rw [hdone, hfault]
    exact Chip.job_setJob ..
  · refine ⟨_, exec_onChip rfl (Chip.moultVote_sends hj hm hp hvote (.inr (Nat.le_of_eq hend.symm)) (Nat.le_of_eq hend)), ?_, rfl⟩
    rw [hdone]
    exact Chip.job_setJob ..
  · exact exec_onChip rfl (Chip.moultVote_waits hj hm hp hdone hfault hin)
  · exact ⟨_, exec_onChip rfl (Chip.moultVoteResult_one hj hm hp hres hin hvote hpeers), Chip.job_setJob .., rfl⟩
  · subst hpeers
    exact ⟨_, exec_onChip rfl (Chip.moultVoteResult_zero hj hm hp hres hin hvote hfault),
      cancelled_cancelMoult hw (by decide : stArmFailed ≠ stOk)⟩
  · refine ⟨_, exec_onChip rfl (Chip.moultCommit_commits hj hm hp hres hdue hw), Chip.job_setJob .., rfl, fun d _ hmem hd => ?_⟩
    obtain ⟨hcan, hcom, hlast⟩ := s.chip.seq_endSeqs_shows h (s.chip.planDies j.tenant p) stOk false hd hmem
    exact ⟨hcom, hcan, hlast⟩
  · exact exec_onChip rfl (Chip.moultCommit_waits hj hm hp hin)
  · exact ⟨_, exec_onChip rfl (Chip.moultTimeout_cancels hj hm hp hres hdue), cancelled_cancelMoult hw (by decide),
      fun d hd => moultTimeout_desync hw hd⟩

/-- Settles O51: the reduction with its two cancellations, then the vote, its result, the commit and the timeout. -/
theorem moultDecisions : Obligations.MoultDecisions := ⟨moultReduction, moultVotes⟩

end Sys2Proof.Claims
end

section
/-! PROOFS. The commands of the instar and snapshot families (R232 to R237, R261, R264, R460 to R471): how a packet that is taken
is answered or waits, what each command makes of the chip, and the statement O60. -/
namespace Sys2Proof

/-! ### A packet that is taken, answered or held -/

theorem Chip.takePkt_queue {c c1 : Chip} {p : PktRef} {op : Nat} {sub : Pkt → Bool} {k : Pkt} (h : c.takePkt p op sub = some (k, c1)) :
    ∃ q, c1 = { c with cmd := { c.cmd with queue := q } } := by
  unfold Chip.takePkt at h
  split at h
  · cases h
  · split at h
    · cases h; exact ⟨_, rfl⟩
    · cases h

section
variable {c c1 c2 : Chip} {v : Env} {p : PktRef} {op : Nat} {sub : Pkt → Bool} {k : Pkt} {r : Reply}
  (ht : c.takePkt p op sub = some (k, c1)) (hroom : c.cmd.waiting.length < 1024)
include ht hroom

/-- There is room for one more command that waits (R493). -/
theorem Chip.takePkt_room : (opWaits op && decide (1024 ≤ c1.cmd.waiting.length)) = false := by
  obtain ⟨q, rfl⟩ := Chip.takePkt_queue ht
  simp [hroom]

theorem Chip.command_answers {body : Chip → Pkt → Chip × Option Reply} (hb : body c1 k = (c2, some r)) :
    c.command v p op sub body = c2.reply v k r := by
  simp only [Chip.command, ht, hb]
  exact if_neg (Bool.eq_false_iff.mp (Chip.takePkt_room ht hroom))

theorem Chip.command_waits {body : Chip → Pkt → Chip × Option Reply} (hb : body c1 k = (c2, none)) :
    c.command v p op sub body = { c2 with cmd := { c2.cmd with waiting := c2.cmd.waiting ++ [k] } } := by
  simp only [Chip.command, ht, hb]
  exact if_neg (Bool.eq_false_iff.mp (Chip.takePkt_room ht hroom))

theorem Chip.commandNow_answers {body : Chip → Pkt → Chip × Reply} (hb : body c1 k = (c2, r)) :
    c.commandNow v p op sub body = c2.reply v k r :=
  Chip.command_answers ht hroom (by simp only [hb])

end

/-! ### The objects that a packet names (R353) -/

theorem Pkt.space_isNone_tenant {k : Pkt} (h : 16 ≤ k.ring.toNat) : k.space.isNone = false := by
  simp [Pkt.space, ringTenant, Nat.not_lt.mpr h]

section
variable {c : Chip} {k : Pkt} {n : Nat}

theorem Chip.jobOf_own {h : JobId} {j : Job} (hn : n = h.toNat) (hj : c.job h = some j) (ht : j.tenant = k.tenant) :
    c.jobOf k n = .ok (h, j) := by
  have hlt : ¬4096 ≤ n := by have := h.isLt; omega
  rw [Chip.jobOf, if_neg hlt, hn, BitVec.ofNat_toNat, BitVec.setWidth_eq, hj]
  exact if_pos (by simp [ht])

theorem Chip.jobOf_unknown (hj : c.job (BitVec.ofNat 12 n) = none) : c.jobOf k n = .error stBadParam := by
  rw [Chip.jobOf, hj]
  exact ite_self _

theorem Chip.jobOf_denied {j : Job} (hn : n < 4096) (hj : c.job (BitVec.ofNat 12 n) = some j) (ht : j.tenant ≠ k.tenant)
    (hring : 16 ≤ k.ring.toNat) : c.jobOf k n = .error stDenied := by
  rw [Chip.jobOf, if_neg (Nat.not_le.mpr hn), hj]
  exact if_neg (by simp [ht, Pkt.space_isNone_tenant hring])

theorem Chip.groupOf_own {g : GroupId} {x : Group} (hg : c.group g = some x) (ht : x.tenant = k.tenant) :
    c.groupOf k g.toNat = .ok (g, x) := by
  rw [Chip.groupOf, if_neg (Nat.not_le.mpr g.isLt), BitVec.ofNat_toNat, BitVec.setWidth_eq, hg]
  exact if_pos (by simp [ht])

end

/-! ### The instar family -/

/-- The hint of a `BUSY` until an instant of HT, in microseconds (R490). -/
theorem usTo_eq (v : Env) (t : Nat) : usTo v t = (t - v.ns + 999) / 1000 := by
  rw [usTo, ceilDiv, Nat.add_sub_assoc (by decide)]

section
variable {c : Chip} {v : Env} {k : Pkt}

theorem Chip.instarPlan_unnamed {st : Nat} (h : c.jobOf k (k.n 32 2) = .error st) : c.instarPlan v k = (c, refuse st) := by
  simp only [Chip.instarPlan, h]

theorem Chip.instarMoult_unnamed {st : Nat} (h : c.jobOf k (k.n 32 2) = .error st) : c.instarMoult v k = (c, some (refuse st)) := by
  simp only [Chip.instarMoult, h]

theorem Chip.instarQuery_unnamed {st : Nat} (h : c.jobOf k (k.n 32 2) = .error st) : c.instarQuery k = (c, refuse st) := by
  simp only [Chip.instarQuery, h]

variable {h : JobId} {j : Job} (hjob : c.jobOf k (k.n 32 2) = .ok (h, j))
include hjob

theorem Chip.instarPlan_moulting {m : Moult} (hm : j.moult = some m) :
    c.instarPlan v k = (c, { status := stBusy, hint := usTo v m.commit.toNat }) := by
  simp only [Chip.instarPlan, hjob, hm]

theorem Chip.instarPlan_malformed (hm : j.moult = none) (hread : c.readPlan k.space j.tenant (k.n 40 8) (k.n 48 4 % 2) = none) :
    c.instarPlan v k = (c, refuse stBadParam) := by
  simp only [Chip.instarPlan, hjob, hm, hread]

/-- A plan that keeps its tables is the job's, with the first instar of the packet; then its layer records are written. -/
theorem Chip.instarPlan_registers {p : Plan} (hm : j.moult = none)
    (hread : c.readPlan k.space j.tenant (k.n 40 8) (k.n 48 4 % 2) = some p) :
    ∃ c2, c.instarPlan v k = (c2, ok) ∧ (c.setJob h { j with plan := some p, instar := BitVec.ofNat 32 (k.n 48 4) }).Written c2 := by
  simp only [Chip.instarPlan, hjob, hm, hread]
  exact ⟨_, rfl, Chip.written_foldl _ (fun c i => c.written_vwrite ..) _ _⟩

theorem Chip.instarMoult_unplanned (hp : j.plan = none) : c.instarMoult v k = (c, some (refuse stBadParam)) := by
  simp only [Chip.instarMoult, hjob, hp, Option.bind_none]

section
variable {old p : Plan} (hold : j.plan = some old) (hread : c.readPlan old.space j.tenant old.addr.toNat (j.instar.toNat % 2) = some p)
include hold hread

/-- The vote deadline comes after the start, and the commit 20 μs later or more (R261). -/
theorem Chip.instarMoult_disordered (hbad : k.n 48 8 ≤ k.n 40 8 ∨ k.n 56 8 < k.n 48 8 + 20000) :
    c.instarMoult v k = (c, some (refuse stBadParam)) := by
  simp only [Chip.instarMoult, hjob, hold, Option.bind_some, hread]
  refine if_pos ?_
  rcases hbad with h | h
  · simp [h]
  · simp [h]

variable {g : Group} (hstart : k.n 40 8 < k.n 48 8) (hcommit : k.n 48 8 + 20000 ≤ k.n 56 8)
  (hend : k.n 56 8 < 2 ^ 64 - 1 - 1000000000) (hgroup : c.groupOf k p.group.toNat = .ok (p.group, g))
include hstart hcommit hend hgroup

theorem Chip.instarMoult_moulting {m : Moult} (hm : j.moult = some m) :
    c.instarMoult v k = (c, some { status := stBusy, hint := usTo v m.commit.toNat }) := by
  simp only [Chip.instarMoult, hjob, hold, Option.bind_some, hread, hgroup, hm]
  exact if_neg (by simpa [nearEnd, hstart, hcommit] using hend)

theorem Chip.instarMoult_exhausted (hm : j.moult = none) (hlast : j.instar = BitVec.allOnes 32) :
    c.instarMoult v k = (c, some (refuse stCapacity)) := by
  simp only [Chip.instarMoult, hjob, hold, Option.bind_some, hread, hgroup, hm]
  rw [if_neg (by simpa [nearEnd, hstart, hcommit] using hend), if_pos (beq_iff_eq.mpr hlast)]

theorem Chip.instarMoult_arms (hm : j.moult = none) (hlast : j.instar ≠ BitVec.allOnes 32) (hin : v.ns ≤ k.n 48 8) :
    c.instarMoult v k = (c.setJob h { j with plan := some p, moult := some {
      start := BitVec.ofNat 64 (k.n 40 8), deadline := BitVec.ofNat 64 (k.n 48 8), commit := BitVec.ofNat 64 (k.n 56 8) } }, none) := by
  simp only [Chip.instarMoult, hjob, hold, Option.bind_some, hread, hgroup, hm]
  rw [if_neg (by simpa [nearEnd, hstart, hcommit] using hend), if_neg (mt beq_iff_eq.mp hlast), if_neg (Nat.not_lt.mpr hin)]

end

theorem Chip.instarQuery_named : c.instarQuery k =
    (c, { status := stOk, body := leBytes 8 j.instar.toNat ++ (List.range 8).flatMap (fun d => leBytes 8 (c.mltStatus d).toNat) }) := by
  simp only [Chip.instarQuery, hjob]

end

/-! ### The snapshot family -/

/-- Without a command that waits no area is being copied or shipped. -/
theorem Chip.areaBusy_idle (c : Chip) (space : Option TenantId) (a n : Nat) (hw : c.cmd.waiting = []) : c.areaBusy space a n = false := by
  simp [Chip.areaBusy, hw]

section
variable {c : Chip} {v : Env} {k : Pkt}

theorem Chip.chrysalisTake_unnamed {st : Nat} (h : c.jobOf k (k.n 32 2) = .error st) : c.chrysalisTake k = (c, some (refuse st)) := by
  simp only [Chip.chrysalisTake, h]

theorem Chip.digestRing_unnamed {st : Nat} (h : c.jobOf k (k.n 32 2) = .error st) : c.digestRing k = (c, refuse st) := by
  simp only [Chip.digestRing, h]

theorem Chip.digestRegion_range {d : Nat × Bool} (h : k.n 40 8 + k.n 48 8 ≤ 2 ^ 52)
    (hd : c.digestOf k.space (k.n 56 4) (k.n 40 8) (k.n 48 8) = d) :
    c.digestRegion k = (c, { status := stOk, body := leBytes 16 d.1 ++ [BitVec.ofNat 8 (b2n d.2)] }) :=
  hd ▸ if_neg (Nat.not_lt.mpr h)

theorem Chip.digestRegion_beyond (h : 2 ^ 52 < k.n 40 8 + k.n 48 8) : c.digestRegion k = (c, refuse stBadParam) := if_pos h

section
variable (htarget : k.n 48 1 ≤ 1) (hport : k.n 52 4 = 0) (harea : k.n 40 8 < 2 ^ 52) (hgroup : k.n 50 2 < 4096)
include htarget hport harea hgroup

theorem Chip.chrysalisShip_fields :
    (decide (1 < k.n 48 1) || bits (k.n 52 4) 2 14 != 0 || decide (2 ^ 52 ≤ k.n 40 8) || (k.n 48 1 == 0 && decide (4096 ≤ k.n 50 2))) =
      false := by
  simpa [bits, htarget, hport, hgroup] using harea

/-- Over a sealed channel the owner alone ships (R470). -/
theorem Chip.chrysalisShip_denied (hzero : k.n 48 1 = 0) (hring : 16 ≤ k.ring.toNat) :
    c.chrysalisShip k = (c, some (refuse stDenied)) := by
  have htenant : k.space.isSome = true := by simpa using Pkt.space_isNone_tenant hring
  unfold Chip.chrysalisShip
  dsimp only
  rw [Chip.chrysalisShip_fields htarget hport harea hgroup, if_neg Bool.false_ne_true, if_pos (by simp [hzero, htenant])]

/-- To a store a chrysalis is shipped if its header is one. -/
theorem Chip.chrysalisShip_store (hone : k.n 48 1 = 1) (hw : c.cmd.waiting = []) :
    c.chrysalisShip k = if containerHead (c.aread k.space (k.n 40 8) 128) then (c, none) else (c, some (refuse stBadParam)) := by
  unfold Chip.chrysalisShip
  dsimp only
  rw [Chip.chrysalisShip_fields htarget hport harea hgroup, if_neg Bool.false_ne_true, if_neg (by simp [hone]),
    Chip.areaBusy_idle c _ _ _ hw, if_neg Bool.false_ne_true]
  cases containerHead (c.aread k.space (k.n 40 8) 128) with
  | false => rfl
  | true => simp [hone]

end

theorem Chip.chrysalisVerify_idle (hw : c.cmd.waiting = []) :
    c.chrysalisVerify v k = (c, (c.verify k.space (k.n 40 8)).reply v.fresh) := by
  rw [Chip.chrysalisVerify, Chip.areaBusy_idle c _ _ _ hw, if_neg Bool.false_ne_true]

variable {h : JobId} {j : Job} (hjob : c.jobOf k (k.n 32 2) = .ok (h, j))
include hjob

/-- A job without a digest map has no chrysalis (R465, R468). -/
theorem Chip.chrysalisTake_unmapped (hrec : j.digestRecords = 0) : c.chrysalisTake k = (c, some (refuse stBadParam)) := by
  simp only [Chip.chrysalisTake, hjob]
  exact if_pos (by simp [hrec])

section
variable {es : List MapEntry} {need : Nat} (hrec : j.digestRecords ≠ 0) (hcopied : c.copied j j.instar.toNat = es)
  (hneed : containerLength (sections es) es.length = need) (hes : es ≠ []) (hmany : es.length ≤ 65535) (harea : k.n 40 8 < 2 ^ 48)
  (hshard : c.resharding j.tenant = false) (hnone : j.chrysalis = none) (hw : c.cmd.waiting = [])
include hrec hcopied hneed hes hmany harea hshard hnone hw

theorem Chip.chrysalisTake_short (hsize : k.n 48 8 < need) :
    c.chrysalisTake k = (c, some { status := stCapacity, body := leBytes 8 (need - k.n 48 8) }) := by
  simp only [Chip.chrysalisTake, hjob, hcopied, hneed]
  rw [if_neg (by simpa [hrec, hes, hmany] using harea), Chip.areaBusy_idle c _ _ _ hw, if_neg (by simp [hshard, hnone]), if_pos hsize]

theorem Chip.chrysalisTake_copies (hsize : need ≤ k.n 48 8) (htier : c.inTier2 k.space (k.n 40 8) need = true) :
    c.chrysalisTake k = (c.setJob h { j with
      chrysalis := some { area := BitVec.ofNat 48 (k.n 40 8), physical := k.space.isNone, instar := j.instar } }, none) := by
  simp only [Chip.chrysalisTake, hjob, hcopied, hneed]
  rw [if_neg (by simpa [hrec, hes, hmany] using harea), Chip.areaBusy_idle c _ _ _ hw, if_neg (by simp [hshard, hnone]),
    if_neg (Nat.not_lt.mpr hsize), if_neg (by simp [htier])]

end

theorem Chip.chrysalisLoad_malformed (hw : c.cmd.waiting = []) (hv : c.verify k.space (k.n 40 8) = .malformed) :
    c.chrysalisLoad v k = (c, refuse stBadParam) := by
  simp only [Chip.chrysalisLoad, hjob, hv, Chip.areaBusy_idle c _ _ _ hw]
  rfl

/-- What verifies is written to the job's memory, and the job takes the instar of its header (R471). -/
theorem Chip.chrysalisLoad_sound {ss : List (MapEntry × Nat)} (hw : c.cmd.waiting = [])
    (hv : c.verify k.space (k.n 40 8) = .sound ss) :
    ∃ c2, c.Written c2 ∧ c.chrysalisLoad v k = (c2.setJob h { j with
      instar := BitVec.ofNat 32 (fieldLe (c.aread k.space (k.n 40 8) 128) 16 4) }, ok) := by
  simp only [Chip.chrysalisLoad, hjob, hv, Chip.areaBusy_idle c _ _ _ hw]
  refine ⟨_, ?_, rfl⟩
  have hsections := Chip.written_foldl _ (fun (c : Chip) (s : MapEntry × Nat) =>
    c.written_vwrite j.tenant s.1.base (c.aread k.space (k.n 40 8 + s.2) s.1.length)) ss c
  split
  · exact hsections.trans (Chip.written_vwrite ..)
  · exact hsections

theorem Chip.digestRing_badMap (hbad : c.mapBad j.tenant (k.n 56 8) = true) : c.digestRing k = (c, refuse stBadParam) := by
  simp only [Chip.digestRing, hjob]
  exact if_pos (by simp [hbad])

theorem Chip.digestRing_sets (hpow : powTwoIn (k.n 48 4) 6 16 = true) (hbase : k.n 40 8 < 2 ^ 48) (hmap : k.n 56 8 < 2 ^ 48)
    (hgood : c.mapBad j.tenant (k.n 56 8) = false) :
    c.digestRing k = (c.setJob h { j with digestBase := k.n 40 8, digestRecords := k.n 48 4, digestMap := k.n 56 8 }, ok) := by
  simp only [Chip.digestRing, hjob]
  exact if_neg (by simpa [hpow, hgood] using ⟨hbase, hmap⟩)

end

end Sys2Proof

namespace Sys2Proof.Claims

open Sys2Proof.Machine

/-! ### Commands in the words of the statement -/

section
variable {s : State} {p : PktRef} {op : Nat} {sub : Pkt → Bool} {k : Pkt} {c c2 : Chip} {i : Instr} {r : Reply}
  (ht : Taken s p op sub k c)
include ht

theorem job_of_taken (h : JobId) : c.job h = s.chip.job h := by
  obtain ⟨q, rfl⟩ := Chip.takePkt_queue ht
  rfl

theorem group_of_taken (g : GroupId) : c.group g = s.chip.group g := by
  obtain ⟨q, rfl⟩ := Chip.takePkt_queue ht
  rfl

theorem cores_of_taken : c.cores = s.chip.cores := by
  obtain ⟨q, rfl⟩ := Chip.takePkt_queue ht
  rfl

theorem waiting_of_taken : c.cmd.waiting = s.chip.cmd.waiting := by
  obtain ⟨q, rfl⟩ := Chip.takePkt_queue ht
  rfl

theorem jobOf_of_taken {h : JobId} {j : Job} (hn : Names s k h j) : c.jobOf k (k.n 32 2) = .ok (h, j) := by
  obtain ⟨hn, hj, htenant⟩ := hn
  exact Chip.jobOf_own hn ((job_of_taken ht h).trans hj) htenant

/-- A command that answers with the status of a handle that it cannot take refuses every such handle. -/
theorem noJob_of_jobOf (hr : ∀ st, c.jobOf k (k.n 32 2) = .error st → Answers s i k c (refuse st)) : NoJob s i k c := by
  refine ⟨fun _ hj => ?_, fun j hn hj htenant hring => ?_⟩
  · exact hr _ (Chip.jobOf_unknown ((job_of_taken ht _).trans hj))
  · exact hr _ (Chip.jobOf_denied hn ((job_of_taken ht _).trans hj) htenant hring)

variable (hroom : s.chip.cmd.waiting.length < 1024)
include hroom

theorem answers_command {body : Chip → Pkt → Chip × Option Reply} (hb : body c k = (c2, some r))
    (hx : exec i s = .next (s.onChip (fun h => h.command s.env p op sub body))) : Answers s i k c2 r :=
  exec_onChip hx (Chip.command_answers ht hroom hb)

theorem waiting_command {body : Chip → Pkt → Chip × Option Reply} (hb : body c k = (c2, none))
    (hx : exec i s = .next (s.onChip (fun h => h.command s.env p op sub body))) : Waiting s i k c2 :=
  exec_onChip hx (Chip.command_waits ht hroom hb)

theorem answers_commandNow {body : Chip → Pkt → Chip × Reply} (hb : body c k = (c2, r))
    (hx : exec i s = .next (s.onChip (fun h => h.commandNow s.env p op sub body))) : Answers s i k c2 r :=
  exec_onChip hx (Chip.commandNow_answers ht hroom hb)

/-- A command that may answer with a free value takes one (log 6). -/
theorem took_commandNow {body : Chip → Pkt → Chip × Reply} (hb : body c k = (c2, r))
    (hx : exec i s = .next (s.took 1 (fun h => h.commandNow s.env p op sub body))) :
    exec i s = .next { chipNow s (c2.reply s.env k r) with fresh := s.fresh + 1 } := by
  rw [hx, State.took, State.onChip, Chip.commandNow_answers ht hroom hb]
  rfl

end

/-! ### The instar family -/

theorem instarCommands : InstarCommands := by
  intro s p k c h j pl g start deadline commit ns hroom
  have hbusy (m : Moult) : ({ status := stBusy, hint := usTo s.env m.commit.toNat } : Reply) =
      { status := 1, hint := (m.commit.toNat - ns + 999) / 1000 } := by rw [usTo_eq]; rfl
  refine ⟨fun ht => ?_, fun ht => ?_, fun ht => ?_, fun ht hn => ?_, fun ht hn hp => ?_, fun old ht hn hold hread => ?_, fun ht hn => ?_⟩
  · exact noJob_of_jobOf ht fun st he => answers_commandNow ht hroom (Chip.instarPlan_unnamed he) rfl
  · exact noJob_of_jobOf ht fun st he => answers_command ht hroom (Chip.instarMoult_unnamed he) rfl
  · exact noJob_of_jobOf ht fun st he => answers_commandNow ht hroom (Chip.instarQuery_unnamed he) rfl
  · have hjob := jobOf_of_taken ht hn
    refine ⟨fun m hm => ?_, fun hm hread => ?_, fun hm hread => ?_⟩
    · exact hbusy m ▸ answers_commandNow ht hroom (Chip.instarPlan_moulting hjob hm) rfl
    · exact answers_commandNow ht hroom (Chip.instarPlan_malformed hjob hm hread) rfl
    · obtain ⟨c2, hplan, hwritten⟩ := Chip.instarPlan_registers (v := s.env) hjob hm hread
      refine ⟨c2, answers_commandNow ht hroom hplan rfl, ?_, Eq.trans (b := c.cores) hwritten.cores (cores_of_taken ht)⟩
      rw [Chip.job, hwritten.jobs]
      exact Chip.job_setJob ..
  · exact answers_command ht hroom (Chip.instarMoult_unplanned (jobOf_of_taken ht hn) hp) rfl
  · have hjob := jobOf_of_taken ht hn
    have hgroup (hg : s.chip.group pl.group = some g) (hgt : g.tenant = k.tenant) :=
      Chip.groupOf_own ((group_of_taken ht _).trans hg) hgt
    refine ⟨fun hbad => ?_, fun hstart hcommit hend hg hgt => ⟨fun m hm => ?_, fun hm hlast hin => ?_, fun hm hlast => ?_⟩⟩
    · exact answers_command ht hroom (Chip.instarMoult_disordered hjob hold hread hbad) rfl
    · exact hbusy m ▸ answers_command ht hroom
        (Chip.instarMoult_moulting hjob hold hread hstart hcommit hend (hgroup hg hgt) hm) rfl
    · exact waiting_command ht hroom
        (Chip.instarMoult_arms (v := s.env) hjob hold hread hstart hcommit hend (hgroup hg hgt) hm hlast hin) rfl
    · exact answers_command ht hroom
        (Chip.instarMoult_exhausted hjob hold hread hstart hcommit hend (hgroup hg hgt) hm hlast) rfl
  · exact answers_commandNow ht hroom (Chip.instarQuery_named (jobOf_of_taken ht hn)) rfl

/-! ### The snapshot family -/

theorem snapshotCommands : SnapshotCommands := by
  intro s p k c h j area es need free hidle
  have hroom : s.chip.cmd.waiting.length < 1024 := by rw [hidle]; decide
  have hverify {v : Verdict} {r : Reply} (ht : Taken s p 0x0702 anySub k c) (hv : c.verify k.space area = v)
      (hr : v.reply s.env.fresh = r) : free r (.chrysalisVerify p) := by
    subst hv hr
    exact took_commandNow ht hroom (Chip.chrysalisVerify_idle ((waiting_of_taken ht).trans hidle)) rfl
  refine ⟨fun ht => ?_, fun ht => ?_, fun ht hn hrec => ?_, fun ht hn hrec hes hmany harea hshard hnone => ?_,
    fun ht htarget hport harea hgroup => ?_, fun ht hv => hverify ht hv rfl, fun i ht hv => hverify ht hv rfl, fun ss ht hv => hverify ht hv rfl,
    fun ht hn hv => ?_, fun ss ht hn hv => ?_, fun ht hn hpow hbase hmap => ?_, fun ht hrange => ?_, fun ht hrange => ?_⟩
  · exact noJob_of_jobOf ht fun st he => answers_command ht hroom (Chip.chrysalisTake_unnamed he) rfl
  · exact noJob_of_jobOf ht fun st he => answers_commandNow ht hroom (Chip.digestRing_unnamed he) rfl
  · exact answers_command ht hroom (Chip.chrysalisTake_unmapped (jobOf_of_taken ht hn) hrec) rfl
  · have hjob := jobOf_of_taken ht hn
    have hw := (waiting_of_taken ht).trans hidle
    refine ⟨fun hsize => ?_, fun hsize htier => ?_⟩
    · exact answers_command ht hroom (Chip.chrysalisTake_short hjob hrec rfl rfl hes hmany harea hshard hnone hw hsize) rfl
    · exact waiting_command ht hroom (Chip.chrysalisTake_copies hjob hrec rfl rfl hes hmany harea hshard hnone hw hsize htier) rfl
  · have hstore (hone : k.n 48 1 = 1) :=
      Chip.chrysalisShip_store (c := c) htarget hport harea hgroup hone ((waiting_of_taken ht).trans hidle)
    refine ⟨fun hzero hring => ?_, fun hone hhead => ?_, fun hone hhead => ?_⟩
    · exact answers_command ht hroom (Chip.chrysalisShip_denied htarget hport harea hgroup hzero hring) rfl
    · exact answers_command ht hroom ((hstore hone).trans (if_neg (Bool.eq_false_iff.mp hhead))) rfl
    · exact waiting_command ht hroom ((hstore hone).trans (if_pos hhead)) rfl
  · exact took_commandNow ht hroom
      (Chip.chrysalisLoad_malformed (jobOf_of_taken ht hn) ((waiting_of_taken ht).trans hidle) hv) rfl
  · obtain ⟨c2, hwritten, hload⟩ := Chip.chrysalisLoad_sound (v := s.env) (jobOf_of_taken ht hn) ((waiting_of_taken ht).trans hidle) hv
    exact ⟨_, took_commandNow ht hroom hload rfl, Chip.job_setJob .., hwritten.cores.trans (cores_of_taken ht)⟩
  · have hjob := jobOf_of_taken ht hn
    refine ⟨fun hbad => ?_, fun hgood => ?_⟩
    · exact answers_commandNow ht hroom (Chip.digestRing_badMap hjob hbad) rfl
    · exact answers_commandNow ht hroom (Chip.digestRing_sets hjob hpow hbase hmap hgood) rfl
  · refine ⟨_, answers_commandNow ht hroom (Chip.digestRegion_range hrange rfl) rfl, ?_⟩
    cases (c.digestOf k.space (k.n 56 4) (k.n 40 8) (k.n 48 8)).2 with
    | false => decide
    | true => decide
  · exact answers_commandNow ht hroom (Chip.digestRegion_beyond hrange) rfl

/-- Settles O60: the three commands of the instar family, then those of the snapshot family one by one. -/
theorem instarAndSnapshotFamilies : Obligations.InstarAndSnapshotFamilies := ⟨instarCommands, snapshotCommands⟩

end Sys2Proof.Claims
end

section
/-! PROOFS. Sampling and block scores (R161, R309 to R311) and the online softmax (R295 to R298): what a vector instruction that meets its
head does once its checks find nothing, what each operation then makes of the core, and the statements O18 and O19. -/
namespace Sys2Proof

open Claims

/-! ### The queue head (R134, R158) -/

theorem Core.withHead_of_headIs {c : Core} {w : Fields} {h : Head} (hhead : HeadIs c w h) (body : Head → IssueResult) :
    c.withHead (vTq w) body = body h := by
  rcases hhead with ⟨htq, rfl⟩ | ⟨htq, e, rest, hq, hvis, -, rfl⟩
  · simp [Core.withHead, htq]
  · simp [Core.withHead, htq, hq, hvis]

theorem headFmtOk_of_headIs {c : Core} {w : Fields} {h : Head} (hhead : HeadIs c w h) : headFmtOk w h = true := by
  rcases hhead with ⟨-, rfl⟩ | ⟨-, e, rest, -, -, hfmt, rfl⟩
  · rfl
  · simpa [headFmtOk] using hfmt

theorem Core.pop_eq_popped (c : Core) (w : Fields) : (if vPop w then c.pop else c) = popped w c := by
  cases hp : vPop w <;> simp [popped, hp, Core.pop]

/-- An instruction that meets its head has its effect on that head, and pops it under `.POP`. -/
theorem Core.withHead_done {c : Core} {w : Fields} {h : Head} (hhead : HeadIs c w h) (f : Head → Core) :
    c.withHead (vTq w) (fun h => if !headFmtOk w h then .raise cFormat else .done (if vPop w then (f h).pop else f h)) =
      .done (popped w (f h)) := by
  rw [Core.withHead_of_headIs hhead, headFmtOk_of_headIs hhead, Core.pop_eq_popped]
  rfl

/-! ### Vector instructions that can be carried out at once -/

/-- `k` has the cause of `c` in EXC, and asks for a restoration only when `c` does. -/
structure Core.SameFaults (c k : Core) : Prop where
  excCause : k.excCause = c.excCause
  restorePend : k.restorePend = c.restorePend

theorem Core.sameFaults_drawn (c : Core) (w : Fields) : c.SameFaults (drawn c w).2 := by
  unfold drawn Core.roundings
  split
  · exact ⟨rfl, rfl⟩
  · exact ⟨rfl, rfl⟩

/-- Element-wise work after the draws of its roundings raises nothing. -/
theorem Core.sameFaults_elementwise (c : Core) (w : Fields) (dst n l : Nat) (act : Memory → Nat → Bool) (rnds : List Rnd)
    (val : Memory → Nat → FVal) (enc : FVal → Rnd → Nat × Flags) :
    c.SameFaults ((drawn c w).2.elementwise w dst n l act rnds val enc) :=
  ⟨(Core.elementwise_excCause ..).trans (c.sameFaults_drawn w).excCause,
    (Core.elementwise_restorePend ..).trans (c.sameFaults_drawn w).restorePend⟩

theorem Core.SameFaults.withCvt {c k : Core} (hk : c.SameFaults k) (fl : Flags) : c.SameFaults { k with cvt := fl } :=
  ⟨hk.excCause, hk.restorePend⟩

section
variable {s : Machine.State} {id : CoreId} {w : Fields} {u : Used} {fnMask : Nat} {reads writes : List (Nat × Nat)} {masks : List Nat}
  (hcan : VecCan s id w u fnMask reads writes masks)
include hcan

theorem Claims.VecCan.count_beq_zero : ((s.chip.core id).count w == 0) = false := beq_eq_false_iff_ne.mpr (Nat.ne_of_gt hcan.some)

/-- Without a cause an instruction whose ranges are free has its effect, and the core goes on to the next index. -/
theorem Claims.VecCan.seqWith_done {causes : List Nat} (hcauses : causes = []) {k : Core} {body : Core → IssueResult}
    (hbody : body (s.chip.core id) = .done k) :
    (s.chip.core id).seqWith causes (fun c => if c.mustWait reads writes then .wait else body c) =
      { k with pc := (s.chip.core id).pc + 1 } := by
  subst hcauses
  exact Core.seqWith_done _ k _ hcan.ready.1.2 hcan.ready.2 ((if_neg (Bool.eq_false_iff.mp hcan.free)).trans hbody)

end

/-! ### Sampling (R309 to R311) -/

/-- A sampling instruction that can be carried out at once (R309, Table 11.6). -/
theorem Core.sampleOp_done {s : Machine.State} {id : CoreId} {w : Fields} {h : Head} {maskOut : Bool} {body : Core → Head → Nat → Core}
    {idle : Core → Core} {k : Core} :
    let c := s.chip.core id
    let b := c.regN w.b
    VecCan s id w { d := true, a := true, b := true, c := true, f2 := true } 0 (sourceA c w ++ [(b, 16)] ++ maskOf c w)
      ([(b + 12, 4)] ++ (if maskOut then [(c.regN w.d, maskBytes (c.count w))] else []))
      ((if maskOut then [c.regN w.d] else []) ++ maskAt c w) →
    HeadIs c w h → (fmt2 w).isScore = true → b % 16 = 0 → body c h (c.count w) = k →
    c.sampleOp w maskOut body idle = { popped w k with pc := c.pc + 1 } := by
  intro c b hcan hhead hscore halign hk
  subst hk
  have hlegal : c.vecCauses w { d := true, a := true, b := true, c := true, f2 := true } 0 false = [] := hcan.legal.vecCauses
  have hb : (b % 16 != 0) = false := by simp [halign]
  have hn : (c.count w == 0) = false := hcan.count_beq_zero
  unfold Core.sampleOp
  simp only [hn, hlegal, hscore, hb, b, Core.maskRange_eq, Core.maskAlign_eq, Bool.false_eq_true, if_false, Bool.not_true, when_false,
    List.append_nil, List.nil_append]
  exact hcan.seqWith_done (rangeCauses_eq_nil hcan.fits hcan.aligned) (Core.withHead_done hhead (fun h => body c h (c.count w)))

theorem Core.sameFaults_writeSample (c : Core) (w : Fields) (n : Nat) (ks : List Nat) (status : Nat) :
    c.SameFaults (c.writeSample w n ks status) :=
  ⟨rfl, rfl⟩

/-- The index that `VSAMPLE` draws, and how many candidates remained (R310, R311). -/
def Core.sampled (c : Core) (w : Fields) (h : Head) : Nat × Nat :=
  let b := c.regN w.b
  let cs := candidates (actives c w h)
  let m := candMax cs.1
  let tau := f32 (c.scratch.readLe b 4)
  let draws := nth [] (takeDrawsK c.lanes 1 1 2).1 0
  let kept := topP (f32 (c.scratch.readLe (b + 8) 4))
    ((topK (c.scratch.readLe (b + 4) 4) cs.1).map (fun q => (q.1, weight m tau q.2)))
  let fin := sortBy (fun (a b : Nat × FVal) => a.1 ≤ b.1) kept
  if cs.2.1 || cs.2.2.2 || badTau tau then (0xFFFFFFFF, 0)
  else if tau.eqv .zero then (((cs.1.find? (fun q => q.2.eqv m || q.2 == m)).map (·.1)).getD 0, 1)
  else (pickIndex ((exactSum (fin.map (·.2))).mul (.fin false (nth 0 draws 0 + 65536 * nth 0 draws 1) 0)) .zero fin 0, fin.length)

/-- The core with a drawn index in its register, the status word in the parameter record, and the two draws of lane 0 made. -/
def Core.putSample (c : Core) (w : Fields) (h : Head) (sample : Nat × Nat) (bad : Bool) : Core :=
  let b := c.regN w.b
  let cs := candidates (actives c w h)
  let status := samplingStatus sample.2 bad cs.2.2.1 cs.2.1 cs.2.2.2
  let k : Core := { c with lanes := (takeDrawsK c.lanes 1 1 2).2, scratch := c.scratch.writeLe (b + 12) 4 status }
  k.setReg w.d (BitVec.ofNat 32 sample.1)

/-- `VSAMPLE` that can be carried out at once. -/
theorem Core.vsample_done {s : Machine.State} {id : CoreId} {w : Fields} {h : Head} :
    let c := s.chip.core id
    let b := c.regN w.b
    VecCan s id w { d := true, a := true, b := true, c := true, f2 := true } 0 (sourceA c w ++ [(b, 16)] ++ maskOf c w) [(b + 12, 4)]
      (maskAt c w) → HeadIs c w h → (fmt2 w).isScore = true → b % 16 = 0 →
    c.vsample w = { popped w (c.putSample w h (c.sampled w h) (badTau (f32 (c.scratch.readLe b 4)))) with pc := c.pc + 1 } := by
  intro c b hcan hhead hscore halign
  refine Core.sampleOp_done (maskOut := false) hcan hhead hscore halign ?_
  simp only [Core.putSample, Core.sampled, apply_ite Prod.fst, apply_ite Prod.snd]
  rfl

theorem Core.sameFaults_putSample (c : Core) (w : Fields) (h : Head) (sample : Nat × Nat) (bad : Bool) :
    c.SameFaults (c.putSample w h sample bad) :=
  ⟨Core.setReg_excCause .., Core.setReg_restorePend ..⟩

/-! ### Scores of blocks (R161) -/

/-- The core with a record for each of its blocks at s[d]: the score of its grid and its best pattern. -/
def Core.blockScores (c : Core) (w : Fields) : Core :=
  let n := c.count w
  let f := fmt2 w
  let st := if bitAt (vecFn w) 0 then 16 else 8
  let a := c.regN w.a
  let kind (j : Nat) : BlockKind := blockKind (c.scratch.readLe (c.regN w.c + 4 * j) 4) (st == 16)
  let val (j v : Nat) : FVal :=
    decodeScaled f (c.scratch.get (a + f.elemBytes (st * n) + j)).toNat (elemAt c.scratch f a (st * j + v))
  let recs := (List.range n).flatMap (fun j => scoreRecord (scoreBlock (blockGrid (kind j) (val j))))
  { c with scratch := c.scratch.write (c.regN w.d) recs }

/-- `MSCORE` that can be carried out at once. -/
theorem Core.mscore_done {s : Machine.State} {id : CoreId} {w : Fields} :
    let c := s.chip.core id
    let n := c.count w
    let f := fmt2 w
    let st := if bitAt (vecFn w) 0 then 16 else 8
    VecCan s id w { d := true, a := true, c := true, f2 := true } 1
      [(c.regN w.a, f.elemBytes (st * n) + (if f.isMx then n else 0)), (c.regN w.c, 4 * n)] [(c.regN w.d, 8 * n)] [] →
    vTq w = false → n ≤ 512 → c.mscore w = { c.blockScores w with pc := c.pc + 1 } := by
  intro c n f st hcan htq hmany
  have hlegal : c.vecCauses w { d := true, a := true, c := true, f2 := true } 1 false = [] := hcan.legal.vecCauses
  have hcount : decide (512 < c.count w) = false := decide_eq_false (Nat.not_lt.mpr hmany)
  have hn : (c.count w == 0) = false := hcan.count_beq_zero
  unfold Core.mscore
  simp only [hn, hlegal, htq, hcount, Bool.false_and, Bool.false_eq_true, if_false, when_false, List.append_nil, List.nil_append]
  exact hcan.seqWith_done ((if_pos hmany).trans (rangeCauses_eq_nil hcan.fits hcan.aligned)) rfl

/-! ### The online softmax (R295 to R298) -/

/-- A legal operation with its row records aligned raises nothing (R295). -/
theorem Core.vosmCauses_eq_nil {c : Core} {w : Fields} {u : Used} {op : Nat} {useE : Bool} {reads writes : List (Nat × Nat)}
    {recs : List Nat} (hlegal : VecLegal c w u (if useE then 127 else 7)) (hop : vecFn w % 8 = op)
    (hscore : u.f2 = true → (fmt2 w).isScore = true) (hfits : ∀ r ∈ reads ++ writes, Fits r) (hmask : ∀ a ∈ maskAt c w, a % 4 = 0)
    (hrecs : ∀ a ∈ recs, a % 32 = 0) : c.vosmCauses w u op useE reads writes recs = [] := by
  have hfmt : (u.f2 && !(fmt2 w).isScore) = false := by
    cases hu : u.f2 with
    | false => rfl
    | true => simp [hscore hu]
  have halign : recs.any (fun a => a % 32 != 0) = false := List.any_eq_false.mpr fun a ha => by simp [hrecs a ha]
  simp only [Core.vosmCauses, hlegal.vecCauses, hop, hfmt, halign, Core.maskAlign_eq, rangeCauses_eq_nil hfits hmask, bne_self_eq_false,
    when_false, List.append_nil]

/-- The ranges of an operation over elements with a row record (R295). -/
theorem Core.vosmReads_eq {c : Core} {w : Fields} (hn : (c.count w == 0) = false) :
    c.vosmReads w (c.count w) = sourceA c w ++ [(c.regN w.b, 32)] ++ maskOf c w := by
  unfold Core.vosmReads
  rw [hn, Core.maskRange_eq]
  rfl

/-- An operation over elements with a row record that can be carried out at once (R295). -/
theorem Core.vosm_done {s : Machine.State} {id : CoreId} {w : Fields} {h : Head} {op : Nat} {useE : Bool} {writes : List (Nat × Nat)}
    {f : Core → Head → Core} {k : Core} :
    let c := s.chip.core id
    let b := c.regN w.b
    let reads := sourceA c w ++ [(b, 32)] ++ maskOf c w
    VecCan s id w vosmUsed (if useE then 127 else 7) reads writes (maskAt c w) → HeadIs c w h → (fmt2 w).isScore = true → b % 32 = 0 →
    vecFn w % 8 = op → f c h = k →
    c.seqWith (c.vosmCauses w vosmUsed op useE reads writes [b]) (fun c => if c.mustWait reads writes then .wait
      else c.withHead (vTq w) (fun h => if !headFmtOk w h then .raise cFormat
        else .done (if vPop w then (f c h).pop else f c h))) = { popped w k with pc := c.pc + 1 } := by
  intro c b reads hcan hhead hscore halign hop hk
  subst hk
  exact hcan.seqWith_done (Core.vosmCauses_eq_nil hcan.legal hop (fun _ => hscore) hcan.fits hcan.aligned
    (List.forall_mem_singleton.mpr halign)) (Core.withHead_done hhead (f c))

/-! #### The row record and the terms of a chunk (R296) -/

/-- The scores of a chunk; a masked-off one counts as -infinity. -/
def Core.chunkScores (c : Core) (w : Fields) (h : Head) : List FVal :=
  let n := c.count w
  (List.range n).map (fun i => if c.active w c.scratch i then c.srcA w h n c.scratch i else .inf true)

/-- The scores as `VOSM.STAT` takes them, from the values that it has read first. -/
theorem Core.chunkScores_eq (c : Core) (w : Fields) (h : Head) :
    (List.range (c.count w)).map (fun i => if c.active w c.scratch i then
      nth .zero ((List.range (c.count w)).map (fun i => c.srcA w h (c.count w) c.scratch i)) i else .inf true) = c.chunkScores w h :=
  List.map_congr_left fun i hi => by simp [nth, List.mem_range.mp hi]

/-- The core with a chunk folded into its row record, and the term of each score written. -/
def Core.softmaxStat (c : Core) (w : Fields) (h : Head) : Core :=
  let n := c.count w
  let b := c.regN w.b
  let r := foldScores (RowState.load c.scratch b) (c.chunkScores w h)
  let ps := (c.chunkScores w h).map (fun v => if r.1.nan then .nan false false else f32 (expTerm (toF32 v) r.1.m).1)
  let rr := drawn c w
  let k := rr.2.elementwise w (c.regN w.d) n n (fun _ i => c.active w c.scratch i) rr.1 (fun _ i => nth .zero ps i) (roundInto w)
  { k with scratch := k.scratch.write b r.1.bytes, cvt := k.cvt ||| r.2 }

/-- `VOSM.STAT` that can be carried out at once. -/
theorem Core.vosmStat_done {s : Machine.State} {id : CoreId} {w : Fields} {h : Head} :
    let c := s.chip.core id
    let b := c.regN w.b
    VecCan s id w vosmUsed 7 (sourceA c w ++ [(b, 32)] ++ maskOf c w) [rangeD c w, (b, 32)] (maskAt c w) → HeadIs c w h →
    (fmt2 w).isScore = true → b % 32 = 0 → vecFn w = 0 → c.vosmStat w = { popped w (c.softmaxStat w h) with pc := c.pc + 1 } := by
  intro c b hcan hhead hscore halign hfn
  have hn : (c.count w == 0) = false := hcan.count_beq_zero
  unfold Core.vosmStat
  simp only [hn, Core.vosmReads_eq hn, Bool.false_eq_true, if_false]
  refine Core.vosm_done (useE := false) hcan hhead hscore halign (by rw [hfn]) ?_
  simp only [c, Core.chunkScores_eq]
  rfl

/-! #### The elements of a row (R298, Table 11.3) -/

/-- The core with the elements of a row rescaled by the factor of its record. -/
def Core.softmaxScale (c : Core) (w : Fields) (h : Head) : Core :=
  let n := c.count w
  let rr := drawn c w
  rr.2.elementwise w (c.regN w.d) n (min (fmt1 w).lanes (fmt2 w).lanes) (c.active w) rr.1
    (fun m i => (c.srcA w h n m i).mul (f32 (RowState.load c.scratch (c.regN w.b)).alpha)) (roundInto w)

/-- `VOSM.SCALE` that can be carried out at once. -/
theorem Core.vosmScale_done {s : Machine.State} {id : CoreId} {w : Fields} {h : Head} :
    let c := s.chip.core id
    let b := c.regN w.b
    VecCan s id w vosmUsed 7 (sourceA c w ++ [(b, 32)] ++ maskOf c w) [rangeD c w] (maskAt c w) → HeadIs c w h →
    (fmt2 w).isScore = true → b % 32 = 0 → vecFn w = 2 → c.vosmScale w = { popped w (c.softmaxScale w h) with pc := c.pc + 1 } := by
  intro c b hcan hhead hscore halign hfn
  have hn : (c.count w == 0) = false := hcan.count_beq_zero
  unfold Core.vosmScale
  simp only [hn, Core.vosmReads_eq hn, Bool.false_eq_true, if_false]
  exact Core.vosm_done (useE := false) hcan hhead hscore halign (by rw [hfn]) rfl

section
variable (c : Core) (w : Fields) (val : RowState → FVal → Nat × Flags) (h : Head)

/-- The core with every element of a row NaN, as a record with a NaN makes it. -/
def Core.softmaxNan : Core :=
  { (drawn c w).2.elementwise w (c.regN w.d) (c.count w) 4 (fun _ _ => true) (drawn c w).1 (fun _ _ => .nan false false) (roundInto w)
    with cvt := c.cvt }

/-- The core with every active element of a row 0 and the counter that E names up by one, as a record without a finite score makes it. -/
def Core.softmaxEmpty : Core :=
  let e := BitVec.ofNat 4 (vecFn w / 8)
  ((drawn c w).2.elementwise w (c.regN w.d) (c.count w) 4 (c.active w) (drawn c w).1 (fun _ _ => .zero) (roundInto w)).setReg e
    (satInc (c.reg e) 1)

/-- The core with `val` of every active element of a row, and the flags of each. -/
def Core.softmaxValues : Core :=
  let n := c.count w
  let row := RowState.load c.scratch (c.regN w.b)
  let k := (drawn c w).2.elementwise w (c.regN w.d) n 4 (c.active w) (drawn c w).1 (fun m i => f32 (val row (c.srcA w h n m i)).1)
    (roundInto w)
  let fl := ((List.range n).filter (c.active w c.scratch)).foldl
    (fun (fl : Flags) i => fl ||| (val row (c.srcA w h n c.scratch i)).2) 0
  { k with cvt := k.cvt ||| fl }

/-- The core with the final elements of a row. -/
def Core.softmaxFinish : Core :=
  let row := RowState.load c.scratch (c.regN w.b)
  if row.nan then c.softmaxNan w else if row.empty then c.softmaxEmpty w else c.softmaxValues w val h

theorem Core.sameFaults_softmaxNan : c.SameFaults (c.softmaxNan w) := (c.sameFaults_elementwise ..).withCvt _

theorem Core.sameFaults_softmaxEmpty : c.SameFaults (c.softmaxEmpty w) :=
  ⟨(Core.setReg_excCause ..).trans (c.sameFaults_elementwise ..).excCause,
    (Core.setReg_restorePend ..).trans (c.sameFaults_elementwise ..).restorePend⟩

theorem Core.sameFaults_softmaxValues : c.SameFaults (c.softmaxValues w val h) := (c.sameFaults_elementwise ..).withCvt _

end

/-- `VOSM.NORM` or `VOSM.PROB` that can be carried out at once. -/
theorem Core.vosmElems_done {s : Machine.State} {id : CoreId} {w : Fields} {h : Head} {op : Nat} (val : RowState → FVal → Nat × Flags) :
    let c := s.chip.core id
    let b := c.regN w.b
    VecCan s id w vosmUsed 127 (sourceA c w ++ [(b, 32)] ++ maskOf c w) [rangeD c w] (maskAt c w) → HeadIs c w h →
    (fmt2 w).isScore = true → b % 32 = 0 → vecFn w % 8 = op →
    c.vosmElems w op true 4 val = { popped w (c.softmaxFinish w val h) with pc := c.pc + 1 } := by
  intro c b hcan hhead hscore halign hop
  have hn : (c.count w == 0) = false := hcan.count_beq_zero
  unfold Core.vosmElems
  simp only [hn, Core.vosmReads_eq hn, Bool.false_eq_true, if_false, Bool.true_and]
  exact Core.vosm_done (useE := true) hcan hhead hscore halign hop rfl

/-! #### Two row records become one (R297) -/

/-- The factor that takes a sum under the maximum `v` to one under `m`. -/
def mergeFactor (m v : Nat) : Nat × Flags := if (f32 v).eqv (f32 m) then (0x3F800000, 0) else expTerm v m

/-- The core with the row record at `a` merged into the one at `b`, neither of them with a NaN. -/
def Core.mergeRows (c : Core) (a b : Nat) : Core :=
  let x := RowState.load c.scratch a
  let y := RowState.load c.scratch b
  let m := f32max y.m x.m
  let p := toF32F ((f32 x.l).mul (f32 (mergeFactor m x.m).1))
  let l := rescaleSum y.l (mergeFactor m y.m).1 p.1
  { c with
    scratch := (c.scratch.write b (RowState.bytes ⟨m, l.1, (mergeFactor m y.m).1, min (2 ^ 32 - 1) (y.k + x.k), false⟩)).writeLe
      (a + 8) 4 (mergeFactor m x.m).1
    cvt := c.cvt ||| (mergeFactor m y.m).2 ||| (mergeFactor m x.m).2 ||| p.2 ||| l.2 }

/-- `VOSM.MERGE` on two aligned records without a NaN. -/
theorem Core.vosmMerge_done {c : Core} {w : Fields} (hi : c.canIssue = true) (hp : c.pc ≠ 2047)
    (hlegal : VecLegal c w { a := true, b := true } 7) (hfn : vecFn w = 1) (hn : vecN w = 0) (hreg : vecReg w = 0) (hc : w.c = 0)
    (hfits : ∀ r ∈ [(c.regN w.a, 32), (c.regN w.b, 32)], Fits r) (halign : ∀ a ∈ [c.regN w.a, c.regN w.b], a % 32 = 0)
    (hfree : c.mustWait [(c.regN w.a, 32), (c.regN w.b, 32)] [(c.regN w.a, 32), (c.regN w.b, 32)] = false)
    (hx : (RowState.load c.scratch (c.regN w.a)).nan = false) (hy : (RowState.load c.scratch (c.regN w.b)).nan = false) :
    c.vosmMerge w = { c.mergeRows (c.regN w.a) (c.regN w.b) with pc := c.pc + 1 } := by
  have hcauses : c.vosmCauses w { a := true, b := true } 1 false [(c.regN w.a, 32), (c.regN w.b, 32)]
      [(c.regN w.a, 32), (c.regN w.b, 32)] [c.regN w.a, c.regN w.b] = [] :=
    Core.vosmCauses_eq_nil hlegal (by rw [hfn]) nofun (fun r hr => (List.mem_append.mp hr).elim (hfits r) (hfits r))
      (by simp [maskAt, hc]) halign
  have hfields : (vecN w != 0 || vecReg w != 0) = false := by simp [hn, hreg]
  unfold Core.vosmMerge
  simp only [hcauses, hfields, when_false, List.append_nil]
  refine Core.seqWith_done c _ _ hi hp ?_
  simp only [hfree, hx, hy, Bool.or_self, Bool.false_eq_true, if_false]
  rfl

end Sys2Proof

namespace Sys2Proof.Claims

open Sys2Proof.Machine

/-- A vector instruction whose effect raises nothing, in the words of the statements. -/
theorem exec_popped {s : State} {id : CoreId} {w : Fields} {u : Used} {fnMask : Nat} {reads writes : List (Nat × Nat)} {masks : List Nat}
    (hcan : VecCan s id w u fnMask reads writes masks) {i : Instr} {run : Core → Core} {k : Core}
    (hx : exec i s = .next (s.onCore id run)) (hrun : run (s.chip.core id) = { popped w k with pc := (s.chip.core id).pc + 1 })
    (hk : (s.chip.core id).SameFaults k) : exec i s = .next (after s id { popped w k with pc := (s.chip.core id).pc + 1 }) :=
  exec_eq_after hx hcan.ready.1.1 hrun hk.excCause hk.restorePend

theorem sampling : Sampling := by
  intro s id w h k n b cs tau topk p reads u status hhead hscore halign
  refine ⟨fun hcan => ⟨?_, fun htau => ?_⟩, fun hcan => ?_⟩
  · exact exec_popped hcan rfl (Core.sampleOp_done (maskOut := true) hcan hhead hscore halign rfl)
      (Core.sameFaults_writeSample ..)
  · refine exec_popped hcan rfl (Core.sampleOp_done (maskOut := true) hcan hhead hscore halign ?_)
      (Core.sameFaults_writeSample ..)
    simp only [tau, b, k] at htau
    simp only [htau, Bool.false_eq_true, if_false]
    rfl
  · intro ds put
    have hput {sample : Nat × Nat} {bad : Bool} (hs : k.sampled w h = sample) (hb : badTau tau = bad) :
        exec (.vsample id w) s = .next (after s id { popped w (k.putSample w h sample bad) with pc := k.pc + 1 }) :=
      exec_popped hcan rfl (hs ▸ hb ▸ Core.vsample_done hcan hhead hscore halign) (Core.sameFaults_putSample ..)
    refine ⟨fun hbad => ?_, fun hnan hempty htau hzero => ?_, fun hnan hempty htau hzero => ?_⟩
    · have hnone : (cs.2.1 || cs.2.2.2 || badTau tau) = true := by simpa [or_assoc] using hbad
      exact (hput (if_pos hnone) rfl :)
    · have hsome : ¬(cs.2.1 || cs.2.2.2 || badTau tau) = true := by simp [hnan, hempty, htau]
      exact (hput ((if_neg hsome).trans (if_pos hzero)) htau :)
    · have hsome : ¬(cs.2.1 || cs.2.2.2 || badTau tau) = true := by simp [hnan, hempty, htau]
      exact (hput ((if_neg hsome).trans (if_neg (Bool.eq_false_iff.mp hzero))) htau :)

theorem blockScores : BlockScores := by
  intro s id w k n f st a hcan htq hmany kind val recs
  exact exec_eq_after rfl hcan.ready.1.1 (Core.mscore_done hcan htq hmany) rfl rfl

/-- Settles O18: the three sampling instructions, and the scores of blocks. -/
theorem selectionAndScores : Obligations.SelectionAndScores := ⟨sampling, blockScores⟩

/-- The three endings of a row (R298): its record holds a NaN, has no finite score, or has one. -/
theorem exec_vosmElems {s : State} {id : CoreId} {w : Fields} {h : Head} {i : Instr} {op : Nat} {val : RowState → FVal → Nat × Flags}
    (hx : exec i s = .next (s.onCore id (fun k => k.vosmElems w op true 4 val))) :
    let k := s.chip.core id
    let b := k.regN w.b
    let row := RowState.load k.scratch b
    VecCan s id w vosmUsed 127 (sourceA k w ++ [(b, 32)] ++ maskOf k w) [rangeD k w] (maskAt k w) → HeadIs k w h →
    (fmt2 w).isScore = true → b % 32 = 0 → vecFn w % 8 = op →
    let ends (k' : Core) : Prop := exec i s = .next (after s id { popped w k' with pc := k.pc + 1 })
    (row.nan = true → ends (k.softmaxNan w)) ∧ (row.nan = false → row.m = 0xFF800000 → ends (k.softmaxEmpty w)) ∧
    (row.nan = false → row.m ≠ 0xFF800000 → ends (k.softmaxValues w val h)) := by
  intro k b row hcan hhead hscore halign hop ends
  have hdone := Core.vosmElems_done val hcan hhead hscore halign hop
  refine ⟨fun hnan => ?_, fun hnan hm => ?_, fun hnan hm => ?_⟩
  · have hk : k.softmaxFinish w val h = k.softmaxNan w := if_pos hnan
    exact exec_popped hcan hx (hk ▸ hdone) (k.sameFaults_softmaxNan w)
  · have hempty : row.empty = true := by simp [RowState.empty, hnan, hm]
    have hk : k.softmaxFinish w val h = k.softmaxEmpty w := (if_neg (Bool.eq_false_iff.mp hnan)).trans (if_pos hempty)
    exact exec_popped hcan hx (hk ▸ hdone) (k.sameFaults_softmaxEmpty w)
  · have hempty : row.empty = false := by simp [RowState.empty, hm]
    have hk : k.softmaxFinish w val h = k.softmaxValues w val h :=
      (if_neg (Bool.eq_false_iff.mp hnan)).trans (if_neg (Bool.eq_false_iff.mp hempty))
    exact exec_popped hcan hx (hk ▸ hdone) (k.sameFaults_softmaxValues w val h)

theorem onlineSoftmax : OnlineSoftmax := by
  intro s id w h k n b u reads row a rr lanes hhead hscore halign
  refine ⟨fun hcan hfn => ?_, fun hcan hfn => ?_, fun hcan hfn hnan hm => ?_, fun hcan hfn hnan hm => ?_⟩
  · exact exec_popped hcan rfl (Core.vosmStat_done hcan hhead hscore halign hfn)
      ⟨(k.sameFaults_elementwise ..).excCause, (k.sameFaults_elementwise ..).restorePend⟩
  · exact exec_popped hcan rfl (Core.vosmScale_done hcan hhead hscore halign hfn) (k.sameFaults_elementwise ..)
  · obtain ⟨-, -, hvalues⟩ := exec_vosmElems (i := .vosmNorm id w) rfl hcan hhead hscore halign hfn
    exact hvalues hnan hm
  · obtain ⟨-, -, hvalues⟩ := exec_vosmElems (i := .vosmProb id w) rfl hcan hhead hscore halign hfn
    exact hvalues hnan hm

theorem softmaxOfNoScores : SoftmaxOfNoScores := by
  intro s id w h k n b u row rr e gives hhead hscore halign hcan
  refine ⟨fun hfn => ?_, fun hfn => ?_⟩
  · obtain ⟨hnan, hempty, -⟩ := exec_vosmElems (i := .vosmNorm id w) rfl hcan hhead hscore halign hfn
    exact ⟨hnan, hempty⟩
  · obtain ⟨hnan, hempty, -⟩ := exec_vosmElems (i := .vosmProb id w) rfl hcan hhead hscore halign hfn
    exact ⟨hnan, hempty⟩

theorem softmaxMerge : SoftmaxMerge := by
  intro s id a b hready k x y rs m factor p l hphase ha hb haligna halignb hfree hx hy
  let w : Fields := { w0 with a := a, b := b, imm := 0x002000 }
  have hfn : vecFn w = 1 := by simp [vecFn, bits, w]
  have hn : vecN w = 0 := by simp [vecN, bits, w]
  have hreg : vecReg w = 0 := by simp [vecReg, bits, w]
  have hlegal : VecLegal k w { a := true, b := true } 7 :=
    { phase := hphase
      fields := by simp [Fields.bad, w, w0]
      pop := by simp [vPop, bitAt, w, w0]
      head := by simp [vTq, bitAt, w, w0]
      imm := by simp [hn]
      count := by simp [Core.count, hn, hreg] }
  have hfits : ∀ r ∈ rs, Fits r :=
    List.forall_mem_cons.mpr ⟨.inr ⟨by omega, ha⟩, List.forall_mem_singleton.mpr (.inr ⟨by omega, hb⟩)⟩
  have haligns : ∀ o ∈ [k.regN a, k.regN b], o % 32 = 0 := by simp [haligna, halignb]
  exact exec_eq_after rfl hready.1.1
    (Core.vosmMerge_done hready.1.2 hready.2 hlegal hfn hn hreg rfl hfits haligns hfree hx hy) rfl rfl

/-- Settles O19: the operations on a row with a score, the endings of one without, and the merge of two. -/
theorem softmax : Obligations.Softmax := ⟨onlineSoftmax, softmaxOfNoScores, softmaxMerge⟩

end Sys2Proof.Claims
end

section
/-! PROOFS. Memory controllers and patrol scrub (R322, R323, R325): which request a controller takes next, what a load takes from its
line and what that leaves of memory, what a scrub counts and poisons, and the statement O27. -/
namespace Sys2Proof

/-! ### The word of a load in its line -/

theorem Memory.slice_read {off n len : Nat} (m : Memory) (a : Nat) (h : off + n ≤ len) :
    slice (m.read a len) off n = m.read (a + off) n := by
  have htake : ((m.read a len).drop off).take n = m.read (a + off) n := by
    refine List.ext_getElem (by simp [Memory.read]; omega) fun i h1 h2 => ?_
    simp [Memory.read, Nat.add_assoc]
  rw [slice, htake]
  simp [Memory.read]

/-- With an empty write buffer nothing is laid over the bytes of memory. -/
theorem Cluster.overlay_empty {x : Cluster} (h : x.wb = []) (a : Nat) (bs : List Byte) : x.overlay a bs = bs := by
  simp [Cluster.overlay, Cluster.buffered, h, List.zipIdx_map_fst]

theorem Cluster.install_wb (x : Cluster) (line : Nat) (data : List Byte) (poisoned alloc : Bool) (seq : Nat) :
    (x.install line data poisoned alloc seq).wb = x.wb := by
  unfold Cluster.install
  dsimp only
  split <;> rfl

/-- An aligned word lies in one line. -/
theorem Chip.slice_load_line (c : Chip) {pa : Nat} (h : pa % 4 = 0) :
    slice (c.load (64 * (pa / 64)) 64) (pa % 64) 4 = c.mem.bytes.read pa 4 := by
  rw [Chip.load, Memory.slice_read _ _ (by omega), Nat.div_add_mod]

/-! ### The cores of a cluster -/

theorem coreAt_toNat (cl : ClusterId) {n : Nat} (h : n < 64) : (coreAt cl n).toNat = cl.toNat * 64 + n := by
  have := cl.isLt
  rw [coreAt, BitVec.toNat_ofNat]
  omega

theorem mem_coresOf_clusterOf (id : CoreId) : id ∈ coresOf (clusterOf id) := by
  refine List.mem_map.mpr ⟨id.toNat % 64, List.mem_range.mpr (Nat.mod_lt _ (by decide)), BitVec.eq_of_toNat_eq ?_⟩
  rw [coreAt_toNat _ (Nat.mod_lt _ (by decide))]
  have := id.isLt
  simp only [clusterOf, BitVec.extractLsb'_toNat, Nat.shiftRight_eq_div_pow]
  omega

theorem nodup_coresOf (cl : ClusterId) : (coresOf cl).Nodup := by
  refine List.pairwise_map.mpr (List.nodup_range.imp_of_mem fun hm hn hne h => hne ?_)
  have h := congrArg BitVec.toNat h
  rw [coreAt_toNat _ (List.mem_range.mp hm), coreAt_toNat _ (List.mem_range.mp hn)] at h
  omega

section
variable (c : Chip) {l : List CoreId} {id : CoreId}

theorem Chip.mem_foldl_setCore (g : Chip → CoreId → Core) : (l.foldl (fun (c : Chip) i => c.setCore i (g c i)) c).mem = c.mem :=
  List.foldlRecOn (motive := fun c' : Chip => c'.mem = c.mem) _ _ rfl fun _ h _ _ => h

theorem Chip.core_foldl_setCore_other (g : Chip → CoreId → Core) (h : id ∉ l) :
    (l.foldl (fun (c : Chip) i => c.setCore i (g c i)) c).core id = c.core id :=
  List.foldlRecOn (motive := fun c' : Chip => c'.core id = c.core id) _ _ rfl fun c' hc i hi =>
    (Chip.core_setCore_other c' i id _ (ne_of_mem_of_not_mem hi h).symm).trans hc

/-- Each core of a list without repetition is changed once. -/
theorem Chip.core_foldl_setCore (f : CoreId → Core → Core) (hl : l.Nodup) (h : id ∈ l) :
    (l.foldl (fun (c : Chip) i => c.setCore i (f i (c.core i))) c).core id = f id (c.core id) := by
  induction l generalizing c with
  | nil => cases h
  | cons i l ih =>
    obtain ⟨hi, hl⟩ := List.nodup_cons.mp hl
    rw [List.foldl_cons]
    rcases List.mem_cons.mp h with rfl | h
    · rw [Chip.core_foldl_setCore_other _ _ hi, Chip.core_setCore]
    · rw [ih _ hl h, Chip.core_setCore_other _ _ _ _ (ne_of_mem_of_not_mem h hi)]

end

/-! ### A load takes its word (R361) -/

/-- A core whose load waits for the line of access `a` takes its word of the line, with what its cluster's buffer holds laid over it: the
core that the line is read for, and any other whose last fence came before the request. -/
def Core.takeLine (k : Core) (x : Cluster) (a : Access) (data : List Byte) (bad own : Bool) : Core :=
  match k.hold with
  | .access b =>
    if b.kind == .load && b.stage == .memory && b.pa.toNat / 64 == a.pa.toNat / 64 && (own || decide (k.fenceSeq ≤ a.reqSeq)) then
      { k with hold := .access { b with
          stage := .value (BitVec.ofNat 32 (ofLe (x.overlay b.pa.toNat (slice data (b.pa.toNat % 64) 4)))), poisoned := bad } }
    else k
  | _ => k

/-- The cluster of a core takes the line of an access into its cache, and its cores take their words. -/
def Chip.lineRead (c : Chip) (id : CoreId) (a : Access) : Chip :=
  let line := a.pa.toNat / 64
  let data := c.load (64 * line) 64
  let bad := c.mem.poisoned line
  let c := c.modCluster (clusterOf id) (fun x => x.install line data bad (!a.noAlloc) a.reqSeq)
  let x := c.cluster (clusterOf id)
  (coresOf (clusterOf id)).foldl (fun (c : Chip) i => c.setCore i ((c.core i).takeLine x a data bad (i == id))) c

section
variable (c : Chip) (v : Env) (id : CoreId) (a : Access)

theorem Chip.lineRead_mem : (c.lineRead id a).mem = c.mem := Chip.mem_foldl_setCore ..

/-- Once the line has been read, requests leave the queue, and poison is counted. -/
theorem Chip.fixLoad_eq : ∃ p : MemReq → Bool, c.fixLoad v id a =
    (let m := (c.lineRead id a).mem.modCtl (memUnit (64 * (a.pa.toNat / 64))) (fun (q : MemCtl) => { q with queue := q.queue.filter p })
     let c2 : Chip := { c.lineRead id a with mem := m }
     if c.mem.poisoned (a.pa.toNat / 64) then c2.poisonRead v (64 * (a.pa.toNat / 64)) (clusterOf id).toNat else c2) := ⟨_, rfl⟩

theorem Chip.core_fixLoad_lineRead : (c.fixLoad v id a).core id = (c.lineRead id a).core id := by
  obtain ⟨p, h⟩ := c.fixLoad_eq v id a
  rw [h]
  generalize c.lineRead id a = c1
  dsimp only
  split <;> rfl

/-- Of memory, fixing a load changes the queue of its controller, which loses requests, and the counts of errors. -/
theorem Chip.fixLoad_mem : ∃ (p : MemReq → Bool) (e : Tbl MemErr), (c.fixLoad v id a).mem =
    { c.mem.modCtl (memUnit (64 * (a.pa.toNat / 64))) (fun (q : MemCtl) => { q with queue := q.queue.filter p }) with errs := e } := by
  obtain ⟨p, h⟩ := c.fixLoad_eq v id a
  rw [h, Chip.lineRead_mem]
  generalize c.lineRead id a = c1
  dsimp only
  split
  · exact ⟨p, _, rfl⟩
  · exact ⟨p, _, rfl⟩

theorem Chip.fixLoad_bytes : (c.fixLoad v id a).mem.bytes = c.mem.bytes := by
  obtain ⟨p, e, h⟩ := c.fixLoad_mem v id a
  rw [h]
  rfl

end

theorem Chip.mem_queue_of_fixLoad {c : Chip} {v : Env} {id : CoreId} {a : Access} {u : Nat} {r : MemReq}
    (hr : r ∈ (tblGet {} (c.fixLoad v id a).mem.ctls u).queue) : r ∈ (tblGet {} c.mem.ctls u).queue := by
  obtain ⟨p, e, h⟩ := c.fixLoad_mem v id a
  rw [h] at hr
  by_cases hu : u = memUnit (64 * (a.pa.toNat / 64))
  · subst hu
    simp only [MemState.modCtl, tblMod, tblGet_tblSet_same] at hr
    exact (List.mem_filter.mp hr).1
  · simpa only [MemState.modCtl, tblMod, tblGet_tblSet_other _ _ _ _ _ hu] using hr

/-- The queue of a controller once a request is served, and its turn when the request came from the round robin. -/
def Chip.servedCtl (c : Chip) (u : Nat) (r : MemReq) (robin : Bool) : MemCtl :=
  let q := tblGet {} c.mem.ctls u
  let t := c.mem.turnOf q
  let q := { q with queue := q.queue.erase r, recent := ((r.cls == 0) :: q.recent).take 1024 }
  if robin then { q with turn := BitVec.ofNat 2 t.1, left := BitVec.ofNat 4 (t.2 - 1) } else q

theorem Chip.servedCtl_queue (c : Chip) (u : Nat) (r : MemReq) (robin : Bool) :
    (c.servedCtl u r robin).queue = (tblGet {} c.mem.ctls u).queue.erase r := by
  cases robin with
  | false => rfl
  | true => rfl

section
variable {c : Chip} {v : Env} {a : Access}

/-- A load that waits for its home takes the word that memory holds, when no write of its cluster is buffered. -/
theorem Chip.core_fixLoad {id : CoreId} (hhold : (c.core id).hold = .access a) (hstage : a.stage = .memory) (hkind : a.kind = .load)
    (halign : a.pa.toNat % 4 = 0) (hwb : (c.cluster (clusterOf id)).wb = []) (hclean : c.mem.poisoned (a.pa.toNat / 64) = false) :
    (c.fixLoad v id a).core id = { c.core id with hold := .access { a with
      stage := .value (BitVec.ofNat 32 (c.mem.bytes.readLe a.pa.toNat 4)), poisoned := false } } := by
  rw [Chip.core_fixLoad_lineRead, Chip.lineRead]
  dsimp only
  rw [Chip.core_foldl_setCore _ (fun i k => k.takeLine _ a _ _ (i == id)) (nodup_coresOf _) (mem_coresOf_clusterOf id), Chip.modCluster,
    Chip.core_setCluster, Chip.cluster_setCluster, Core.takeLine, hhold]
  dsimp only
  rw [if_pos (by simp [hstage, hkind]), Cluster.overlay_empty ((Cluster.install_wb ..).trans hwb), Chip.slice_load_line c halign, hclean]
  rfl

/-- The load of a request that is served without an error has its value fixed. -/
theorem Chip.serve_clean {u : Nat} {r : MemReq} (robin : Bool) (hhold : (c.core r.core).hold = .access a) (hstage : a.stage = .memory)
    (hkind : a.kind = .load) (hline : a.pa.toNat / 64 = r.line) : c.serve v u r robin .clean =
      ({ c with mem := { c.mem with ctls := tblSet c.mem.ctls u (c.servedCtl u r robin) } } : Chip).fixLoad v r.core a := by
  have hcore (m : MemState) : ({ c with mem := m } : Chip).core r.core = c.core r.core := rfl
  have hgo : (a.stage == .memory && a.kind == .load && a.pa.toNat / 64 == r.line) = true := by simp [hstage, hkind, hline]
  have hecc : (EccResult.clean == EccResult.corrected) = false := rfl
  simp only [Chip.serve, Chip.servedCtl, hecc, Bool.false_eq_true, if_false, hcore, hhold, hgo, if_true]

end

/-! ### The request served next (R322) -/

/-- A request of another class than 0 has waited past the starvation guard. -/
def MemState.Promoted (m : MemState) (now : Nat) (r : MemReq) : Prop := r.cls ≠ 0 ∧ r.since + m.qosGuard.toNat * 6400 ≤ now

theorem MemState.promoted_iff {m : MemState} {now : Nat} {r : MemReq} :
    (r.cls != 0 && decide (r.since + m.qosGuard.toNat * 6400 ≤ now)) = true ↔ m.Promoted now r := by
  simp [MemState.Promoted]

section
variable {m : MemState} {q : MemCtl} {now : Nat} {pre post : List MemReq} {r : MemReq} (hq : q.queue = pre ++ r :: post)
include hq

theorem MemState.guarded_of_promoted (hpre : ∀ y ∈ pre, ¬m.Promoted now y) (hr : m.Promoted now r) : m.guarded q now = some r := by
  refine List.find?_eq_some_iff_append.mpr ⟨MemState.promoted_iff.mpr hr, pre, post, hq, fun y hy => ?_⟩
  rw [Bool.not_eq_true', ← Bool.not_eq_true, MemState.promoted_iff]
  exact hpre y hy

/-- The oldest request of class 0 is next when no request is promoted and the class is under its cap. -/
theorem MemState.nextReq_of_class0 (hnone : ∀ y ∈ q.queue, ¬m.Promoted now y) (hpre : ∀ y ∈ pre, y.cls ≠ 0) (hr : r.cls = 0)
    (hcap : q.recent.countP (·) ≤ 64 * m.qosCap.toNat) : m.nextReq q now = some (r, false) := by
  have hguarded : m.guarded q now = none :=
    List.find?_eq_none.mpr fun y hy => mt MemState.promoted_iff.mp (hnone y hy)
  have hover : m.overCap q = false := decide_eq_false (Nat.not_lt.mpr hcap)
  have hfirst : q.queue.find? (fun r => r.cls = 0) = some r :=
    List.find?_eq_some_iff_append.mpr ⟨by simpa using hr, pre, post, hq, fun y hy => by simpa using hpre y hy⟩
  simp only [MemState.nextReq, hguarded, hover, Bool.false_eq_true, if_false, hfirst]

end

theorem MemState.nextReq_of_guarded {m : MemState} {q : MemCtl} {now : Nat} {r : MemReq} (h : m.guarded q now = some r) :
    m.nextReq q now = some (r, false) := by
  simp only [MemState.nextReq, h]

theorem Chip.starvationGuard_serves {c : Chip} {v : Env} {u : Nat} {r : MemReq}
    (h : c.mem.guarded (tblGet {} c.mem.ctls u) v.now = some r) : c.starvationGuard v u = c.serve v u r false .clean := by
  simp only [Chip.starvationGuard, h]

theorem Chip.memService_serves {c : Chip} {v : Env} {u : Nat} {r : MemReq} {robin : Bool} (ecc : EccResult)
    (h : c.mem.nextReq (tblGet {} c.mem.ctls u) v.now = some (r, robin)) : c.memService v u ecc = c.serve v u r robin ecc := by
  simp only [Chip.memService, h]

/-! ### Patrol scrub (R323, R325) -/

theorem mem_insertBy {α : Type} {le : α → α → Bool} {x y : α} {l : List α} : y ∈ insertBy le x l ↔ y = x ∨ y ∈ l := by
  induction l with
  | nil => simp [insertBy]
  | cons z l ih =>
    unfold insertBy
    split
    · rw [List.mem_cons, ih, List.mem_cons]
      exact or_left_comm
    · exact List.mem_cons

theorem MemState.mem_poisonLine (m : MemState) (line l : Nat) : l ∈ (m.poisonLine line).poison ↔ l = line ∨ l ∈ m.poison := by
  unfold MemState.poisonLine
  split
  next h =>
    have hmem : line ∈ m.poison := List.contains_iff_mem.mp h
    exact (or_iff_right_of_imp fun e => e ▸ hmem).symm
  next => exact mem_insertBy

theorem MemState.poisonLine_bytes (m : MemState) (line : Nat) : (m.poisonLine line).bytes = m.bytes := by
  unfold MemState.poisonLine
  split <;> rfl

theorem MemState.poisonLine_errs (m : MemState) (line : Nat) : (m.poisonLine line).errs = m.errs := by
  unfold MemState.poisonLine
  split <;> rfl

/-- A line of tier 1 is of the stack that its pages take in turn (R316). -/
theorem memUnit_tier1 {line : Nat} (h : 64 * line < tier1End) : memUnit (64 * line) = line / 64 % 16 := by
  rw [memUnit, if_pos (Nat.lt_trans h (by decide)), bits, Nat.shiftRight_eq_div_pow]
  omega

section
variable {c : Chip} {v : Env} {line : Nat} (htier : 64 * line < tier1End)
include htier

theorem Chip.patrolScrub_clean (newer : Bool) : c.patrolScrub v line .clean newer = c := if_neg (Nat.not_le.mpr htier)

theorem Chip.patrolScrub_newer : c.patrolScrub v line .uncorrectable true = c := if_neg (Nat.not_le.mpr htier)

theorem Chip.patrolScrub_corrected (newer : Bool) : c.patrolScrub v line .corrected newer =
    ({ c with mem := c.mem.modErr (line / 64 % 16) (fun (e : MemErr) => { e with corrected := satInc e.corrected 1 }) } : Chip).stamp
      v 41 0 :=
  memUnit_tier1 htier ▸ if_neg (Nat.not_le.mpr htier)

theorem Chip.patrolScrub_uncorrectable (h : line ∉ c.mem.poison) : c.patrolScrub v line .uncorrectable false =
    { c with mem := (c.mem.poisonLine line).modErr (line / 64 % 16) (fun (e : MemErr) =>
        { e with uncorrectable := satInc e.uncorrectable 1 }) } := by
  rw [Chip.patrolScrub, if_neg (Nat.not_le.mpr htier), memUnit_tier1 htier]
  exact if_neg (by simpa [MemState.poisoned] using h)

end

end Sys2Proof

namespace Sys2Proof.Claims

open Sys2Proof.Machine

theorem controllers : Controllers := by
  intro s u pre post r a q waited k served hq hpre hpost hwaits hkind halign hline hwb hclean
  have hserved {i : Instr} (hx : exec i s = .next (chipNow s (s.chip.serve s.env u.toNat r false .clean))) : served i := by
    rw [Chip.serve_clean false hwaits.1 hwaits.2 hkind hline] at hx
    refine ⟨_, hx, Chip.core_fixLoad hwaits.1 hwaits.2 hkind halign hwb (hline ▸ hclean), Chip.fixLoad_bytes .., fun hr => ?_⟩
    have hr := Chip.mem_queue_of_fixLoad hr
    rw [tblGet_tblSet_same, Chip.servedCtl_queue, hq, List.erase_append_right _ hpre, List.erase_cons_head] at hr
    exact (List.mem_append.mp hr).elim hpre hpost
  refine ⟨fun hold hr => ?_, fun hnone hfirst hr hcap => ?_⟩
  · have hguarded : s.chip.mem.guarded q s.now = some r := MemState.guarded_of_promoted hq hold hr
    exact ⟨hserved (exec_onChip rfl (Chip.starvationGuard_serves hguarded)),
      hserved (exec_onChip rfl (Chip.memService_serves .clean (MemState.nextReq_of_guarded hguarded)))⟩
  · exact hserved (exec_onChip rfl (Chip.memService_serves .clean (MemState.nextReq_of_class0 hq hnone hfirst hr hcap)))

theorem patrolScrub : PatrolScrub := by
  intro s line htier u e
  refine ⟨exec_onChip rfl (Chip.patrolScrub_clean htier true), exec_onChip rfl (Chip.patrolScrub_newer htier),
    ⟨_, exec_onChip rfl (Chip.patrolScrub_corrected htier false), rfl, rfl, tblGet_tblSet_same ..⟩, fun hfresh => ?_⟩
  refine ⟨_, exec_onChip rfl (Chip.patrolScrub_uncorrectable htier hfresh), MemState.poisonLine_bytes _ _,
    MemState.mem_poisonLine _ _, ?_⟩
  refine (tblGet_tblSet_same ..).trans ?_
  rw [MemState.poisonLine_errs]

/-- Settles O27: the two events that serve a request of a controller, then the results of a scrub. -/
theorem memoryControllers : Obligations.MemoryControllers := ⟨controllers, patrolScrub⟩

end Sys2Proof.Claims
end

section
/-! PROOFS. Spares, management processors and the repair commands (R326, R327, R528 to R543): what an event adds to the repair table, how
an entry comes into force, how the managers are replaced, what each `repair.` command answers, and the statement O37. -/
namespace Sys2Proof

/-! ### Entries of the repair table (Table 22.7) -/

/-- The entry that firmware writes at an instant. -/
def Env.repairEntry (v : Env) (kind state replacement location : Nat) : RepairEntry :=
  ⟨BitVec.ofNat 8 kind, BitVec.ofNat 8 state, BitVec.ofNat 16 replacement, BitVec.ofNat 32 location, BitVec.ofNat 64 v.ns⟩

/-- A chip with another repair table. -/
def Chip.withRepairs (c : Chip) (es : List RepairEntry) : Chip := { c with sys := { c.sys with repairs := es } }

@[simp] theorem Chip.repairs_withRepairs (c : Chip) (es : List RepairEntry) : (c.withRepairs es).sys.repairs = es := rfl

/-- `c'` follows `c` with entries at the end of its repair table; the bytes of memory and the cores are as they were. -/
structure Chip.Adds (c c' : Chip) (es : List RepairEntry) : Prop where
  sys : c'.sys = { c.sys with repairs := c.sys.repairs ++ es }
  bytes : c'.mem.bytes = c.mem.bytes
  cores : c'.cores = c.cores

/-- What an entry changes besides the table: the eyespot stamps one that is applied. -/
theorem Chip.addRepair_eq (c : Chip) (v : Env) (kind state replacement location : Nat) (h : c.sys.repairs.length < 16384) :
    ∃ eye, c.addRepair v kind state replacement location =
      { c.withRepairs (c.sys.repairs ++ [v.repairEntry kind state replacement location]) with eye := eye } := by
  unfold Chip.addRepair
  dsimp only
  rw [if_pos h]
  split
  · exact ⟨_, rfl⟩
  · exact ⟨_, rfl⟩

/-- An entry that is staged, or for which no spare is left, has no stamp. -/
theorem Chip.addRepair_unapplied (c : Chip) (v : Env) {kind state replacement location : Nat} (hstate : state ≠ 1)
    (h : c.sys.repairs.length < 16384) : c.addRepair v kind state replacement location =
      c.withRepairs (c.sys.repairs ++ [v.repairEntry kind state replacement location]) := by
  unfold Chip.addRepair
  dsimp only
  rw [if_pos h, if_neg (by simpa using hstate)]
  rfl

theorem Chip.addRepair_adds (c : Chip) (v : Env) (kind state replacement location : Nat) (h : c.sys.repairs.length < 16384) :
    c.Adds (c.addRepair v kind state replacement location) [v.repairEntry kind state replacement location] := by
  obtain ⟨eye, h⟩ := c.addRepair_eq v kind state replacement location h
  rw [h]
  exact ⟨rfl, rfl, rfl⟩

theorem Chip.Adds.after {c0 c c' : Chip} {es : List RepairEntry} (h : c.Adds c' es) (hsys : c.sys = c0.sys)
    (hbytes : c.mem.bytes = c0.mem.bytes) (hcores : c.cores = c0.cores) : c0.Adds c' es :=
  ⟨hsys ▸ h.sys, h.bytes.trans hbytes, h.cores.trans hcores⟩

theorem Chip.listed_eq_false {c : Chip} {kind location : Nat}
    (h : ∀ e ∈ c.sys.repairs, e.kind.toNat = kind → e.location.toNat = location → e.state = 1) : c.listed kind location = false := by
  refine List.any_eq_false.mpr fun e he => ?_
  simpa using h e he

/-! ### Rows and pseudo-channels (R326, R327) -/

/-- A row's place is its stack, pseudo-channel, bank and row. -/
theorem row_location (stack : BitVec 4) (pc bank : BitVec 6) (row : BitVec 16) :
    BitVec.ofNat 32 (stack.toNat * 2 ^ 28 + pc.toNat * 2 ^ 22 + bank.toNat * 2 ^ 16 + row.toNat) = stack ++ pc ++ bank ++ row := by
  refine BitVec.eq_of_toNat_eq ?_
  rw [BitVec.toNat_append, BitVec.toNat_append, BitVec.toNat_append, BitVec.toNat_ofNat]
  rw [← Nat.shiftLeft_add_eq_or_of_lt (by omega), ← Nat.shiftLeft_add_eq_or_of_lt (by omega), ← Nat.shiftLeft_add_eq_or_of_lt (by omega)]
  simp only [Nat.shiftLeft_eq]
  omega

section
variable {c : Chip} {v : Env}

theorem Chip.enforce_row {e : RepairEntry} (hkind : e.kind = 3) : c.enforce v e = { c with mem := { c.mem with
    rowRepairs := tblMod 0 c.mem.rowRepairs (e.location.toNat / 2 ^ 22) (· + 1) } } := by
  simp only [Chip.enforce, hkind]
  rfl

/-- A row for which no entry is staged moves at once. -/
theorem Chip.rowRepair_adds {stack pc bank row : Nat} (h : ∀ e ∈ c.sys.repairs, e.state ≠ 0) (hroom : c.sys.repairs.length < 16384) :
    c.Adds (c.rowRepair v stack pc bank row)
      [v.repairEntry 3 1 0 (stack * 2 ^ 28 + pc * 2 ^ 22 + bank * 2 ^ 16 + row)] := by
  have hnone : c.sys.repairs.findIdx? (fun e => e.kind == 3 &&
      e.location.toNat == stack * 2 ^ 28 + pc * 2 ^ 22 + bank * 2 ^ 16 + row && e.state == 0) = none :=
    List.findIdx?_eq_none_iff.mpr fun e he => by simpa using fun _ _ => h e he
  simp only [Chip.rowRepair, hnone]
  rw [Chip.enforce_row rfl]
  refine (Chip.addRepair_adds _ v 3 1 0 _ ?_).after rfl rfl rfl
  exact hroom

theorem Chip.spare_copyEnd {stack : Nat} {p : SparePc} (h : tblFind c.mem.spares stack = some p) :
    tblFind (c.copyEnd stack).mem.spares stack = some { p with copied := true } := by
  rw [Chip.copyEnd, tblFind_tblMap, h]
  simp

/-! ### Staged entries of cores (R531, R532) -/

/-- A chip without jobs is at a boundary of every job. -/
theorem Chip.stagedApply_idle {i : Nat} {e : RepairEntry} (he : c.sys.repairs[i]? = some e) (hstate : e.state = 0) (hkind : e.kind = 1)
    (hjobs : c.jobs = []) : c.stagedApply v i = c.applyEntry v i e := by
  simp only [Chip.stagedApply, he]
  exact if_pos (by simp [hstate, hkind, Chip.repairReady, Chip.usersOf, hjobs])

/-- An entry of a core moves it to the spare. -/
theorem Chip.enforce_core {e : RepairEntry} (hkind : e.kind = 1) :
    c.enforce v e = c.modCluster (BitVec.ofNat 14 (bits e.location.toNat 6 14)) (fun (x : Cluster) =>
      { x with failedPos := x.failedPos ++ [x.position (e.location.toNat % 64)], working := x.working - 1
               positions := tblSet x.positions (e.location.toNat % 64) (BitVec.ofNat 7 e.replacement.toNat) }) := by
  simp only [Chip.enforce, hkind]
  rfl

theorem clusterOf_eq (id : CoreId) : clusterOf id = BitVec.ofNat 14 (bits id.toNat 6 14) := by
  refine BitVec.eq_of_toNat_eq ?_
  simp [clusterOf, bits]

theorem Chip.cluster_stamp (c : Chip) (v : Env) (src data : Nat) (cl : ClusterId) : (c.stamp v src data).cluster cl = c.cluster cl := rfl

/-- The core of an entry that comes into force stands at the spare from then on. -/
theorem Chip.applyEntry_core {i : Nat} {e : RepairEntry} {id : CoreId} (hkind : e.kind = 1) (hloc : e.location = id.setWidth 32) :
    (c.applyEntry v i e).sys = { c.sys with repairs := c.sys.repairs.set i { e with state := 1 } } ∧
    ((c.applyEntry v i e).cluster (clusterOf id)).position (id.toNat % 64) = e.replacement.setWidth 7 ∧
    ((c.applyEntry v i e).cluster (clusterOf id)).working = (c.cluster (clusterOf id)).working - 1 := by
  have hid : e.location.toNat = id.toNat := by
    rw [hloc, BitVec.toNat_setWidth]
    exact Nat.mod_eq_of_lt (Nat.lt_trans id.isLt (by decide))
  have happly := Chip.enforce_core (c := { c with sys := { c.sys with repairs := setNth c.sys.repairs i { e with state := 1 } } }) (v := v) hkind
  rw [hid, ← clusterOf_eq] at happly
  rw [Chip.applyEntry, happly]
  refine ⟨rfl, ?_, ?_⟩
  · rw [Chip.cluster_stamp, Chip.modCluster, Chip.cluster_setCluster, Cluster.position, tblGet_tblSet_same, BitVec.ofNat_toNat]
  · rw [Chip.cluster_stamp, Chip.modCluster, Chip.cluster_setCluster]
    rfl

end

/-! ### Spares of two (R531, R539) -/

section
variable {c : Chip} {v : Env}

theorem Chip.phaseFail_adds {rail phase : Nat} (h : ∀ e ∈ c.sys.repairs, e.kind ≠ 7) (hroom : c.sys.repairs.length < 16384) :
    c.Adds (c.phaseFail v rail phase) [v.repairEntry 7 1 0 (rail + 256 * phase)] := by
  have hkind (e : RepairEntry) (he : e ∈ c.sys.repairs) : e.kind.toNat ≠ 7 := fun hk => h e he (BitVec.eq_of_toNat_eq hk)
  have hlisted : c.listed 7 (rail + 256 * phase) = false := Chip.listed_eq_false fun e he hk => absurd hk (hkind e he)
  have hused (same : RepairEntry → Bool) : c.usedSpares 7 same = 0 :=
    List.countP_eq_zero.mpr fun e he => by simp [hkind e he]
  simp only [Chip.phaseFail, Chip.stageOfTwo, hlisted, hused]
  exact Chip.addRepair_adds c v 7 1 0 _ hroom

theorem Chip.repairTrigger_row_adds {location : Nat} (hruns : c.pairRuns = true) (hroom : c.sys.repairs.length < 16384)
    (h : c.listed 3 location = false) : c.Adds (c.repairTrigger v 3 location) [v.repairEntry 3 0 0 location] := by
  have hgo : (!c.pairRuns || decide (16384 ≤ c.sys.repairs.length)) = false := by simpa [hruns] using hroom
  simp only [Chip.repairTrigger, hgo, h]
  exact Chip.addRepair_adds c v 3 0 0 _ hroom

/-! ### Ageing (R539) -/

/-- A core that no repair has moved stands at its own number (R23). -/
theorem Cluster.position_unmoved {x : Cluster} (h : x.positions = []) (k : Nat) : x.position k = BitVec.ofNat 7 k := by
  rw [Cluster.position, h, tblGet_nil]

theorem Cluster.carries_unmoved {x : Cluster} (h : x.positions = []) {p : BitVec 7} (hp : 64 ≤ p.toNat) : x.carries p = false := by
  refine List.any_eq_false.mpr fun k hk => ?_
  have hk := List.mem_range.mp hk
  rw [Cluster.position_unmoved h, beq_iff_eq]
  rintro rfl
  rw [BitVec.toNat_ofNat] at hp
  omega

/-- The pair of positions `p` carries the logical cores `2p` and `2p + 1`. -/
theorem Cluster.worn_unmoved {x : Cluster} (h : x.positions = []) {p : Nat} (hp : p < 32) :
    (List.range 64).filter (fun k => (x.position k).toNat / 2 == p) = [2 * p, 2 * p + 1] := by
  simp only [Cluster.position_unmoved h]
  have hall : ∀ p < 32, (List.range 64).filter (fun k => (BitVec.ofNat 7 k).toNat / 2 == p) = [2 * p, 2 * p + 1] := by decide
  exact hall p hp

theorem bits_coreAt (cl : ClusterId) {n : Nat} (h : n < 64) : bits (coreAt cl n).toNat 6 14 = cl.toNat := by
  have := cl.isLt
  rw [coreAt_toNat cl h, bits, Nat.shiftRight_eq_div_pow]
  omega

theorem clusterOf_coreAt (cl : ClusterId) {n : Nat} (h : n < 64) : clusterOf (coreAt cl n) = cl := by
  rw [clusterOf_eq, bits_coreAt cl h, BitVec.ofNat_toNat, BitVec.setWidth_eq]

/-- The two spares of a cluster in its original order, but for those promised to a staged entry. -/
theorem Chip.coreSpares_unmoved {cl : ClusterId} (hpos : (c.cluster cl).positions = []) (hfailed : (c.cluster cl).failedPos = []) :
    c.coreSpares cl = [64, 65].filter (fun p => !c.sys.repairs.any (fun e =>
      e.kind == 1 && e.state == 0 && bits e.location.toNat 6 14 == cl.toNat && e.replacement.toNat == p.toNat)) := by
  have h64 : (c.cluster cl).carries 64#7 = false := Cluster.carries_unmoved hpos (by decide)
  have h65 : (c.cluster cl).carries 65#7 = false := Cluster.carries_unmoved hpos (by decide)
  simp [Chip.coreSpares, hfailed, h64, h65, List.filter_cons]

theorem Chip.stageCore_spare {id : CoreId} {p : BitVec 7} {ps : List (BitVec 7)} (hlisted : c.listed 1 id.toNat = false)
    (hspares : c.coreSpares (clusterOf id) = p :: ps) (hroom : c.sys.repairs.length < 16384) :
    c.stageCore v id = c.withRepairs (c.sys.repairs ++ [v.repairEntry 1 0 p.toNat id.toNat]) := by
  simp only [Chip.stageCore, hlisted, hspares]
  exact Chip.addRepair_unapplied c v Nat.zero_ne_one hroom

/-- The first core of a pair takes position 64; the entry that promises it leaves 65 to the second. -/
theorem Chip.stagePair {cl : ClusterId} {p : Nat} (hp : p < 32) (hrepairs : c.sys.repairs = []) (hpos : (c.cluster cl).positions = [])
    (hfailed : (c.cluster cl).failedPos = []) : [2 * p, 2 * p + 1].foldl (fun (c : Chip) k => c.stageCore v (coreAt cl k)) c =
      c.withRepairs [v.repairEntry 1 0 64 (coreAt cl (2 * p)).toNat, v.repairEntry 1 0 65 (coreAt cl (2 * p + 1)).toNat] := by
  let e := v.repairEntry 1 0 64 (coreAt cl (2 * p)).toNat
  have hloc : e.location.toNat = (coreAt cl (2 * p)).toNat :=
    (BitVec.toNat_ofNat ..).trans (Nat.mod_eq_of_lt (Nat.lt_trans (coreAt cl (2 * p)).isLt (by decide)))
  have hfirst : c.stageCore v (coreAt cl (2 * p)) = c.withRepairs [e] := by
    rw [Chip.stageCore_spare (p := 64) (ps := [65]) (by simp [Chip.listed, hrepairs])
      (by rw [clusterOf_coreAt cl (by omega), Chip.coreSpares_unmoved hpos hfailed, hrepairs]; rfl) (by simp [hrepairs]), hrepairs]
    rfl
  have hlisted : (c.withRepairs [e]).listed 1 (coreAt cl (2 * p + 1)).toNat = false := by
    refine Chip.listed_eq_false fun e' he _ hlocation => ?_
    rw [List.mem_singleton.mp he, hloc, coreAt_toNat cl (by omega), coreAt_toNat cl (by omega)] at hlocation
    omega
  have hspares : (c.withRepairs [e]).coreSpares (clusterOf (coreAt cl (2 * p + 1))) = [65] := by
    rw [clusterOf_coreAt cl (by omega), Chip.coreSpares_unmoved (c := c.withRepairs [e]) hpos hfailed]
    simp only [Chip.repairs_withRepairs, List.any_cons, List.any_nil, hloc, bits_coreAt cl (show 2 * p < 64 by omega)]
    simp [e, Env.repairEntry]
  rw [List.foldl_cons, hfirst, List.foldl_cons, List.foldl_nil, Chip.stageCore_spare hlisted hspares (by simp)]
  rfl

section
variable {cl : ClusterId} {margin : Byte} {pair : BitVec 6} (hpair : pair.toNat ≤ 32) (hquiet : c.sys.failQuiet = false)
include hpair hquiet

theorem Chip.ageingScan_healthy (h : 25 ≤ margin.toNat) : c.ageingScan v cl margin pair =
    c.setCluster cl { c.cluster cl with margin := margin, worst := pair } := by
  unfold Chip.ageingScan
  rw [if_neg (by simpa [hquiet] using hpair)]
  exact if_pos h

theorem Chip.ageingScan_worn (h : margin.toNat < 25) (hspare : pair.toNat < 32) (hrepairs : c.sys.repairs = [])
    (hpos : (c.cluster cl).positions = []) (hfailed : (c.cluster cl).failedPos = []) :
    c.Adds (c.ageingScan v cl margin pair) [v.repairEntry 1 0 64 (coreAt cl (2 * pair.toNat)).toNat,
      v.repairEntry 1 0 65 (coreAt cl (2 * pair.toNat + 1)).toNat] := by
  have hcl : (c.modCluster cl fun x => { x with margin := margin, worst := pair }).cluster cl =
      { c.cluster cl with margin := margin, worst := pair } := Chip.cluster_setCluster ..
  unfold Chip.ageingScan
  rw [if_neg (by simpa [hquiet] using hpair)]
  dsimp only
  rw [if_neg (Nat.not_le.mpr h), Cluster.worn_unmoved (by rw [hcl, hpos]) hspare,
    Chip.stagePair (c := c.modCluster cl _) hspare hrepairs (by rw [hcl, hpos]) (by rw [hcl, hfailed])]
  exact ⟨by rw [hrepairs]; rfl, rfl, rfl⟩

end

end

/-! ### Managers (R540 to R543) -/

section
variable {c : Chip} {v : Env}

section
variable (hend : c.sys.ended.getLsbD 1 = true) (hlost : c.sys.mpLost = false) (hquiet : c.sys.failQuiet = false)
include hend hlost hquiet

/-- A pair serves that can fail (R540). -/
theorem Chip.pairFailure_acts : (!c.sys.ended.getLsbD 1 || c.sys.mpLost || c.sys.failQuiet) = false := by
  rw [hend, hlost, hquiet]
  rfl

theorem Chip.pairFailure_spare (h : c.sys.spareOk = true) : c.pairFailure v = { c with sys := { c.sys with
    spareOk := false, mp := !c.sys.mp, switches := satInc c.sys.switches 1, pairStarting := some v.now } } := by
  unfold Chip.pairFailure
  dsimp only
  rw [Chip.pairFailure_acts hend hlost hquiet, if_neg Bool.false_ne_true, if_pos h, Sys.switchPair, if_pos h]

theorem Chip.pairFailure_last (h : c.sys.spareOk = false) (hqueue : c.cmd.queue = []) :
    c.pairFailure v = { c with sys := { c.sys with mpLost := true, pairStarting := none } } := by
  unfold Chip.pairFailure
  dsimp only
  rw [Chip.pairFailure_acts hend hlost hquiet, if_neg Bool.false_ne_true, if_neg (Bool.eq_false_iff.mp h), Chip.dropManaged]
  simp only [hqueue, List.filter_nil, List.foldl_nil]

end

variable (hquiet : c.sys.failQuiet = false)
include hquiet

theorem Chip.spareReady_due {t0 : Nat} (hstart : c.sys.pairStarting = some t0) (hdue : t0 + 3200000000 ≤ v.now)
    (hfirst : ∀ e ∈ c.sys.repairs, e.kind ≠ 8) : c.spareReady v =
      ({ c with sys := { c.sys with pairStarting := none } } : Chip).addRepair v 8 1 1 0 := by
  have hnone : c.sys.repairs.any (fun e => e.kind == 8 && e.state == 1) = false :=
    List.any_eq_false.mpr fun e he => by simpa using fun h => absurd h (hfirst e he)
  simp only [Chip.spareReady, hstart, hdue, hquiet, hnone]
  rfl

theorem Chip.takeover_standby (h : c.sys.standbyOk = true) (hroom : c.sys.repairs.length < 16384) :
    (c.takeover v).sys = { c.sys with
      standbyOk := false, cocoon := !c.sys.cocoon, switches := satInc c.sys.switches 1,
      pairStarting := c.sys.pairStarting.map (fun _ => v.now), repairs := c.sys.repairs ++ [v.repairEntry 9 1 1 0] } := by
  have htakeover : c.takeover v = ({ c with sys := { c.sys with
      standbyOk := false, cocoon := !c.sys.cocoon, switches := satInc c.sys.switches 1,
      pairStarting := c.sys.pairStarting.map (fun _ => v.now) } } : Chip).addRepair v 9 1 1 0 := by
    simp [Chip.takeover, Sys.switchCocoon, hquiet, h]
  rw [htakeover]
  refine (Chip.addRepair_adds _ v 9 1 1 0 ?_).sys
  exact hroom

theorem Chip.takeover_alone (h : c.sys.standbyOk = false) :
    c.takeover v = { c with sys := { c.sys with failQuiet := true }, fab := c.fab.idle } := by
  simp [Chip.takeover, hquiet, h]

end

/-- A port of an idle fabric is down, or has never left its reset values. -/
theorem Fabric.port_idle (f : Fabric) (n : Nat) : (tblGet {} f.idle.ports n).link = 0 ∨ tblGet {} f.idle.ports n = ({} : Port) := by
  rw [tblGet, Fabric.idle, tblFind_tblMap]
  cases tblFind f.ports n with
  | none => exact .inr rfl
  | some x => exact .inl rfl

theorem Machine.State.takeover_serving {s : Machine.State} (h : (s.chip.takeover s.env).sys.failQuiet = false) :
    s.takeover = { s with chip := s.chip.takeover s.env } := if_neg (Bool.eq_false_iff.mp h)

theorem Machine.State.takeover_quiet {s : Machine.State} (h : (s.chip.takeover s.env).sys.failQuiet = true) :
    s.takeover = { s with chip := s.chip.takeover s.env, time := { s.time with ppsOut := false } } := if_pos h

/-! ### Repair commands (R530, R531, R538) -/

/-- A command that never waits is answered whatever waits (R493). -/
theorem Chip.commandNow_answers_at_once {c c1 c2 : Chip} {v : Env} {p : PktRef} {op : Nat} {sub : Pkt → Bool} {k : Pkt} {r : Reply}
    {body : Chip → Pkt → Chip × Reply} (ht : c.takePkt p op sub = some (k, c1)) (hop : opWaits op = false) (hb : body c1 k = (c2, r)) :
    c.commandNow v p op sub body = c2.reply v k r := by
  simp [Chip.commandNow, Chip.command, ht, hop, hb]

section
variable {c : Chip} {v : Env} {k : Pkt} {e : RepairEntry}

theorem Chip.replacementFree_unknown (h : e.kind = 0 ∨ 10 ≤ e.kind.toNat) : c.replacementFree e = false := by
  have hkind : e.kind.toNat = 0 ∨ 10 ≤ e.kind.toNat := h.imp_left (congrArg BitVec.toNat)
  unfold Chip.replacementFree
  dsimp only
  split
  case h_10 => rfl
  all_goals omega

theorem Chip.replacementFree_row (h : e.kind = 3) : c.replacementFree e = (e.replacement.toNat == 0) := by
  simp only [Chip.replacementFree, h]
  rfl

variable (he : RepairEntry.ofBytes (slice k.bytes 32 16) = e)
include he

theorem Chip.repairApply_taken (h : c.replacementFree { e with state := 0 } = false) : c.repairApply v k = (c, refuse stBadParam) := by
  subst he
  simp only [Chip.repairApply, h]
  rfl

/-- An entry of a row is staged: the row has not failed. -/
theorem Chip.repairApply_row {y : Sys} (hsys : c.sys = y) (hkind : e.kind = 3) (hrep : e.replacement = 0)
    (hroom : y.repairs.length < 16384) :
    c.repairApply v k = ({ c with sys := { c.sys with repairs := y.repairs ++ [{ e with state := 0 }] } }, ok) := by
  subst he hsys
  have hfree := Chip.replacementFree_row (c := c) (e := { RepairEntry.ofBytes (slice k.bytes 32 16) with state := 0 }) hkind
  rw [hrep] at hfree
  unfold Chip.repairApply
  dsimp only
  rw [hfree, if_neg (by simp), if_neg (Nat.not_le.mpr hroom)]
  simp [Chip.partFailed, hkind]

end

section
variable {c : Chip} {k : Pkt} {y : Sys} (hsys : c.sys = y)
include hsys

theorem Chip.repairQuery_eq : c.repairQuery k = (c, {
    status := stOk
    body := leBytes 4 y.repairs.length ++ leBytes 4 (y.repairs.countP (fun e => e.state == 0))
    data := ((y.repairs.drop (k.n 32 4)).take (k.n 36 4)).flatMap RepairEntry.bytes }) := by
  subst hsys
  rfl

section
variable {slot : Nat} (hslot : k.n 33 1 = slot)
include hslot

theorem Chip.fuseRevoke_refused (h : y.rootSlot.toNat = slot ∨ y.fuses.revoke.getLsbD slot = true) :
    c.fuseRevoke k = (c, refuse stBadParam) := by
  subst hslot hsys
  refine if_pos ?_
  rcases h with h | h
  · simp [h]
  · simp [h]

/-- The slot that verified the firmware is not revoked, so that another slot is not the last. -/
theorem Chip.fuseRevoke_revokes (hlt : slot < 4) (hroot : y.rootSlot.toNat ≠ slot) (hslotFree : y.fuses.revoke.getLsbD slot = false)
    (hrootFree : y.fuses.revoke.getLsbD y.rootSlot.toNat = false) : c.fuseRevoke k =
      ({ c with sys := { c.sys with fuses := { y.fuses with revoke := y.fuses.revoke ||| (1#4 <<< slot) } } }, ok) := by
  subst hslot hsys
  have hother : (List.range 4).all (fun i => i == k.n 33 1 || c.sys.fuses.revoke.getLsbD i) = false :=
    List.all_eq_false.mpr ⟨c.sys.rootSlot.toNat, List.mem_range.mpr c.sys.rootSlot.isLt, by simp [hroot, hrootFree]⟩
  refine if_neg ?_
  simp only [hother, hslotFree, Bool.or_false, Bool.or_eq_true, decide_eq_true_eq, beq_iff_eq, not_or]
  exact ⟨by omega, hroot⟩

end

theorem Chip.fuseRollback_refused (h : k.n 33 1 ≤ y.fuses.rollback.toNat ∨ 64 < k.n 33 1) :
    c.fuseRollback k = (c, refuse stBadParam) := by
  subst hsys
  exact if_pos (by simpa using h)

theorem Chip.fuseRollback_rises (hmore : y.fuses.rollback.toNat < k.n 33 1) (hmost : k.n 33 1 ≤ 64) : c.fuseRollback k =
    ({ c with sys := { c.sys with fuses := { y.fuses with rollback := BitVec.ofNat 7 (k.n 33 1) } } }, ok) := by
  subst hsys
  exact if_neg (by simpa using ⟨hmore, hmost⟩)

end

end Sys2Proof

namespace Sys2Proof.Claims

open Sys2Proof.Machine

/-! ### The units in the words of the statement -/

theorem spares : Spares := by
  intro s sys now entry adds hroom
  have hroom' : sys.repairs.length < 16384 := by omega
  have hadds {i : Instr} {c : Chip} {es : List RepairEntry} (hx : exec i s = .next (chipNow s c)) (h : s.chip.Adds c es) : adds i es :=
    ⟨_, hx, h.sys, h.bytes, h.cores⟩
  refine ⟨fun stack pc bank row h => ?_, fun stack p h => ⟨_, rfl, Chip.spare_copyEnd h, rfl⟩, fun i e id he hstate hkind hloc hjobs => ?_,
    fun rail phase h => ?_, fun cl margin pair hpair hquiet => ⟨fun h => ?_, fun h hspare hrepairs hpos hfailed => ?_⟩,
    fun location hruns h => ?_⟩
  · have h := Chip.rowRepair_adds (v := s.env) (stack := stack.toNat) (pc := pc.toNat) (bank := bank.toNat) (row := row.toNat) h hroom'
    rw [Env.repairEntry, row_location] at h
    exact hadds rfl h
  · exact ⟨_, exec_onChip rfl (Chip.stagedApply_idle he hstate hkind hjobs), Chip.applyEntry_core hkind hloc⟩
  · exact hadds rfl (Chip.phaseFail_adds h hroom')
  · exact ⟨_, exec_onChip rfl (Chip.ageingScan_healthy hpair hquiet h), rfl, Chip.cluster_setCluster ..⟩
  · have h := Chip.ageingScan_worn (v := s.env) hpair hquiet h hspare hrepairs hpos hfailed
    simp only [Env.repairEntry, BitVec.ofNat_toNat] at h
    exact hadds rfl h
  · have hlisted : s.chip.listed 3 location.toNat = false :=
      Chip.listed_eq_false fun e he hk hl => h e he (BitVec.eq_of_toNat_eq hk) (BitVec.eq_of_toNat_eq hl)
    have h := Chip.repairTrigger_row_adds (v := s.env) hruns hroom' hlisted
    rw [Env.repairEntry, BitVec.ofNat_toNat, BitVec.setWidth_eq] at h
    exact hadds rfl h

theorem managers : Managers := by
  intro s lockstep sys hquiet
  refine ⟨fun hend hlost => ⟨fun h => ?_, fun h hqueue => ?_⟩, fun t0 hstart hdue hroom hfirst => ?_, fun h hroom => ?_, fun h => ?_⟩
  · exact exec_onChip rfl (Chip.pairFailure_spare hend hlost hquiet h)
  · exact exec_onChip rfl (Chip.pairFailure_last hend hlost hquiet h hqueue)
  · obtain ⟨eye, h⟩ := Chip.addRepair_eq { s.chip with sys := { sys with pairStarting := none } } s.env 8 1 1 0 hroom
    exact ⟨_, exec_onChip rfl ((Chip.spareReady_due hquiet hstart hdue hfirst).trans h), rfl, rfl⟩
  · have hsys := Chip.takeover_standby (v := s.env) hquiet h hroom
    have hserving : (s.chip.takeover s.env).sys.failQuiet = false := (congrArg Sys.failQuiet hsys).trans hquiet
    exact ⟨_, congrArg Host.Outcome.next (State.takeover_serving hserving), congrArg Sys.cocoon hsys, congrArg Sys.standbyOk hsys,
      congrArg Sys.switches hsys, hserving, rfl⟩
  · have htakeover := Chip.takeover_alone (v := s.env) hquiet h
    refine ⟨_, congrArg Host.Outcome.next (State.takeover_quiet (by rw [htakeover])), by rw [htakeover], rfl, fun p => ?_⟩
    rw [htakeover]
    exact Fabric.port_idle _ _

section
variable {s : State} {p : PktRef} {op : Nat} {sub : Pkt → Bool} {k : Pkt} {c c2 : Chip} {i : Instr} {r : Reply}
  (ht : Taken s p op sub k c)
include ht

theorem sys_of_taken : c.sys = s.chip.sys := by
  obtain ⟨q, rfl⟩ := Chip.takePkt_queue ht
  rfl

theorem answers_at_once {body : Chip → Pkt → Chip × Reply} (hop : opWaits op = false) (hb : body c k = (c2, r))
    (hx : exec i s = .next (s.onChip (fun h => h.commandNow s.env p op sub body))) : Answers s i k c2 r :=
  exec_onChip hx (Chip.commandNow_answers_at_once ht hop hb)

end

theorem repairCommands : RepairCommands := by
  intro s p k c y f e fused
  refine ⟨fun ht => ?_, fun ht h => ?_, fun ht hkind hrep hroom => ?_, fun ht hkind hrep => ?_,
    fun slot ht hslot => ⟨fun h => ?_, fun hroot hslotFree hrootFree => ?_⟩, fun ht => ⟨fun h => ?_, fun hmore hmost => ?_⟩⟩
  · exact answers_at_once ht rfl (Chip.repairQuery_eq (sys_of_taken ht)) rfl
  · exact answers_at_once ht rfl (Chip.repairApply_taken rfl (Chip.replacementFree_unknown h)) rfl
  · exact answers_at_once ht rfl (Chip.repairApply_row rfl (sys_of_taken ht) hkind hrep hroom) rfl
  · have hused : (e.replacement.toNat == 0) = false := beq_eq_false_iff_ne.mpr fun h => hrep (BitVec.eq_of_toNat_eq h)
    exact answers_at_once ht rfl (Chip.repairApply_taken rfl ((Chip.replacementFree_row hkind).trans hused)) rfl
  · exact answers_at_once ht rfl (Chip.fuseRevoke_refused (sys_of_taken ht) hslot h) rfl
  · exact answers_at_once ht rfl (Chip.fuseRevoke_revokes (sys_of_taken ht) hslot slot.isLt hroot hslotFree hrootFree) rfl
  · exact answers_at_once ht rfl (Chip.fuseRollback_refused (sys_of_taken ht) h) rfl
  · exact answers_at_once ht rfl (Chip.fuseRollback_rises (sys_of_taken ht) hmore hmost) rfl

/-- Settles O37: the spares, the managers, then each `repair.` command. -/
theorem repairUnits : Obligations.RepairUnits := ⟨spares, managers, repairCommands⟩

end Sys2Proof.Claims
end

section
/-! PROOFS. Write buffers and fences (R359, R360, R363, R364): which entry of a buffer an event takes, what the write of an entry makes of
memory, what its cores do once it is performed, the steps of `FENCE` and `FENCE.SC`, and the statement O26. -/
namespace Sys2Proof

/-! ### One entry of a buffer -/

section
variable {α : Type} {p : α → Bool} {pre post : List α} {e : α} (hpre : ∀ y ∈ pre, p y = false) (he : p e = true)
include hpre he

theorem find?_eq_first : (pre ++ e :: post).find? p = some e :=
  List.find?_eq_some_iff_append.mpr ⟨he, pre, post, rfl, fun y hy => congrArg not (hpre y hy)⟩

theorem findIdx?_eq_first : (pre ++ e :: post).findIdx? p = some pre.length := by
  simp only [List.findIdx?_append, List.findIdx?_eq_none_iff.mpr hpre, List.findIdx?_cons, he, if_true, Option.map_some, Option.none_or,
    Nat.zero_add]

end

theorem modNth_append_cons {α : Type} (pre post : List α) (e : α) (f : α → α) :
    modNth (pre ++ e :: post) pre.length f = pre ++ f e :: post := by
  simp only [modNth, List.getElem?_append_right (Nat.le_refl _), List.set_append_right _ _ (Nat.le_refl _), Nat.sub_self,
    List.getElem?_cons_zero, List.set_cons_zero]

section
variable {c : Chip} {cl : ClusterId} {line : Nat} {pre post : List WbEntry} {e : WbEntry}
  (hwb : (c.cluster cl).wb = pre ++ e :: post) (hline : e.line = line)
include hwb hline

/-- The oldest entry of the line that has not been sent is sent (R360). -/
theorem Chip.wbSend_oldest (hnew : e.sent = false) (hpre : ∀ y ∈ pre, y.line = line → y.sent = true) :
    c.wbSend cl line = c.setCluster cl { c.cluster cl with wb := pre ++ { e with sent := true } :: post } := by
  have hidx : (c.cluster cl).wb.findIdx? (fun e => e.line == line && !e.sent) = some pre.length := by
    rw [hwb]
    exact findIdx?_eq_first (fun y hy => Bool.and_eq_false_imp.mpr fun h => congrArg not (hpre y hy (beq_iff_eq.mp h)))
      (Bool.and_eq_true_iff.mpr ⟨beq_iff_eq.mpr hline, congrArg not hnew⟩)
  simp only [Chip.wbSend, Chip.modCluster, hidx]
  rw [hwb, modNth_append_cons]

/-- The oldest sent entry of the line leaves the buffer, is performed, and may let cores of its cluster go on (R359). -/
theorem Chip.homeWrite_oldest (hsent : e.sent = true) (hpre : ∀ y ∈ pre, y.line = line → y.sent = false) :
    c.homeWrite cl line = ((c.setCluster cl { c.cluster cl with wb := pre ++ post }).performEntry e).wakeCluster cl := by
  have hfirst : ∀ y ∈ pre, (y.line == line && y.sent) = false := fun y hy =>
    Bool.and_eq_false_imp.mpr fun h => hpre y hy (beq_iff_eq.mp h)
  have hself : (e.line == line && e.sent) = true := Bool.and_eq_true_iff.mpr ⟨beq_iff_eq.mpr hline, hsent⟩
  simp only [Chip.homeWrite, hwb, find?_eq_first hfirst hself, findIdx?_eq_first hfirst hself, Option.getD_some,
    List.eraseIdx_append_of_length_le (Nat.le_refl _), Nat.sub_self, List.eraseIdx_cons_zero]

end

/-! ### What the write of an entry makes of memory (R359) -/

/-- Memory with each byte of a list written at its offset from an address. -/
def Memory.setAll (m : Memory) (a : Nat) (l : List (Nat × Byte)) : Memory := l.foldl (fun m p => m.set (a + p.1) p.2) m

theorem Memory.get_setAll_other {a y : Nat} {l : List (Nat × Byte)} (m : Memory) (h : ∀ p ∈ l, y ≠ a + p.1) :
    (m.setAll a l).get y = m.get y :=
  List.foldlRecOn (motive := fun m' : Memory => m'.get y = m.get y) _ _ rfl fun m' hm p hp => by
    rw [Memory.get_set, if_neg (h p hp), hm]

/-- Bytes at offsets without repetition all read back. -/
theorem Memory.get_setAll {a : Nat} {l : List (Nat × Byte)} (m : Memory) (hl : (l.map Prod.fst).Nodup) {p : Nat × Byte} (hp : p ∈ l) :
    (m.setAll a l).get (a + p.1) = p.2 := by
  induction l generalizing m with
  | nil => cases hp
  | cons q l ih =>
    obtain ⟨hq, hl⟩ := List.nodup_cons.mp hl
    rcases List.mem_cons.mp hp with rfl | hp
    · have hlast : ∀ r ∈ l, a + p.1 ≠ a + r.1 := fun r hr h => hq (Nat.add_left_cancel h ▸ List.mem_map_of_mem hr)
      exact (Memory.get_setAll_other (m.set (a + p.1) p.2) hlast).trans (by simp)
    · exact ih (m.set (a + q.1) q.2) hl hp

/-- Populated memory is tier 1, as much of tier 2 as is fitted, and as much of each port of tier 3 (Table 12.2). -/
theorem MemState.populated_iff {m : MemState} {a : Nat} : m.populated a = true ↔ a < tier1End ∨
    (tier2Base ≤ a ∧ a < tier3Base ∧ a - tier2Base < m.tier2Bytes) ∨
    (tier3Base ≤ a ∧ a < tier3End ∧ (a - tier3Base) % tier2Base < (nth 0 m.t3Cap ((a - tier3Base) / tier2Base)).toNat) := by
  unfold MemState.populated
  by_cases hone : a < tier1End
  · simp [hone]
  · by_cases htwo : tier2Base ≤ a ∧ a < tier3Base
    · simp [hone, htwo, Nat.not_le.mpr htwo.2]
    · by_cases hthree : tier3Base ≤ a ∧ a < tier3End
      · simp [hone, hthree, Nat.not_lt.mpr hthree.1]
      · simp only [Bool.and_eq_true, decide_eq_true_eq, hone, htwo, hthree, if_false, Bool.false_eq_true,
          ← and_assoc, false_and, or_self]

/-- The tiers begin and end at whole lines: a line with a populated byte is populated from its first byte. -/
theorem MemState.populated_line {m : MemState} {line off : Nat} (hoff : off < 64) (h : m.populated (64 * line + off) = true) :
    m.populated (64 * line) = true := by
  rw [MemState.populated_iff] at h ⊢
  simp only [tier1End, tier2Base, tier3Base, tier3End] at h ⊢
  rcases h with hone | ⟨hlow, hhigh, hcap⟩ | ⟨hlow, hhigh, hcap⟩
  · exact .inl (by omega)
  · exact .inr (.inl (by omega))
  · have hport : (64 * line - 0x020000000000) / 0x010000000000 = (64 * line + off - 0x020000000000) / 0x010000000000 := by omega
    have hoffset : (64 * line - 0x020000000000) % 0x010000000000 ≤ (64 * line + off - 0x020000000000) % 0x010000000000 := by omega
    refine .inr (.inr ⟨by omega, by omega, ?_⟩)
    rw [hport]
    exact Nat.lt_of_le_of_lt hoffset hcap

theorem MemState.populated_put (m : MemState) (a : Nat) (bs : List Byte) : (m.put a bs).populated = m.populated := by
  unfold MemState.put MemState.touch
  split <;> rfl

theorem MemState.put_byte {m : MemState} {a : Nat} (b : Byte) (h : m.populated a = true) : (m.put a [b]).bytes = m.bytes.set a b :=
  if_pos h

/-- Bytes stored one by one where memory is populated. -/
theorem Chip.foldl_store_bytes {c : Chip} {a : Nat} {l : List (Nat × Byte)} (h : ∀ p ∈ l, c.mem.populated (a + p.1) = true) :
    (l.foldl (fun (c : Chip) p => c.store (a + p.1) [p.2]) c).mem.bytes = c.mem.bytes.setAll a l := by
  induction l generalizing c with
  | nil => rfl
  | cons p l ih =>
    obtain ⟨hp, hl⟩ := List.forall_mem_cons.mp h
    have hmem : (c.store (a + p.1) [p.2]).mem = c.mem.put (a + p.1) [p.2] := rfl
    have hrest : ∀ q ∈ l, (c.store (a + p.1) [p.2]).mem.populated (a + q.1) = true := fun q hq => by
      rw [hmem, MemState.populated_put]
      exact hl q hq
    rw [List.foldl_cons, ih hrest, hmem, MemState.put_byte _ hp]
    rfl

section
variable (c : Chip) (e : WbEntry)

theorem Chip.written_performEntry : c.Written (c.performEntry e) := by
  unfold Chip.performEntry
  refine Written.ite ⟨_, _, rfl⟩ (.trans (b := if e.bytes.length == 64 then _ else _) ?_ (.ite ⟨_, _, rfl⟩ (.refl _)))
  exact .ite (written_store ..) (written_foldl _ (fun c p => c.written_store ..) _ c)

variable {c e}

/-- An entry of less than a line, without poison, writes its bytes. -/
theorem Chip.performEntry_bytes (hpoison : e.poison = false) (hpart : e.bytes.length ≠ 64)
    (hpop : ∀ p ∈ e.bytes, p.1 < 64 ∧ c.mem.populated (64 * e.line + p.1) = true) :
    (c.performEntry e).mem.bytes = c.mem.bytes.setAll (64 * e.line) e.bytes := by
  unfold Chip.performEntry
  split
  next hfirst =>
    have hnone : e.bytes = [] := List.eq_nil_iff_forall_not_mem.mpr fun p hp => by
      simp [MemState.populated_line (hpop p hp).1 (hpop p hp).2] at hfirst
    have htouch : (c.mem.touch (64 * e.line) 64).bytes = c.mem.bytes := by
      unfold MemState.touch
      split <;> rfl
    rw [hnone]
    exact htouch
  next =>
    rw [if_neg (by simp [hpoison]), if_neg (by simpa using hpart)]
    exact Chip.foldl_store_bytes fun p hp => (hpop p hp).2

end

section
variable {c c' : Chip} (h : c.Written c')
include h

theorem Chip.Written.core (id : CoreId) : c'.core id = c.core id := by obtain ⟨m, r, rfl⟩ := h; rfl
theorem Chip.Written.cluster (cl : ClusterId) : c'.cluster cl = c.cluster cl := by obtain ⟨m, r, rfl⟩ := h; rfl

end

/-- No reply waits for writes to be performed. -/
theorem Chip.invalReplies_none {c : Chip} (v : Env) (h : c.cmd.invals = []) : c.invalReplies v = c := by
  simp [Chip.invalReplies, h]

/-! ### What goes on once a write is performed (R363) -/

/-- The core that a completed fence leaves: it goes on, and later reads take no line asked for before the count `seq` (R363). -/
def Core.pastFence (k : Core) (seq : Nat) : Core := { k with hold := .none, pc := k.pc + 1, fenceSeq := seq }

theorem Chip.completeFence_goOn (c : Chip) (id : CoreId) :
    (c.completeFence id).modCore id (fun k => { k with hold := .none, pc := k.pc + 1 }) =
      c.setCore id ((c.core id).pastFence (c.cluster (clusterOf id)).seq) := by
  simp [Chip.completeFence, Chip.modCore, Core.pastFence]

section
variable {c : Chip} {id : CoreId}

theorem Chip.wakeCore_free (h : (c.core id).hold = .none) : c.wakeCore id = c := by
  simp only [Chip.wakeCore, h]

theorem Chip.wakeCore_fence_waits (h : (c.core id).hold = .fence) (hout : c.coreOutstanding id = true) : c.wakeCore id = c := by
  simp only [Chip.wakeCore, h, hout, if_true]

theorem Chip.wakeCore_fence (h : (c.core id).hold = .fence) (hout : c.coreOutstanding id = false) :
    c.wakeCore id = c.setCore id ((c.core id).pastFence (c.cluster (clusterOf id)).seq) := by
  simp only [Chip.wakeCore, h, hout, Bool.false_eq_true, if_false, Chip.completeFence_goOn]

theorem Chip.foldl_wakeCore_free {l : List CoreId} (h : ∀ i ∈ l, (c.core i).hold = .none) : l.foldl Chip.wakeCore c = c :=
  List.foldlRecOn (motive := fun c' : Chip => c' = c) _ _ rfl fun _ hc i hi => by rw [hc, Chip.wakeCore_free (h i hi)]

theorem clusterOf_of_mem_coresOf {cl : ClusterId} (h : id ∈ coresOf cl) : clusterOf id = cl := by
  obtain ⟨n, hn, rfl⟩ := List.mem_map.mp h
  have hn := List.mem_range.mp hn
  refine BitVec.eq_of_toNat_eq ?_
  simp only [clusterOf, BitVec.extractLsb'_toNat, Nat.shiftRight_eq_div_pow, coreAt_toNat cl hn]
  have := cl.isLt
  omega

theorem Chip.wakeCluster_free {cl : ClusterId} (h : ∀ i, clusterOf i = cl → (c.core i).hold = .none) : c.wakeCluster cl = c :=
  Chip.foldl_wakeCore_free fun i hi => h i (clusterOf_of_mem_coresOf hi)

/-- Of a cluster in which one core alone waits, at a `FENCE` whose writes are all performed, that core goes on. -/
theorem Chip.wakeCluster_fence (h : (c.core id).hold = .fence) (hout : c.coreOutstanding id = false)
    (hfree : ∀ i, i ≠ id → clusterOf i = clusterOf id → (c.core i).hold = .none) :
    c.wakeCluster (clusterOf id) = c.setCore id ((c.core id).pastFence (c.cluster (clusterOf id)).seq) := by
  have hnodup := nodup_coresOf (clusterOf id)
  have hfree : ∀ i ∈ coresOf (clusterOf id), i ≠ id → (c.core i).hold = .none := fun i hi hne =>
    hfree i hne (clusterOf_of_mem_coresOf hi)
  obtain ⟨before, later, hcores⟩ := List.append_of_mem (mem_coresOf_clusterOf id)
  rw [Chip.wakeCluster]
  rw [hcores] at hfree hnodup ⊢
  obtain ⟨-, hrest, hapart⟩ := List.nodup_append.mp hnodup
  rw [List.foldl_append, List.foldl_cons,
    Chip.foldl_wakeCore_free fun i hi => hfree i (List.mem_append_left _ hi) (hapart i hi id List.mem_cons_self),
    Chip.wakeCore_fence h hout]
  refine Chip.foldl_wakeCore_free fun i hi => ?_
  have hne : i ≠ id := ne_of_mem_of_not_mem hi (List.nodup_cons.mp hrest).1
  rw [Chip.core_setCore_other _ _ _ _ hne]
  exact hfree i (List.mem_append_right _ (List.mem_cons_of_mem _ hi)) hne

end

/-! ### `FENCE` and `FENCE.SC` (R363, R364) -/

theorem Core.hold_of_canIssue {k : Core} (h : k.canIssue = true) : k.hold = .none := by
  simp only [Core.canIssue, Bool.and_eq_true, beq_iff_eq] at h
  obtain ⟨⟨⟨-, hhold⟩, -⟩, -⟩ := h
  exact hhold

section
open Claims Machine
variable {s : State} {id : CoreId} (hr : Ready s id)
include hr

/-- The word of a fence has no field, and its next index lies in the store: no cause stands (R143, R148). -/
theorem fenceCauses_of_ready : when (w0.bad {}) cIllegal ++ when ((s.chip.core id).pc == 2047) cInstrBounds = [] := by
  rw [beq_eq_false_iff_ne.mpr hr.2]
  rfl

/-- A `FENCE` that issues waits, unless its core has nothing to wait for. -/
theorem Chip.fence_issues (v : Env) : s.chip.fence v id w0 = (s.chip.modCore id (fun k => { k with hold := .fence })).wakeCore id := by
  have hcauses := fenceCauses_of_ready hr
  obtain ⟨⟨hruns, hissue⟩, -⟩ := hr
  simp only [Chip.fence, hruns, hissue, hcauses]
  rfl

theorem Chip.fenceSc_issues (v : Env) :
    s.chip.fenceSc v id w0 = s.chip.setCore id { s.chip.core id with hold := .fenceSc [] [] } := by
  have hcauses := fenceCauses_of_ready hr
  obtain ⟨⟨hruns, hissue⟩, -⟩ := hr
  simp only [Chip.fenceSc, hruns, hissue, hcauses]
  rfl

end

/-- What the drain request of a core's `FENCE.SC` does at the master that it reaches: a cluster marks its buffer and makes its cached
lines absent (R364). -/
def Chip.drainAt (c : Chip) (id : CoreId) (m : DrainMaster) : Chip :=
  match m with
  | .cluster cl => c.modCluster cl (fun x =>
      { x with wb := x.wb.map (fun (e : WbEntry) => { e with marks := id :: e.marks }),
               cache := x.cache.map (fun (l : CacheLine) => { l with seq := 0 }) })
  | .app _ => c

theorem Chip.core_drainAt (c : Chip) (id : CoreId) (m : DrainMaster) (i : CoreId) : (c.drainAt id m).core i = c.core i := by
  cases m <;> rfl

theorem Chip.drainAt_mem (c : Chip) (id : CoreId) (m : DrainMaster) : (c.drainAt id m).mem = c.mem := by
  cases m <;> rfl

theorem Chip.coreOutstanding_hold (c : Chip) (id : CoreId) (h : Hold) :
    (c.modCore id (fun k => { k with hold := h })).coreOutstanding id = c.coreOutstanding id := by
  rw [Chip.coreOutstanding, Chip.core_modCore]
  rfl

section
variable {c : Chip} {id : CoreId}

/-- Nothing is outstanding: the wait at a `FENCE` ends in the step it began. -/
theorem Chip.wakeCore_of_fence (hhold : (c.core id).hold = .none) (hout : c.coreOutstanding id = false) :
    (c.modCore id (fun k => { k with hold := .fence })).wakeCore id =
      c.setCore id { c.core id with fenceSeq := (c.cluster (clusterOf id)).seq, pc := (c.core id).pc + 1 } := by
  rw [Chip.wakeCore_fence (congrArg Core.hold (Chip.core_modCore ..)) ((Chip.coreOutstanding_hold ..).trans hout), Chip.core_modCore,
    Core.pastFence, ← hhold]
  exact Chip.setCore_setCore ..

theorem Chip.mastersOf_eq {t : TenantId} {n : Tenant} (ht : (c.core id).tenant = some t) (hn : c.tenant t = some n) :
    c.mastersOf id = n.drainMasters := by
  simp only [Chip.mastersOf, ht, Option.bind_some, hn]

variable {m : DrainMaster} {arrived acked : List DrainMaster} (hhold : (c.core id).hold = .fenceSc arrived acked)
include hhold

/-- A cluster whose buffer holds nothing marked acknowledges, and so does an application core; when every master has, the fence
completes, else the core goes on waiting. -/
theorem Chip.drainAck_drained (harrived : m ∈ arrived) (hacked : m ∉ acked)
    (hdrained : ∀ cl, m = .cluster cl → ∀ e ∈ (c.cluster cl).wb, id ∉ e.marks) :
    c.drainAck id m = c.setCore id (if (c.mastersOf id).all (acked ++ [m]).contains then
      (c.core id).pastFence (c.cluster (clusterOf id)).seq else { c.core id with hold := .fenceSc arrived (acked ++ [m]) }) := by
  have hlast : c.drainAck id m = if (c.mastersOf id).all (acked ++ [m]).contains then
      (c.completeFence id).modCore id (fun k => { k with hold := .none, pc := k.pc + 1 })
      else c.modCore id (fun k => { k with hold := .fenceSc arrived (acked ++ [m]) }) := by
    unfold Chip.drainAck
    rw [hhold]
    cases m with
    | cluster cl => exact if_neg (by simpa [harrived, hacked] using hdrained cl rfl)
    | app a => exact if_neg (by simp [harrived, hacked])
  rw [hlast, apply_ite (c.setCore id), Chip.completeFence_goOn]
  rfl

/-- A request that reaches a master is noted at the core, and has its effect there. -/
theorem Chip.drainArrive_arrives (hout : c.coreOutstanding id = false) (hfresh : m ∉ arrived) (hmaster : m ∈ c.mastersOf id) :
    c.drainArrive id m = (c.setCore id { c.core id with hold := .fenceSc (arrived ++ [m]) acked }).drainAt id m := by
  unfold Chip.drainArrive
  rw [hhold]
  exact if_neg (by simp [hout, hfresh, hmaster])

end

end Sys2Proof

namespace Sys2Proof.Claims

open Sys2Proof.Machine

theorem exec_homeWritePerform {s : State} {cl : ClusterId} {line : BitVec 46} {c : Chip} (hinvals : c.cmd.invals = [])
    (h : s.chip.homeWrite cl line.toNat = c) : exec (.homeWritePerform cl line) s = .next (chipNow s c) :=
  exec_onChip rfl (h.symm ▸ Chip.invalReplies_none s.env hinvals)

theorem writeBuffer : WriteBuffer := by
  intro s cl line pre post e x hwb hline
  refine ⟨fun hnew hpre => exec_onChip rfl (Chip.wbSend_oldest hwb hline hnew hpre),
    fun hquiet hsent hpoison hpart hpre hdistinct hpop => ?_⟩
  have hbytes := Chip.performEntry_bytes (c := s.chip.setCluster cl { x with wb := pre ++ post }) hpoison hpart (hline ▸ hpop)
  have hwritten := (s.chip.setCluster cl { x with wb := pre ++ post }).written_performEntry e
  have hwrite := Chip.homeWrite_oldest hwb hline hsent hpre
  have hcluster := (hwritten.cluster cl).trans (Chip.cluster_setCluster ..)
  have hinvals := (congrArg Cmd.invals hwritten.cmd).trans hquiet.1
  generalize (s.chip.setCluster cl { x with wb := pre ++ post }).performEntry e = c at hbytes hwritten hwrite hcluster hinvals
  refine ⟨fun hfree => ?_, fun id hid hfence hflushes howners hfree => ?_⟩
  · rw [Chip.wakeCluster_free fun i hi => (congrArg Core.hold (hwritten.core i)).trans (hfree i hi)] at hwrite
    refine ⟨_, exec_homeWritePerform hinvals hwrite, hcluster, fun p hp => ?_, fun y hy => ?_, hwritten.cores⟩
    · exact (congrArg (Memory.get · _) hbytes).trans (hline ▸ Memory.get_setAll _ hdistinct hp)
    · exact (congrArg (Memory.get · _) hbytes).trans (hline ▸ Memory.get_setAll_other _ hy)
  · subst hid
    have hcore : c.core id = s.chip.core id := hwritten.core id
    have hout : c.coreOutstanding id = false := by
      simp only [Chip.coreOutstanding, Cluster.outstanding, hcluster, hcore, hflushes]
      simpa [or_imp, forall_and] using howners
    rw [Chip.wakeCluster_fence (hcore ▸ hfence) hout fun i hne hi => (congrArg Core.hold (hwritten.core i)).trans (hfree i hne hi),
      hcore, hcluster] at hwrite
    exact ⟨_, exec_homeWritePerform (c := c.setCore id _) hinvals hwrite, Chip.core_setCore ..⟩

theorem fences : Fences := by
  intro s id m n t0 k x masters
  refine ⟨fun hready hout => ?_, fun hready hout => ?_, fun hready => exec_onChip rfl (Chip.fenceSc_issues hready _),
    fun ht hn hm arrived acked hhold => ?_⟩
  · exact exec_onChip rfl ((Chip.fence_issues hready _).trans (Chip.wakeCore_of_fence (Core.hold_of_canIssue hready.1.2) hout))
  · refine exec_onChip rfl ((Chip.fence_issues hready _).trans (Chip.wakeCore_fence_waits ?_ ?_))
    · exact congrArg Core.hold (Chip.core_modCore ..)
    · exact (Chip.coreOutstanding_hold ..).trans hout
  · have hmasters : s.chip.mastersOf id = masters := Chip.mastersOf_eq ht hn
    refine ⟨fun hout hfresh => ?_, fun harrived hacked hdrained => ?_⟩
    · refine ⟨_, exec_onChip rfl (Chip.drainArrive_arrives hhold hout hfresh (hmasters ▸ hm)), ?_, Chip.drainAt_mem ..,
        fun cl hcl => ?_⟩
      · exact (Chip.core_drainAt ..).trans (Chip.core_setCore ..)
      · subst hcl
        exact Chip.cluster_setCluster ..
    · have hack := Chip.drainAck_drained hhold harrived hacked hdrained
      rw [hmasters] at hack
      refine ⟨fun ⟨o, ho, hmissing⟩ => ?_, fun hall => ?_⟩
      · rw [if_neg fun h => hmissing (List.contains_iff_mem.mp (List.all_eq_true.mp h o ho))] at hack
        exact exec_onChip rfl hack
      · rw [if_pos (List.all_eq_true.mpr fun o ho => List.contains_iff_mem.mpr (hall o ho))] at hack
        exact exec_onChip rfl hack

/-- Settles O26: the write buffer, then the fences. -/
theorem writesAndFences : Obligations.WritesAndFences := ⟨writeBuffer, fences⟩

end Sys2Proof.Claims
end
